-- ==== Sys2Proof/Word.lean ====
section
/-!
DEFINITION. The word types of the module (R2: bit 0 is the least significant) and the sparse tables that hold
numbered parts: a table lists the entries that differ from the part's reset value; every other entry reads as it.
-/
namespace Sys2Proof

abbrev Byte := BitVec 8
abbrev Word := BitVec 64
abbrev W32 := BitVec 32

/-- A sparse table of numbered parts. -/
abbrev Tbl (α : Type) := List (Nat × α)

/-- The entry at `k`, or `d` where the table lists none. -/
def Tbl.get {α : Type} (t : Tbl α) (d : α) (k : Nat) : α :=
  match t with
  | [] => d
  | (j, v) :: r => if j = k then v else Tbl.get r d k

/-- The table with entry `k` set to `v`, kept in rising order of the keys. -/
def Tbl.set {α : Type} (t : Tbl α) (k : Nat) (v : α) : Tbl α :=
  match t with
  | [] => [(k, v)]
  | (j, w) :: r =>
    if j = k then (k, v) :: r
    else if k < j then (k, v) :: (j, w) :: r
    else (j, w) :: Tbl.set r k v

/-- The table without an entry at `k`. -/
def Tbl.erase {α : Type} (t : Tbl α) (k : Nat) : Tbl α := t.filter (fun p => p.1 != k)

end Sys2Proof
end

