-- ==== Sys2Proof/Syntax.lean ====
section
/-!
DEFINITION. The commands the block takes: one constructor per row of spec/opcode_table.json, with its operands.
-/
namespace Sys2Proof

/-- A general, floating or vector register number. -/
abbrev Reg := Fin 32

/-- Scalar core SCn of an island. -/
structure CoreId where
  isl : Fin 16
  sc : Fin 8
  deriving DecidableEq, Repr

/-- A matrix array or a vector core of an island. -/
inductive UnitId where
  | array (j : Fin 64)
  | vec (j : Fin 32)
  deriving DecidableEq, Repr

/-- Second operand of an integer instruction: a register (major 0x00) or imm40 (major 0x01) (R133). -/
inductive Opd where
  | reg (r : Reg)
  | imm (v : BitVec 40)
  deriving DecidableEq, Repr

/-- The fields of format R as a floating-point instruction uses them (R125); `dbl` is P. -/
structure FpArgs where
  rd : Reg
  rs1 : Reg
  rs2 : Reg
  rs3 : Reg
  dbl : Bool
  rmEn : Bool
  rm : BitVec 2
  deriving DecidableEq, Repr

/-- The fields of format V (R125). -/
structure VArgs where
  vd : Reg
  vs1 : Reg
  vs2 : Reg
  vs3 : Reg
  mask : Fin 8
  cores : BitVec 4
  fmt : BitVec 3
  rmEn : Bool
  rm : BitVec 2
  s2 : Bool
  imm : BitVec 16
  deriving DecidableEq, Repr

/-- The fields of MA.WLOAD (R151). -/
structure WloadArgs where
  arrays : BitVec 8
  buf : Bool
  fmtW : BitVec 5
  sp : Bool
  rs1 : Reg
  rs2 : Reg
  deriving DecidableEq, Repr

/-- The fields of MA.MAC (R151); `m1` is M − 1. -/
structure MacArgs where
  arrays : BitVec 8
  bank : Fin 4
  buf : Bool
  fmtA : BitVec 5
  m1 : BitVec 7
  r0 : BitVec 7
  rs1 : Reg
  rs2 : Reg
  rs3 : Reg
  amEn : Bool
  am : Bool
  deriving DecidableEq, Repr

/-- The fields of MA.SCAN (R151). -/
structure ScanArgs where
  arrays : BitVec 8
  bank : Fin 4
  buf : Bool
  fmtA : BitVec 5
  m1 : BitVec 7
  re : Reg
  rs1 : Reg
  rs2 : Reg
  rs3 : Reg
  ewsrc : Bool
  deriving DecidableEq, Repr

/-- The fields of MA.DRAIN (R151); `count1` is count − 1. -/
structure DrainArgs where
  arrays : BitVec 8
  bank : Fin 4
  ofmt : BitVec 5
  first : BitVec 7
  count1 : BitVec 7
  rs1 : Reg
  rs2 : Reg
  rs3 : Reg
  clr : Bool
  rndEn : Bool
  rnd : Bool
  scEn : Bool
  sc : Bool
  deriving DecidableEq, Repr

/-- What a training step of a link learned (R339, R340): it succeeded; in ALIGN and RETRAIN the codeword count at which the lanes are aligned; in
IDENTIFY the peer's node, link and one-way delay in 100 ns, the lanes the peer can receive and those received here. -/
structure TrainInfo where
  ok : Bool
  node : BitVec 16
  link : Fin 32
  delay : Fin 1024
  txLanes : BitVec 8
  rxLanes : BitVec 8
  count : BitVec 12 := 0
  deriving DecidableEq, Repr


/-- What host memory answers to a non-posted read (R306, R319): the request, whether it completed well, the line. -/
structure HostCpl where
  no : Nat
  ok : Bool
  data : BitVec 1024
  deriving DecidableEq, Repr

/-- What has changed in an HBM page and its record (R282, R283, R286): patterns on its code symbols, data symbols 0 to 2,047 then
parity, and on its stored line CRCs; the first refetch that matched (R292), 0 none. -/
structure PageErr where
  syms : List (Fin 2176 × BitVec 16)
  crcs : List (Fin 32 × BitVec 32)
  refetch : Fin 4
  deriving DecidableEq, Repr

/-- What the sender of a bond group puts into a flit (R184, R185, R190): nothing; 32 bytes of the shoal, by their index, where the shoal die
sends; words from the compute die or the base tile, with those that are poisoned. -/
inductive BondSrc where
  | idle
  | shoal (block : BitVec 26)
  | data (words : BitVec 256) (poison : BitVec 4)
  deriving DecidableEq, Repr

/-- A write that reaches a memory controller (R289): bytes of one line, or a full page with its poisoned lines. -/
inductive HbmWr where
  | line (data : BitVec 1024) (mask : BitVec 128) (poison : BitVec 16)
  | page (data : BitVec 32768) (poison : BitVec 32)
  deriving DecidableEq, Repr

/-- What assembly test left in flash, for the first power-up (R517, R519, R520). -/
structure FlashStock where
  slotA : List Byte
  slotB : List Byte
  select : Bool
  counter : BitVec 32
  revoked : BitVec 4
  shipped : Bool
  deriving DecidableEq, Repr

/-- A stand-alone test mode (R465), by the die under test. -/
inductive TestMode where
  | cd | sh | bt | op | lk
  deriving DecidableEq, Repr

/-- What happens in a start-up (R462) that the module does not decide: the ROM's failure, the keepers that agree, flash as
assembly test left it, the bytes of the calibration copies that do not read as written (copy, offset, change), CALREF's offset in ppb, what the 28 sensors of
each island read at the end of the soak, islands that fail phases 3, 4 and 7, lanes of plane ports that fail phase 5 or 6, the marker fields LAMBDA, PLANE and SRC
(from bit 0, 8 and 16) that lanes read at training where they are not the lane's own, self-test checker failures (`true`: in
step 3), the stack addresses of miscomparing lines, the channels that a controller finds failed, and the identity straps, as IS_IDENT
[15:0] shows them, of islands that read them otherwise than they were built; the test mode asked for with TESTEN high; the MGMT_ADDR straps. -/
structure StartPlan where
  romFails : Bool := false
  keepers : BitVec 3 := 7
  flash : Option FlashStock := none
  badBytes : List (Bool × BitVec 24 × BitVec 8) := []
  calref : Option (BitVec 32) := none
  raw : List (List (BitVec 16)) := []
  failed3 : BitVec 16 := 0
  failed4 : BitVec 16 := 0
  failed7 : BitVec 16 := 0
  lanes : List (Fin 16 × Fin 68 × Fin 16) := []
  marks : List (Fin 16 × Fin 64 × Fin 16 × BitVec 24) := []
  checkers : List (Fin 16 × Fin 8 × Bool) := []
  defects : List (Fin 16 × Fin 8 × BitVec 36) := []
  channels : List (Fin 16 × Fin 8 × BitVec 32) := []
  straps : List (Fin 16 × BitVec 16) := []
  testen : Option TestMode := none
  mgmtAddr : BitVec 2 := 0
  deriving DecidableEq, Repr

/-- A trim that the module makes in service (R508): of ring r of a plane port, modulators before detectors, by 1 GHz; of the bias of an element of
the port's plane, by one code. -/
inductive Trim where
  | ring (i : Fin 16) (plane : Fin 64) (r : Fin 36) (up : Bool)
  | bias (i : Fin 16) (plane : Fin 64) (e : Fin 56) (up : Bool)
  deriving DecidableEq, Repr

/-- Where a host command comes from (R427, R435): a tenancy's ring, a port's ring, the management path. -/
inductive CmdSrc where
  | ten (t : Fin 16)
  | port (p : Fin 4)
  | mgmt
  deriving DecidableEq, Repr


/-- The entries of a port's configuration space (R414): vendor and device; class and revision; the two BARs; the size of BAR2;
MSI-X Enable and the number of vectors; the power state; Max Payload Size; whether the completion timeout is disabled; the
Device Serial Number. -/
inductive CfgItem where
  | ids | classRev | bar0 | bar2 | bar2Size | msixEnable | msixVectors | power | maxPayload | timeoutOff | serial
  deriving DecidableEq, Repr

/-- Who accesses a register (R9, R423, R435): a host port through BAR0, the management path, or a host's access to an entry of
the configuration space of its port (R414). -/
inductive RegSrc where
  | host (p : Fin 4)
  | mgmt
  | config (p : Fin 4) (item : CfgItem)
  deriving DecidableEq, Repr

/-- What resets a port (R416): Function Level Reset, a hot reset, link down, PERST#. -/
inductive PortRst where
  | flr | hot | linkDown | perst
  deriving DecidableEq, Repr

/-- The commands of the block: one constructor per row of spec/opcode_table.json, those of programs and units first. -/
inductive Instr where
  /-- MESH_WINDOW_START (R200). -/
  | meshWindowStart (isl : Fin 16) (w : Nat) (held : Nat)
  /-- UNIT_OP_EXECUTE (R108). -/
  | unitOpExecute (isl : Fin 16) (u : UnitId)
  /-- IFETCH_LINE_FILL (R113). -/
  | ifetchLineFill (c : CoreId) (line : Nat) (flip : Option (BitVec 64 × BitVec 8))
  /-- DEFERRED_TRAP (R117). -/
  | deferredTrap (isl : Fin 16) (u : UnitId)
  /-- ADD (R133). -/
  | add (c : CoreId) (rd rs1 : Reg) (b : Opd)
  /-- SUB (R133). -/
  | sub (c : CoreId) (rd rs1 : Reg) (b : Opd)
  /-- AND (R133). -/
  | and (c : CoreId) (rd rs1 : Reg) (b : Opd)
  /-- OR (R133). -/
  | or (c : CoreId) (rd rs1 : Reg) (b : Opd)
  /-- XOR (R133). -/
  | xor (c : CoreId) (rd rs1 : Reg) (b : Opd)
  /-- SLL (R133). -/
  | sll (c : CoreId) (rd rs1 : Reg) (b : Opd)
  /-- SRL (R133). -/
  | srl (c : CoreId) (rd rs1 : Reg) (b : Opd)
  /-- SRA (R133). -/
  | sra (c : CoreId) (rd rs1 : Reg) (b : Opd)
  /-- SLT (R133). -/
  | slt (c : CoreId) (rd rs1 : Reg) (b : Opd)
  /-- SLTU (R133). -/
  | sltu (c : CoreId) (rd rs1 : Reg) (b : Opd)
  /-- MIN (R133). -/
  | min (c : CoreId) (rd rs1 : Reg) (b : Opd)
  /-- MAX (R133). -/
  | max (c : CoreId) (rd rs1 : Reg) (b : Opd)
  /-- MINU (R133). -/
  | minu (c : CoreId) (rd rs1 : Reg) (b : Opd)
  /-- MAXU (R133). -/
  | maxu (c : CoreId) (rd rs1 : Reg) (b : Opd)
  /-- MUL (R133). -/
  | mul (c : CoreId) (rd rs1 rs2 : Reg)
  /-- MULH (R133). -/
  | mulh (c : CoreId) (rd rs1 rs2 : Reg)
  /-- MULHU (R133). -/
  | mulhu (c : CoreId) (rd rs1 rs2 : Reg)
  /-- DIV (R134). -/
  | div (c : CoreId) (rd rs1 rs2 : Reg)
  /-- DIVU (R134). -/
  | divu (c : CoreId) (rd rs1 rs2 : Reg)
  /-- REM (R134). -/
  | rem (c : CoreId) (rd rs1 rs2 : Reg)
  /-- REMU (R134). -/
  | remu (c : CoreId) (rd rs1 rs2 : Reg)
  /-- CLZ (R133). -/
  | clz (c : CoreId) (rd rs1 : Reg)
  /-- CTZ (R133). -/
  | ctz (c : CoreId) (rd rs1 : Reg)
  /-- POPC (R133). -/
  | popc (c : CoreId) (rd rs1 : Reg)
  /-- SEL (R133). -/
  | sel (c : CoreId) (rd rs1 rs2 rs3 : Reg)
  /-- LI (R135). -/
  | li (c : CoreId) (rd : Reg) (imm : BitVec 40)
  /-- LIH (R135). -/
  | lih (c : CoreId) (rd rs1 : Reg) (imm : BitVec 24)
  /-- LD8S (R136). -/
  | ld8s (c : CoreId) (rd rs1 : Reg) (imm : BitVec 40)
  /-- LD8U (R136). -/
  | ld8u (c : CoreId) (rd rs1 : Reg) (imm : BitVec 40)
  /-- LD16S (R136). -/
  | ld16s (c : CoreId) (rd rs1 : Reg) (imm : BitVec 40)
  /-- LD16U (R136). -/
  | ld16u (c : CoreId) (rd rs1 : Reg) (imm : BitVec 40)
  /-- LD32S (R136). -/
  | ld32s (c : CoreId) (rd rs1 : Reg) (imm : BitVec 40)
  /-- LD32U (R136). -/
  | ld32u (c : CoreId) (rd rs1 : Reg) (imm : BitVec 40)
  /-- LD64 (R136). -/
  | ld64 (c : CoreId) (rd rs1 : Reg) (imm : BitVec 40)
  /-- ST8 (R136). -/
  | st8 (c : CoreId) (rt rs1 : Reg) (imm : BitVec 40)
  /-- ST16 (R136). -/
  | st16 (c : CoreId) (rt rs1 : Reg) (imm : BitVec 40)
  /-- ST32 (R136). -/
  | st32 (c : CoreId) (rt rs1 : Reg) (imm : BitVec 40)
  /-- ST64 (R136). -/
  | st64 (c : CoreId) (rt rs1 : Reg) (imm : BitVec 40)
  /-- BEQ (R135). -/
  | beq (c : CoreId) (rs1 rs2 : Reg) (off : BitVec 40)
  /-- BNE (R135). -/
  | bne (c : CoreId) (rs1 rs2 : Reg) (off : BitVec 40)
  /-- BLT (R135). -/
  | blt (c : CoreId) (rs1 rs2 : Reg) (off : BitVec 40)
  /-- BGE (R135). -/
  | bge (c : CoreId) (rs1 rs2 : Reg) (off : BitVec 40)
  /-- BLTU (R135). -/
  | bltu (c : CoreId) (rs1 rs2 : Reg) (off : BitVec 40)
  /-- BGEU (R135). -/
  | bgeu (c : CoreId) (rs1 rs2 : Reg) (off : BitVec 40)
  /-- JAL (R135). -/
  | jal (c : CoreId) (rd : Reg) (off : BitVec 40)
  /-- JALR (R135). -/
  | jalr (c : CoreId) (rd rs1 : Reg) (off : BitVec 40)
  /-- CWR (R131). -/
  | cwr (c : CoreId) (rd : Reg) (cw : BitVec 12)
  /-- CWW (R131). -/
  | cww (c : CoreId) (rs1 : Reg) (cw : BitVec 12)
  /-- CWRC (R131). -/
  | cwrc (c : CoreId) (rd : Reg) (cw : BitVec 12)
  /-- MOVGF (R135). -/
  | movgf (c : CoreId) (rd rs1 : Reg)
  /-- MOVFG (R135). -/
  | movfg (c : CoreId) (rd rs1 : Reg)
  /-- GETV (R137). -/
  | getv (c : CoreId) (rd rs1 : Reg) (pos : Fin 4) (lane : Fin 128)
  /-- PUTV (R135). -/
  | putv (c : CoreId) (rd rs1 : Reg) (pos : Fin 4) (lane : Fin 128)
  /-- FADD (R138). -/
  | fadd (c : CoreId) (a : FpArgs)
  /-- FSUB (R138). -/
  | fsub (c : CoreId) (a : FpArgs)
  /-- FMUL (R138). -/
  | fmul (c : CoreId) (a : FpArgs)
  /-- FDIV (R138). -/
  | fdiv (c : CoreId) (a : FpArgs)
  /-- FSQRT (R138). -/
  | fsqrt (c : CoreId) (a : FpArgs)
  /-- FMIN (R138). -/
  | fmin (c : CoreId) (a : FpArgs)
  /-- FMAX (R138). -/
  | fmax (c : CoreId) (a : FpArgs)
  /-- FMA (R138). -/
  | fma (c : CoreId) (a : FpArgs)
  /-- FMS (R138). -/
  | fms (c : CoreId) (a : FpArgs)
  /-- FNMA (R138). -/
  | fnma (c : CoreId) (a : FpArgs)
  /-- FABS (R138). -/
  | fabs (c : CoreId) (a : FpArgs)
  /-- FNEG (R138). -/
  | fneg (c : CoreId) (a : FpArgs)
  /-- FCPYS (R138). -/
  | fcpys (c : CoreId) (a : FpArgs)
  /-- FEQ (R138). -/
  | feq (c : CoreId) (a : FpArgs)
  /-- FLT (R138). -/
  | flt (c : CoreId) (a : FpArgs)
  /-- FLE (R138). -/
  | fle (c : CoreId) (a : FpArgs)
  /-- FCLASS (R138). -/
  | fclass (c : CoreId) (a : FpArgs)
  /-- FCVTSD (R138). -/
  | fcvtsd (c : CoreId) (a : FpArgs)
  /-- FCVTDS (R138). -/
  | fcvtds (c : CoreId) (a : FpArgs)
  /-- FCVTI (R138). -/
  | fcvti (c : CoreId) (a : FpArgs)
  /-- FCVTU (R138). -/
  | fcvtu (c : CoreId) (a : FpArgs)
  /-- FCVTFI (R138). -/
  | fcvtfi (c : CoreId) (a : FpArgs)
  /-- FCVTFU (R138). -/
  | fcvtfu (c : CoreId) (a : FpArgs)
  /-- FLD32 (R138). -/
  | fld32 (c : CoreId) (rd rs1 : Reg) (imm : BitVec 40)
  /-- FLD64 (R138). -/
  | fld64 (c : CoreId) (rd rs1 : Reg) (imm : BitVec 40)
  /-- FST32 (R138). -/
  | fst32 (c : CoreId) (rt rs1 : Reg) (imm : BitVec 40)
  /-- FST64 (R138). -/
  | fst64 (c : CoreId) (rt rs1 : Reg) (imm : BitVec 40)
  /-- FLI (R138). -/
  | fli (c : CoreId) (rd : Reg) (imm : BitVec 32)
  /-- FLIH (R138). -/
  | flih (c : CoreId) (rd rs1 : Reg) (imm : BitVec 32)
  /-- VADD (R139). -/
  | vadd (c : CoreId) (a : VArgs)
  /-- VSUB (R139). -/
  | vsub (c : CoreId) (a : VArgs)
  /-- VMUL (R139). -/
  | vmul (c : CoreId) (a : VArgs)
  /-- VDIV (R139). -/
  | vdiv (c : CoreId) (a : VArgs)
  /-- VSQRT (R139). -/
  | vsqrt (c : CoreId) (a : VArgs)
  /-- VMIN (R139). -/
  | vmin (c : CoreId) (a : VArgs)
  /-- VMAX (R139). -/
  | vmax (c : CoreId) (a : VArgs)
  /-- VFMA (R139). -/
  | vfma (c : CoreId) (a : VArgs)
  /-- VFMS (R139). -/
  | vfms (c : CoreId) (a : VArgs)
  /-- VFNMA (R139). -/
  | vfnma (c : CoreId) (a : VArgs)
  /-- VABS (R139). -/
  | vabs (c : CoreId) (a : VArgs)
  /-- VNEG (R139). -/
  | vneg (c : CoreId) (a : VArgs)
  /-- VIADD (R139). -/
  | viadd (c : CoreId) (a : VArgs)
  /-- VISUB (R139). -/
  | visub (c : CoreId) (a : VArgs)
  /-- VIMUL (R139). -/
  | vimul (c : CoreId) (a : VArgs)
  /-- VIMULH (R139). -/
  | vimulh (c : CoreId) (a : VArgs)
  /-- VAND (R139). -/
  | vand (c : CoreId) (a : VArgs)
  /-- VOR (R139). -/
  | vor (c : CoreId) (a : VArgs)
  /-- VXOR (R139). -/
  | vxor (c : CoreId) (a : VArgs)
  /-- VSLL (R139). -/
  | vsll (c : CoreId) (a : VArgs)
  /-- VSRL (R139). -/
  | vsrl (c : CoreId) (a : VArgs)
  /-- VSRA (R139). -/
  | vsra (c : CoreId) (a : VArgs)
  /-- VIMIN (R139). -/
  | vimin (c : CoreId) (a : VArgs)
  /-- VIMAX (R139). -/
  | vimax (c : CoreId) (a : VArgs)
  /-- VCMP (R140). -/
  | vcmp (c : CoreId) (a : VArgs)
  /-- MAND (R140). -/
  | mand (c : CoreId) (a : VArgs)
  /-- MOR (R140). -/
  | mor (c : CoreId) (a : VArgs)
  /-- MXOR (R140). -/
  | mxor (c : CoreId) (a : VArgs)
  /-- MANDN (R140). -/
  | mandn (c : CoreId) (a : VArgs)
  /-- VCVT (R141). -/
  | vcvt (c : CoreId) (a : VArgs)
  /-- VMOV (R139). -/
  | vmov (c : CoreId) (a : VArgs)
  /-- VSEL (R139). -/
  | vsel (c : CoreId) (a : VArgs)
  /-- VBCAST (R139). -/
  | vbcast (c : CoreId) (a : VArgs)
  /-- VEXP2 (R98). -/
  | vexp2 (c : CoreId) (a : VArgs)
  /-- VLOG2 (R98). -/
  | vlog2 (c : CoreId) (a : VArgs)
  /-- VRCP (R98). -/
  | vrcp (c : CoreId) (a : VArgs)
  /-- VRSQ (R98). -/
  | vrsq (c : CoreId) (a : VArgs)
  /-- VSIN (R98). -/
  | vsin (c : CoreId) (a : VArgs)
  /-- VCOS (R98). -/
  | vcos (c : CoreId) (a : VArgs)
  /-- VRSUM (R142). -/
  | vrsum (c : CoreId) (a : VArgs)
  /-- VRMAX (R142). -/
  | vrmax (c : CoreId) (a : VArgs)
  /-- VRMIN (R142). -/
  | vrmin (c : CoreId) (a : VArgs)
  /-- V_SMX_INIT (R101). -/
  | vSmxInit (c : CoreId) (a : VArgs)
  /-- V_SMX_STEP (R102). -/
  | vSmxStep (c : CoreId) (a : VArgs)
  /-- V_SMX_MERGE (R103). -/
  | vSmxMerge (c : CoreId) (a : VArgs)
  /-- V_SMX_READ (R143). -/
  | vSmxRead (c : CoreId) (a : VArgs)
  /-- V_SMX_WRITE (R143). -/
  | vSmxWrite (c : CoreId) (a : VArgs)
  /-- VLD (R144). -/
  | vld (c : CoreId) (a : VArgs)
  /-- VST (R144). -/
  | vst (c : CoreId) (a : VArgs)
  /-- V_CG (R145). -/
  | vCg (c : CoreId) (a : VArgs)
  /-- VPERM (R139). -/
  | vperm (c : CoreId) (a : VArgs)
  /-- VROT (R139). -/
  | vrot (c : CoreId) (a : VArgs)
  /-- V_CWR (R146). -/
  | vCwr (c : CoreId) (a : VArgs)
  /-- V_CWW (R146). -/
  | vCww (c : CoreId) (a : VArgs)
  /-- V_CWRC (R146). -/
  | vCwrc (c : CoreId) (a : VArgs)
  /-- MA_WLOAD (R152). -/
  | maWload (c : CoreId) (a : WloadArgs)
  /-- MA_MAC (R71). -/
  | maMac (c : CoreId) (a : MacArgs)
  /-- MA_SCAN (R68). -/
  | maScan (c : CoreId) (a : ScanArgs)
  /-- MA_ANCHOR (R68). -/
  | maAnchor (c : CoreId) (arrays : BitVec 8) (bank : Fin 4) (rs1 : Reg)
  /-- MA_ZERO (R67). -/
  | maZero (c : CoreId) (arrays : BitVec 8) (bank : Fin 4)
  /-- MA_FLAGS (R73). -/
  | maFlags (c : CoreId) (arrays : BitVec 8) (bank : Fin 4) (rd : Reg) (clr : Bool)
  /-- MA_DRAIN (R77). -/
  | maDrain (c : CoreId) (a : DrainArgs)
  /-- XF_MOVE (R157). -/
  | xfMove (c : CoreId) (rd rs1 rs2 : Reg) (cnt : Fin 16)
  /-- ST_SEND (R158). -/
  | stSend (c : CoreId) (rs1 : Reg) (xfer : BitVec 12) (cnt : Fin 16)
  /-- ST_RECV (R158). -/
  | stRecv (c : CoreId) (rs1 : Reg) (xfer : BitVec 12) (cnt : Fin 16)
  /-- FY_RD (R160). -/
  | fyRd (c : CoreId) (rd rs1 rs2 : Reg) (cnt : Fin 16)
  /-- FY_WR (R160). -/
  | fyWr (c : CoreId) (rd rs1 rs2 : Reg) (cnt : Fin 16)
  /-- FB_RD (R161). -/
  | fbRd (c : CoreId) (rd rs1 rs2 : Reg) (cnt : Fin 16)
  /-- FB_WR (R161). -/
  | fbWr (c : CoreId) (rd rs1 rs2 rs3 : Reg) (cnt : Fin 16)
  /-- FB_ATOM (R162). -/
  | fbAtom (c : CoreId) (rd rs1 rs2 rs3 rs4 : Reg) (aop : BitVec 3)
  /-- TRANSFER_COMPLETE (R164). -/
  | transferComplete (c : CoreId) (no : Nat)
  /-- FEND (R174). -/
  | fend (c : CoreId)
  /-- FEND_RETIRE (R174). -/
  | fendRetire (c : CoreId)
  /-- SYNC (R166). -/
  | sync (c : CoreId) (arrays : BitVec 8) (vcs : BitVec 4) (xfer : Bool)
  /-- SYNC_RETIRE (R166). -/
  | syncRetire (c : CoreId)
  /-- WAITC (R167). -/
  | waitc (c : CoreId) (cnt : Fin 16) (rs1 : Reg)
  /-- WAITC_RETIRE (R167). -/
  | waitcRetire (c : CoreId)
  /-- FENCE (R168). -/
  | fence (c : CoreId) (fabric ferry : Bool)
  /-- FENCE_COMPLETE (R168). -/
  | fenceComplete (c : CoreId)
  /-- FENCE_TIMEOUT (R169). -/
  | fenceTimeout (c : CoreId)
  /-- FLAG_SET (R170). -/
  | flagSet (c : CoreId) (rs1 rs2 : Reg)
  /-- FLAG_ADD (R170). -/
  | flagAdd (c : CoreId) (rs1 rs2 : Reg)
  /-- RELEASE_SIGNAL_SEND (R173). -/
  | releaseSignalSend (c : CoreId) (no : Nat)
  /-- FLAG_WAIT (R171). -/
  | flagWait (c : CoreId) (rs1 rs2 : Reg) (rel : BitVec 2)
  /-- FLAG_WAIT_RETIRE (R171). -/
  | flagWaitRetire (c : CoreId)
  /-- BARRIER (R172). -/
  | barrier (c : CoreId) (rs1 : Reg) (count : BitVec 8)
  /-- TRAP (R175). -/
  | trap (c : CoreId)
  /-- TRET (R175). -/
  | tret (c : CoreId)
  /-- CKMARK (R175). -/
  | ckmark (c : CoreId) (rs1 : Reg)
  /-- ILLEGAL_WORD (R127). -/
  | illegalWord (c : CoreId) (w : BitVec 64)
  /-- REGISTER_WRITE (R7). -/
  | registerWrite (src : RegSrc) (off : BitVec 32) (size : BitVec 8) (value : BitVec 64)
  /-- RC_READ (R6). -/
  | rcRead (src : RegSrc) (off : BitVec 32) (size : BitVec 8)
  /-- LOWER_HALF_READ (R9). -/
  | lowerHalfRead (src : RegSrc) (off : BitVec 32)
  /-- UPPER_HALF_READ (R9). -/
  | upperHalfRead (src : RegSrc) (off : BitVec 32)
  /-- MGMT_REG_READ (R435). -/
  | mgmtRegRead (off : BitVec 32) (width : BitVec 8)
  /-- MGMT_REG_WRITE (R435). -/
  | mgmtRegWrite (off : BitVec 32) (width : BitVec 8) (value : BitVec 64)
  /-- MGMT_COMMAND (R436). -/
  | mgmtCommand (record : BitVec 512)
  /-- WARM_RESET (R449). -/
  | warmReset (plan : StartPlan)
  /-- COLD_RESET (R449). -/
  | coldReset (plan : StartPlan)
  /-- ISLAND_RESET (R451). -/
  | islandReset (mask : BitVec 16)
  /-- RESET_WAITS_FOR_STORE (R450). -/
  | resetWaitsForStore (plan : StartPlan)
  /-- FENCE_REQUEST (R498). -/
  | fenceRequest (mask : BitVec 16)
  /-- COOLANT_WRITE (R442). -/
  | coolantWrite (v : BitVec 64)
  /-- NODE_WRITE (R350). -/
  | nodeWrite (node : BitVec 16)
  /-- RT_INVAL (R356). -/
  | rtInval (v : BitVec 64)
  /-- HT_SWITCH (R371). -/
  | htSwitch
  /-- HT_DRAIN_END (R371). -/
  | htDrainEnd
  /-- MBOX_GO (R374). -/
  | mboxGo (write wide : Bool)
  /-- PORT_RING_WRITE (R437). -/
  | portRingWrite (src : RegSrc) (p : Fin 4) (value : BitVec 64)
  /-- KV_CFG_WRITE (R379). -/
  | kvCfgWrite (i : Fin 16) (done : Bool) (v : BitVec 64)
  /-- FLIP_ARM (R296). -/
  | flipArm (i : Fin 16) (msc : Bool) (v : BitVec 64)
  /-- ELOG_TAIL_WRITE (R299). -/
  | elogTailWrite (i : Fin 16) (tail : BitVec 10)
  /-- RUNREC_TAIL_WRITE (R410). -/
  | runrecTailWrite (src : RegSrc) (t : Fin 16) (tail : BitVec 32)
  /-- STOP_AT_WRITE (R411). -/
  | stopAtWrite (src : RegSrc) (t : Fin 16) (value : BitVec 64)
  /-- CAP_WRITE (R485). -/
  | capWrite (v : BitVec 64)
  /-- EVLOG_ALERT_CLEAR (R547). -/
  | evlogAlertClear
  /-- I3C_IBI_ACCEPT (R547). -/
  | i3cIbiAccept
  /-- POWER_VALID (R555). -/
  | powerValid (plan : StartPlan)
  /-- MODULE_READY (R463). -/
  | moduleReady
  /-- CAL_STORE (R459). -/
  | calStore (done moved : Bool)
  /-- CAL_STORE_RETRY (R459). -/
  | calStoreRetry
  /-- MODULE_SLOT_TICK (R26). -/
  | moduleSlotTick (amps : List (BitVec 11))
  /-- TENANCY_SLOT_TICK (R30). -/
  | tenancySlotTick (t : Fin 16) (aligned : Bool) (trims : List Trim)
  /-- FRAME_TICK (R36). -/
  | frameTick (t : Fin 16) (aligned : Bool) (trims : List Trim)
  /-- OP0_ALIGN_START (R48). -/
  | op0AlignStart (t : Fin 16)
  /-- IDLE_RING_SAMPLE (R428). -/
  | idleRingSample (k : Fin 17)
  /-- PORT_RING_SAMPLE (R428). -/
  | portRingSample (p : Fin 4) (prod : BitVec 64) (cplCons : BitVec 64) (records : List (BitVec 512 × Bool))
  /-- TENANCY_CREATE (R424). -/
  | tenancyCreate (src : CmdSrc) (seq : BitVec 64) (ten : Fin 16) (flags : BitVec 8) (ops : BitVec 384)
  /-- TENANCY_RESHAPE (R425). -/
  | tenancyReshape (src : CmdSrc) (seq : BitVec 64) (ten : Fin 16) (flags : BitVec 8) (ops : BitVec 384)
  /-- TENANCY_RELEASE (R425). -/
  | tenancyRelease (src : CmdSrc) (seq : BitVec 64) (ten : Fin 16) (flags : BitVec 8) (ops : BitVec 384)
  /-- ZERO_FILL_DONE (R292). -/
  | zeroFillDone (i : Fin 16)
  /-- ISLAND_ZEROED (R426). -/
  | islandZeroed (i : Fin 16)
  /-- LOAD_IMAGE (R57). -/
  | loadImage (src : CmdSrc) (seq : BitVec 64) (ten : Fin 16) (flags : BitVec 8) (ops : BitVec 384) (image : List Byte) (ok : Bool)
  /-- START (R407). -/
  | start (src : CmdSrc) (seq : BitVec 64) (ten : Fin 16) (flags : BitVec 8) (ops : BitVec 384)
  /-- WEIGHT_DIGEST_DONE (R407). -/
  | weightDigestDone (t : Fin 16)
  /-- HALT (R35). -/
  | halt (src : CmdSrc) (seq : BitVec 64) (ten : Fin 16) (flags : BitVec 8) (ops : BitVec 384)
  /-- CHECKPOINT (R397). -/
  | checkpoint (src : CmdSrc) (seq : BitVec 64) (ten : Fin 16) (flags : BitVec 8) (ops : BitVec 384)
  /-- CAPTURE_END (R398). -/
  | captureEnd (t : Fin 16)
  /-- RESTORE (R403). -/
  | restore (src : CmdSrc) (seq : BitVec 64) (ten : Fin 16) (flags : BitVec 8) (ops : BitVec 384)
  /-- SET_OP (R46). -/
  | setOp (src : CmdSrc) (seq : BitVec 64) (ten : Fin 16) (flags : BitVec 8) (ops : BitVec 384)
  /-- QUERY (R432). -/
  | query (src : CmdSrc) (seq : BitVec 64) (ten : Fin 16) (flags : BitVec 8) (ops : BitVec 384)
  /-- RETIRE_PAGE (R300). -/
  | retirePage (src : CmdSrc) (seq : BitVec 64) (ten : Fin 16) (flags : BitVec 8) (ops : BitVec 384)
  /-- RETIRE_BANK (R300). -/
  | retireBank (src : CmdSrc) (seq : BitVec 64) (ten : Fin 16) (flags : BitVec 8) (ops : BitVec 384)
  /-- ATOMIC_STATUS (R365). -/
  | atomicStatus (src : CmdSrc) (seq : BitVec 64) (ten : Fin 16) (flags : BitVec 8) (ops : BitVec 384)
  /-- ATTEST (R526). -/
  | attest (src : CmdSrc) (seq : BitVec 64) (ten : Fin 16) (flags : BitVec 8) (ops : BitVec 384)
  /-- STAGE_UPDATE (R529). -/
  | stageUpdate (src : CmdSrc) (seq : BitVec 64) (ten : Fin 16) (flags : BitVec 8) (ops : BitVec 384)
  /-- STAGING_DONE (R529). -/
  | stagingDone (pkg : List Byte)
  /-- ACTIVATE (R531). -/
  | activate (src : CmdSrc) (seq : BitVec 64) (ten : Fin 16) (flags : BitVec 8) (ops : BitVec 384)
  /-- UPDATE_SWITCH_BEGIN (R532). -/
  | updateSwitchBegin
  /-- UPDATE_SWITCHOVER (R532). -/
  | updateSwitchover (good : Bool)
  /-- UPDATE_COMMIT (R532). -/
  | updateCommit (good : Bool) (cut : Fin 3)
  /-- UPDATE_RESUME (R532). -/
  | updateResume
  /-- LOCK_UPDATES (R534). -/
  | lockUpdates (src : CmdSrc) (seq : BitVec 64) (ten : Fin 16) (flags : BitVec 8) (ops : BitVec 384)
  /-- PLDM_PACKAGE (R525). -/
  | pldmPackage (pkg : List Byte)
  /-- PORT_RESET (R416). -/
  | portReset (p : Fin 4) (kind : PortRst)
  /-- PERST_RELEASE (R413). -/
  | perstRelease (p : Fin 4) (speed : Fin 8) (width : BitVec 4) (flit : Bool) (clkmode : Fin 4)
  /-- BAR2_READ (R418). -/
  | bar2Read (p : Fin 4) (x : BitVec 64) (len : Fin 4097) (req : BitVec 32)
  /-- BAR2_WRITE (R419). -/
  | bar2Write (p : Fin 4) (x : BitVec 64) (data : BitVec 1024) (mask : BitVec 128) (poison : Bool)
  /-- SUPPLY_SAMPLE (R470). -/
  | supplySample (bus : BitVec 16)
  /-- LOW_SUPPLY_END (R470). -/
  | lowSupplyEnd
  /-- SUPPLY_UNDER (R470). -/
  | supplyUnder
  /-- OVERVOLTAGE_STOP (R470). -/
  | overvoltageStop
  /-- PWR_MARGIN_CHANGE (R470). -/
  | pwrMarginChange (asserted : Bool)
  /-- CONVERTER_FAULT (R469). -/
  | converterFault (n : Fin 16)
  /-- ENTER_STILL (R472). -/
  | enterStill
  /-- STILL_REACHED (R472). -/
  | stillReached
  /-- WAKE (R473). -/
  | wake
  /-- WAKE_END (R474). -/
  | wakeEnd (failed : BitVec 16)
  /-- SHUTDOWN (R475). -/
  | shutdown
  /-- REFCLK_LOST (R440). -/
  | refclkLost
  /-- REFCLK_RELOCK (R440). -/
  | refclkRelock
  /-- CALREF_LOST (R441). -/
  | calrefLost
  /-- ISLAND_CLOCK_LOSS (R451). -/
  | islandClockLoss (i : Fin 16)
  /-- QUEUE_DRIFT (R445). -/
  | queueDrift (i r : Fin 16) (drift : BitVec 8)
  /-- MARGIN_LOW (R447). -/
  | marginLow (i r : Fin 16) (margin : BitVec 8)
  /-- ISLAND_REJOIN (R453). -/
  | islandRejoin (i : Fin 16) (failed : Fin 6)
  /-- REJOIN_RETRY (R513). -/
  | rejoinRetry (i : Fin 16)
  /-- SENSOR_SAMPLE (R477). -/
  | sensorSample (i : Fin 16) (readings : List (BitVec 16)) (shoalW : BitVec 16) (rise : BitVec 8)
  /-- FAST_SAMPLING_OFF (R477). -/
  | fastSamplingOff (i : Fin 16)
  /-- THERM_TRIP (R480). -/
  | thermTrip (i sensor : Fin 16) (temp : BitVec 16)
  /-- THERMAL_REJOIN_READY (R481). -/
  | thermalRejoinReady (i : Fin 16)
  /-- SENSOR_DISTRUST (R488). -/
  | sensorDistrust (i : Fin 16) (sensor : Fin 4)
  /-- ILIM_RISE (R482). -/
  | ilimRise (i : Fin 16)
  /-- CAP_CHECK (R482). -/
  | capCheck (power : BitVec 32)
  /-- HBM_TEMP_SAMPLE (R278). -/
  | hbmTempSample (i : Fin 16) (n : Fin 8) (deg : BitVec 8)
  /-- KEEPER_HASH_EXCHANGE (R509). -/
  | keeperHashExchange (a b c : BitVec 384)
  /-- KEEPER_CRC_CHECK (R509). -/
  | keeperCrcCheck (k : Fin 3) (ok : Bool)
  /-- KEEPER_WITHDRAW (R510). -/
  | keeperWithdraw (k : Fin 3) (cause : Fin 5) (outvotes : BitVec 32)
  /-- KEEPER_DISAGREE (R511). -/
  | keeperDisagree
  /-- LANE_FAIL (R500). -/
  | laneFail (b sender : Fin 16) (plane : Fin 68) (lane : Fin 16)
  /-- MZ_ELEMENT_FAIL (R503). -/
  | mzElementFail (phys : Fin 72)
  /-- COMB_LINE_FAIL (R505). -/
  | combLineFail (i : Fin 16) (chip : Fin 10) (lanes : List (Fin 64 × Fin 16))
  /-- BOND_COPY_DROP (R496). -/
  | bondCopyDrop (i : Fin 16) (kind : Fin 3) (pair : BitVec 16)
  /-- RING_SWEEP (R506). -/
  | ringSweep (b : Fin 16) (plane : Fin 68) (lane : Fin 16) (ok : Bool)
  /-- FERRY_WINDOW (R251). -/
  | ferryWindow
  /-- FERRY_ARBITRATION (R257). -/
  | ferryArbitration (p : Fin 4) (noise : List (Fin 16 × BitVec 544 × BitVec 544))
  /-- GRANT_FRAME_RX (R253). -/
  | grantFrameRx (b : Fin 16) (p : Fin 4) (noise0 noise1 : BitVec 544)
  /-- FERRY_FLIT_RX (R262). -/
  | ferryFlitRx (p : Fin 4) (d lane : Fin 16) (noise : List (Nat × Byte))
  /-- FERRY_PACKET_DELIVER (R250). -/
  | ferryPacketDeliver (b src : Fin 16) (tile : Bool) (vc : Fin 4)
  /-- SAME_TILE_SERVE (R566). -/
  | sameTileServe (b : Fin 16)
  /-- SEGMENT_RX (R215). -/
  | segmentRx (b : Fin 16) (plane : Fin 64) (lane : Fin 16) (late : Option (Fin 16)) (light : Option (Fin 16)) (noise : List (Nat × Byte))
  /-- REPAIR_NOTICE_POST (R226). -/
  | repairNoticePost (t : Fin 16) (l k u : Nat)
  /-- REPAIR_RESEND (R226). -/
  | repairResend (b : Fin 16)
  /-- ST_TX_BUFFER_FILL (R221). -/
  | stTxBufferFill (t : Fin 16) (l : Nat)
  /-- ST_RECV_COMPLETE (R223). -/
  | stRecvComplete (t : Fin 16) (x : Nat) (rcv : Fin 16)
  /-- ST_SEND_COMPLETE (R224). -/
  | stSendComplete (t : Fin 16) (x : Nat) (snd : Fin 16)
  /-- BOND_FLIT_RX (R185). -/
  | bondFlitRx (i : Fin 16) (g : Fin 3120) (sends : BondSrc) (noise : BitVec 320)
  /-- SHOAL_ECC_WRITEBACK (R189). -/
  | shoalEccWriteback (i : Fin 16) (word : Fin 268435456)
  /-- HBM_READ (R288). -/
  | hbmRead (i : Fin 16) (off : BitVec 48) (req : Fin 10) (e : PageErr)
  /-- HBM_WRITE (R289). -/
  | hbmWrite (i : Fin 16) (off : BitVec 48) (req : Fin 10) (w : HbmWr)
  /-- STACK_RECOVERY (R293). -/
  | stackRecovery (i : Fin 16) (n : Fin 8) (failed : BitVec 32)
  /-- REBUILD_PAGE (R293). -/
  | rebuildPage (i : Fin 16) (n : Fin 8) (e : PageErr)
  /-- SCRUB_PAGE (R297). -/
  | scrubPage (i : Fin 16) (n : Fin 8) (e : PageErr)
  /-- SCRUB_LAP_SLOW (R298). -/
  | scrubLapSlow (i : Fin 16) (n : Fin 8)
  /-- DMA_MOVE (R310). -/
  | dmaMove (ch : Fin 544) (w : BitVec 128) (ok : Bool)
  /-- DMA_GATHER (R310). -/
  | dmaGather (ch : Fin 544) (w : BitVec 128) (ok : Bool)
  /-- DMA_SCATTER (R310). -/
  | dmaScatter (ch : Fin 544) (w : BitVec 128) (ok : Bool)
  /-- DMA_LOOP (R314). -/
  | dmaLoop (ch : Fin 544) (w : BitVec 128) (ok : Bool)
  /-- DMA_ENDLOOP (R314). -/
  | dmaEndloop (ch : Fin 544) (w : BitVec 128) (ok : Bool)
  /-- DMA_WAIT (R315). -/
  | dmaWait (ch : Fin 544) (w : BitVec 128) (ok : Bool)
  /-- DMA_WAIT_SATISFIED (R315). -/
  | dmaWaitSatisfied (ch : Fin 544)
  /-- DMA_SIGNAL (R316). -/
  | dmaSignal (ch : Fin 544) (w : BitVec 128) (ok : Bool)
  /-- DMA_FENCE (R317). -/
  | dmaFence (ch : Fin 544) (w : BitVec 128) (ok : Bool)
  /-- DMA_STOP (R317). -/
  | dmaStop (ch : Fin 544) (w : BitVec 128) (ok : Bool)
  /-- DMA_LINE_RETURN (R312). -/
  | dmaLineReturn (ch : Fin 544) (host : Option HostCpl)
  /-- DMA_WRITE_ACK (R318). -/
  | dmaWriteAck (ch : Fin 544)
  /-- DMA_HALT (R320). -/
  | dmaHalt (ch : Fin 544)
  /-- DMA_CTL_START (R325). -/
  | dmaCtlStart (p : Fin 4) (c : Fin 8)
  /-- DMA_CTL_RESUME (R325). -/
  | dmaCtlResume (p : Fin 4) (c : Fin 8)
  /-- DMA_CTL_ABORT (R325). -/
  | dmaCtlAbort (p : Fin 4) (c : Fin 8)
  /-- KV_DESCRIPTOR_TAKE (R380). -/
  | kvDescriptorTake (i : Fin 16)
  /-- KV_WALK_COMPLETE (R384). -/
  | kvWalkComplete (i : Fin 16)
  /-- LINK_TARGET_WRITE (R342). -/
  | linkTargetWrite (src : RegSrc) (k : Fin 32) (target : BitVec 2)
  /-- LINK_RETRAIN_WRITE (R340). -/
  | linkRetrainWrite (src : RegSrc) (k : Fin 32)
  /-- LINK_RESET (R341). -/
  | linkReset (src : RegSrc) (k : Fin 32)
  /-- LINK_TRAIN_STEP (R339). -/
  | linkTrainStep (k : Fin 32) (i : TrainInfo)
  /-- LINK_TRAIN_TIMEOUT (R339). -/
  | linkTrainTimeout (k : Fin 32)
  /-- LINK_TRAIN_RETRY (R339). -/
  | linkTrainRetry (k : Fin 32)
  /-- LINK_FLIT_TX (R331). -/
  | linkFlitTx (k : Fin 32)
  /-- LINK_FLIT_RX (R336). -/
  | linkFlitRx (k : Fin 32) (pos : Fin 9) (cw : BitVec 5440)
  /-- LINK_NAK_REPEAT (R336). -/
  | linkNakRepeat (k : Fin 32)
  /-- LINK_RX_TIMEOUT (R336). -/
  | linkRxTimeout (k : Fin 32)
  /-- LINK_RETRAIN_TIMEOUT (R340). -/
  | linkRetrainTimeout (k : Fin 32)
  /-- LINK_MAP_SWITCH (R345). -/
  | linkMapSwitch (k : Fin 32) (tx : Bool)
  /-- LINK_RELOCK_TIMEOUT (R344). -/
  | linkRelockTimeout (k : Fin 32) (pos : Fin 9)
  /-- LINK_QUIET_TIMEOUT (R342). -/
  | linkQuietTimeout (k : Fin 32)
  /-- LINK_WAKE (R342). -/
  | linkWake (k : Fin 32) (peer : Bool)
  /-- FABRIC_FORWARD (R357). -/
  | fabricForward (k : Fin 32)
  /-- FABRIC_REQUEST_ARRIVE (R360). -/
  | fabricRequestArrive (k : Fin 32)
  /-- FABRIC_RESPONSE (R364). -/
  | fabricResponse (k : Fin 32)
  /-- FABRIC_RETRY_TIMEOUT (R362). -/
  | fabricRetryTimeout (tag : BitVec 16)
  /-- FABRIC_BUSY_RESEND (R362). -/
  | fabricBusyResend (tag : BitVec 16)
  /-- SOURCE_CONTEXT_FREE (R359). -/
  | sourceContextFree (unit : Fin 17) (node : BitVec 16) (dunit : Fin 17) (vc : Fin 4)
  /-- DEST_CONTEXT_FREE (R359). -/
  | destContextFree (node : BitVec 16) (unit dunit : Fin 17) (vc : Fin 4)
  /-- SEND_WINDOW_RESET (R369). -/
  | sendWindowReset (unit : Fin 17) (node : BitVec 16)
  /-- ATOMIC_UNKNOWN_EXPIRE (R363). -/
  | atomicUnknownExpire (tag : BitVec 16)
  /-- ASTAT_QUERY_SEND (R365). -/
  | astatQuerySend (tag : BitVec 16)
  /-- ASTAT_QUERY_RETRY (R365). -/
  | astatQueryRetry (tag : BitVec 16)
  /-- STALL_LONG (R540). -/
  | stallLong (isl : Fin 17) (src : BitVec 16) (resource : Fin 9)
  /-- INPUT_DIGEST_DONE (R410). -/
  | inputDigestDone (t : Fin 16)
  /-- UNDERVOLTAGE_STOP (R470). -/
  | undervoltageStop
  /-- STOPPING_RAILS_FALL (R475). -/
  | stoppingRailsFall
  /-- LINK_LASER_LOW (R344). -/
  | linkLaserLow (k : Fin 32) (lane : Fin 8)
  deriving DecidableEq, Repr

end Sys2Proof
end

