-- ==== Sys2Proof/WellFormed.lean ====
section
/-!
DEFINITION. Operands whose range their type does not carry: which commands are well formed.
-/
namespace Sys2Proof

/-- Bytes of a codeword of 128 that noise may change. -/
def noiseOk (codewords : Nat) (l : List (Nat × Byte)) : Bool := l.all (fun e => decide (e.1 < 128 * codewords))

/-- A start-up has readings of 16 islands, 32 sensor places each (R442, R477). -/
def StartPlan.wf (p : StartPlan) : Bool := decide (p.raw.length ≤ 16) && p.raw.all (fun l => decide (l.length ≤ 32))

/-- The numbers and lists of a command lie in the ranges that the manual gives them: 16 islands (R11), 4,096 ring slots
(R437), 10 lanes of a lost comb line by plane (R505), codewords of a flit (R243) and of a segment (R212), legs and transfers
of a plan (R158, R216), the 6 mesh windows of a slot (R199), lines of a program section (R112), a non-empty read of at most
4 KiB (R418), start-ups as R442 has them, a noise entry for each of 16 frames (R252). Every other operand's type is its range. -/
def Instr.wf : Instr → Bool
  | .moduleSlotTick amps => decide (amps.length ≤ 16)
  | .powerValid p => p.wf
  | .coldReset p => p.wf
  | .warmReset p => p.wf
  | .resetWaitsForStore p => p.wf
  | .ferryArbitration _ noise => decide (noise.length ≤ 16)
  | .portRingSample _ _ _ records => decide (records.length ≤ 4096)
  | .sensorSample _ readings _ _ => decide (readings.length ≤ 32)
  | .combLineFail _ _ lanes => decide (lanes.length ≤ 1024)
  | .ferryFlitRx _ _ _ noise => noiseOk 1 noise
  | .segmentRx _ _ _ _ _ noise => noiseOk 54 noise
  | .repairNoticePost _ l _ u => decide (l < 16384) && decide (u < 1024)
  | .stTxBufferFill _ l => decide (l < 16384)
  | .stRecvComplete _ x _ => decide (x < 4096)
  | .stSendComplete _ x _ => decide (x < 4096)
  | .ifetchLineFill _ line _ => decide (line < 2 ^ 23)
  | .bar2Read _ _ len _ => decide (len ≠ 0)
  | _ => true

end Sys2Proof
end

