-- ==== Sys2Proof/Decode.lean ====
section
/-!
DEFINITION. The host's reading of a table word. No row of spec/opcode_table.json gives bits: the commands are what happens at
the block's pins, registers, wires and rings, and no word spells one.
-/
namespace Sys2Proof

/-- The command a table word spells: none, since no row gives bits. -/
def decodeTableWord (_nbits _w : Nat) : Option Instr := none

end Sys2Proof
end

