-- ==== Sys2Proof/Config.lean ====
section
/-!
DEFINITION. What one module's making fixes, and the values the manual leaves open. An opaque constant has
no value that Lean can see, so a statement that holds holds whatever the value is; the straps are the table of R12 and R454.
-/
namespace Sys2Proof.Config

/-- LH_SERIAL.SERIAL, fixed at assembly test (per module). -/
opaque serial : BitVec 64
/-- Adewick's PCI-SIG vendor ID (R414), a number the manual does not print. -/
opaque vendorId : BitVec 16
/-- LH_CAP.HBM_EXT, per module: all stacks qualified for the extended bin. -/
opaque hbmExtBit : BitVec 1
/-- HBM_EXT as a number. -/
def hbmExt : Nat := hbmExtBit.toNat

/-- The rotation of each island's dies (R12, R454). -/
def rotTable : List Nat := [0, 0, 1, 1, 0, 0, 1, 1, 3, 3, 2, 2, 3, 3, 2, 2]
/-- The identity straps that the base drives to the dies of island `i` (R454): POS, ROT and MIRROR as built, every pair of bonds
agreeing. A module whose straps read otherwise says so at power-up (StartPlan.straps). -/
def strapCdPos (i : Nat) : Nat := i % 16
def strapCdRot (i : Nat) : Nat := rotTable.getD i 0
def strapCdMirror (_ : Nat) : Nat := 0
def strapCdOk (_ : Nat) : Nat := 1
def strapShPos (i : Nat) : Nat := i % 16
def strapShRot (i : Nat) : Nat := rotTable.getD i 0
def strapShMirror (_ : Nat) : Nat := 0
def strapShOk (_ : Nat) : Nat := 1

/-- A free value: the `n`th open choice of a run. -/
opaque freeValue : Nat → BitVec 64

/-- Which float, of those within the bound of R98, the toolchain's reference model returns for
special function `fn` on the FP32 input `x` (R99 gives the model no place in the manual). -/
opaque sfuPick : Nat → BitVec 32 → Nat

/-- What a read of a word with three or more flipped bits gives (R296), of its data and check pattern: remainder 0 by 4 uncorrectable,
1 poisoned, 2 corrected to the value of the quotient, 3 good. -/
opaque flipOutcome : Nat → Nat → Nat

/-- The place of a stack address in its channel (PCH, BANK, ROW, COLUMN): the map of R275 is not published. -/
opaque xlate : Nat → BitVec 31

/-- Factory coefficients k1 to k3 of an island's shoal estimator (R487), in 2^-16; k2 and k3 in 0.1 K. -/
opaque estCoeff : Nat → Nat → Int
/-- The centre of the eye of a bond group, in taps of its delay line, that a training of its island finds (R446). -/
opaque delayTap : Nat → Nat → BitVec 6

/-- The line of a full set of an instruction cache that gives way (R113 names none): applied to the set and a counter. -/
opaque icacheVictim : Nat → Nat → Nat

/-- What ring lock finds (R456, R457, R486), by base tile: the coefficient of row and column of a heater neighbourhood's matrix, in Q1.15; the
phase power that a ring's code stands for when it has been trimmed by so many steps; a ring's coefficient g per ampere; the top of a
heater's range, in the same units. -/
opaque crosstalk : Nat → Nat → Nat → BitVec 16
opaque ringPower : Nat → Nat → Int → Int
opaque ringCoeff : Nat → Nat → Int
opaque heaterTop : Nat → Nat → Int

/-- SHA-384 hashes of the vendor root keys 0 to 3 in mask ROM (R521), as little-endian numbers of their bytes. -/
opaque rootHash : Nat → BitVec 384
/-- The key a certificate certifies, when it verifies under the issuer's key (R523, R525). -/
opaque certKey : List Byte → BitVec 776 → Option (BitVec 776)
/-- Whether a signature verifies under a key over the SHA-384 digest of the signed bytes (R516). -/
opaque verify : BitVec 776 → BitVec 384 → BitVec 768 → Bool
/-- Whether the test root vouches for unsigned test firmware with this digest (R517). -/
opaque testFirmware : BitVec 384 → Bool
/-- The module's signature with the attestation key of a manifest digest over a report digest (R518, R527). -/
opaque attestSign : BitVec 384 → BitVec 384 → BitVec 768
/-- The attestation certificate for a manifest digest, and the identity certificate (R518). -/
opaque attestCert : BitVec 384 → List Byte
opaque identityCert : List Byte

/-- For a checkpoint that another module took, and whose named bytes do not tell: whether a bank was open, and the rows then cleared
(R87, R401). -/
opaque bankOpen : Nat → Nat → Option (BitVec 128)

end Sys2Proof.Config
end

