-- ==== Sys2Proof/Machine/Bits.lean ====
section
/-!
DEFINITION. Bit fields, sign extension and byte order (R2, R3).
-/
namespace Sys2Proof.Machine

/-- Bits [lo + w - 1 : lo] of a number. -/
def bits (x lo w : Nat) : Nat := x / 2 ^ lo % 2 ^ w

/-- Bit `i` of a number. -/
def bitOf (x i : Nat) : Bool := x / 2 ^ i % 2 == 1

/-- A number with bits [lo + w - 1 : lo] replaced by `v` mod 2^w. -/
def putBits (x lo w v : Nat) : Nat :=
  x % 2 ^ lo + (v % 2 ^ w) * 2 ^ lo + x / 2 ^ (lo + w) * 2 ^ (lo + w)

/-- The `w`-bit number `x` read as two's complement. -/
def sext (w x : Nat) : Int := if x % 2 ^ w < 2 ^ (w - 1) then (x % 2 ^ w : Nat) else ((x % 2 ^ w : Nat) : Int) - (2 ^ w : Nat)

/-- The `w`-bit two's complement pattern of an integer. -/
def wrap (w : Nat) (x : Int) : Nat := (x % (2 ^ w : Nat)).toNat

/-- Little-endian: byte 0 holds bits [7:0] (R3). -/
def leNat : List Byte → Nat
  | [] => 0
  | b :: r => b.toNat + 256 * leNat r

/-- The `n` little-endian bytes of a number (R3). -/
def leBytes : Nat → Nat → List Byte
  | 0, _ => []
  | n + 1, x => BitVec.ofNat 8 x :: leBytes n (x / 256)

/-- The number of bytes `n` at offset `o` of a byte list, little-endian; missing bytes read as zero. -/
def fieldAt (bs : List Byte) (o n : Nat) : Nat := leNat ((bs.drop o).take n)

/-- Number of set bits below `n`. -/
def popc : Nat → Nat → Nat
  | 0, _ => 0
  | n + 1, x => x % 2 + popc n (x / 2)

/-- The set bits of `x` below `n`, ascending. -/
def bitList (n x : Nat) : List Nat := (List.range n).filter (bitOf x)

/-- The number with exactly the listed bits set. -/
def ofBitList (l : List Nat) : Nat := l.foldl (fun a i => a ||| 2 ^ i) 0


/-- `x` with the bits that are set in `m` cleared. -/
def clearBits (x m : Nat) : Nat := x - (x &&& m)

/-- Reverses the low `n` bits. -/
def revBits : Nat → Nat → Nat
  | 0, _ => 0
  | n + 1, x => (x % 2) * 2 ^ n + revBits n (x / 2)

/-- Ascending sorted insertion without repeats. -/
def insertNat (x : Nat) : List Nat → List Nat
  | [] => [x]
  | y :: r => if x = y then y :: r else if x < y then x :: y :: r else y :: insertNat x r

/-- floor(sqrt x) for x < 4^n, bit by bit. -/
def isqrtGo : Nat → Nat → Nat → Nat
  | 0, _, r => r
  | n + 1, x, r => let c := r + 2 ^ n; isqrtGo n x (if c * c ≤ x then c else r)

def isqrt (x : Nat) : Nat := isqrtGo (x.log2 / 2 + 1) x 0

end Sys2Proof.Machine
end

