-- ==== Sys2Proof/Machine/Float.lean ====
section
/-!
DEFINITION. IEEE 754-2019 arithmetic with the choices of R94 (R92 to R95), and the special functions of R98 to R100.
A value is decoded to sign, integer significand and power of two; every operation forms its exact result and rounds
once. Flags are numbers: bit 0 INEXACT, bit 1 UNDERFLOW, bit 2 OVERFLOW, bit 3 DIVZERO, bit 4 INVALID (R95).
-/
namespace Sys2Proof.Machine

/-- A binary interchange format: exponent and fraction bits. -/
structure FFmt where
  eb : Nat
  fb : Nat
  deriving DecidableEq, Repr

def fp16 : FFmt := ⟨5, 10⟩
def bf16 : FFmt := ⟨8, 7⟩
def fp32 : FFmt := ⟨8, 23⟩
def fp64 : FFmt := ⟨11, 52⟩

def FFmt.bias (f : FFmt) : Int := 2 ^ (f.eb - 1) - 1
/-- Exponent of the last place of a subnormal. -/
def FFmt.ulpMin (f : FFmt) : Int := 1 - f.bias - f.fb
def FFmt.infBits (f : FFmt) : Nat := (2 ^ f.eb - 1) * 2 ^ f.fb
def FFmt.signBit (f : FFmt) : Nat := 2 ^ (f.eb + f.fb)
/-- The canonical quiet NaN, sign zero (R94). -/
def FFmt.qnan (f : FFmt) : Nat := f.infBits + 2 ^ (f.fb - 1)

def flNX : Nat := 1
def flUF : Nat := 2
def flOF : Nat := 4
def flDZ : Nat := 8
def flNV : Nat := 16

/-- The rounding modes, encoded as MODES.VEC_RND (R93). -/
inductive Rm where
  | rne | rtz | rup | rdn
  deriving DecidableEq, Repr

def Rm.ofCode (n : Nat) : Rm :=
  if n % 4 = 0 then .rne else if n % 4 = 1 then .rtz else if n % 4 = 2 then .rup else .rdn

/-- A decoded operand; `fin s m e` is (-1)^s * m * 2^e. -/
inductive FV where
  | nan (signalling : Bool)
  | inf (s : Bool)
  | fin (s : Bool) (m : Nat) (e : Int)
  deriving DecidableEq, Repr

def decodeF (f : FFmt) (x : Nat) : FV :=
  let s := bitOf x (f.eb + f.fb)
  let ex := bits x f.fb f.eb
  let fr := bits x 0 f.fb
  if ex = 2 ^ f.eb - 1 then (if fr = 0 then .inf s else .nan (!bitOf fr (f.fb - 1)))
  else if ex = 0 then .fin s fr f.ulpMin
  else .fin s (fr + 2 ^ f.fb) (ex - f.bias - f.fb)

/-- `m * 2^e` in units of `2^u`: quotient, remainder and the bits of the remainder. -/
def inUnits (m : Nat) (e u : Int) : Nat × Nat × Nat :=
  if u ≤ e then (m * 2 ^ (e - u).toNat, 0, 0)
  else let d := (u - e).toNat; (m / 2 ^ d, m % 2 ^ d, d)

/-- Whether a magnitude with quotient `q` and remainder `r` of `d` bits rounds away from zero. -/
def roundsUp (rm : Rm) (s : Bool) (q r d : Nat) : Bool :=
  match rm with
  | .rne => 2 * r > 2 ^ d || (2 * r == 2 ^ d && q % 2 == 1 && r != 0)
  | .rtz => false
  | .rup => r != 0 && !s
  | .rdn => r != 0 && s

def withSign (f : FFmt) (s : Bool) (b : Nat) : Nat := if s then b + f.signBit else b

/-- Overflow result of IEEE 754: infinity, or the largest finite value where the mode rounds towards zero. -/
def overflowBits (f : FFmt) (rm : Rm) (s : Bool) : Nat :=
  match rm, s with
  | .rtz, _ => withSign f s (f.infBits - 1)
  | .rup, true => withSign f s (f.infBits - 1)
  | .rdn, false => withSign f s (f.infBits - 1)
  | _, _ => withSign f s f.infBits

/-- One rounding of (-1)^s * m * 2^e, m nonzero; tininess is detected after rounding (R94). -/
def roundF (f : FFmt) (rm : Rm) (s : Bool) (m : Nat) (e : Int) : Nat × Nat :=
  if m = 0 then (withSign f s 0, 0) else
  let top : Int := m.log2 + e
  let u : Int := max (top - f.fb) f.ulpMin
  let (q, r, d) := inUnits m e u
  let sig := if roundsUp rm s q r d then q + 1 else q
  let b := (u - f.ulpMin).toNat * 2 ^ f.fb + sig
  let nx := if r = 0 then 0 else flNX
  if f.infBits ≤ b then (overflowBits f rm s, flOF + flNX)
  else
    let emin := 1 - f.bias
    let tiny : Bool :=
      if emin ≤ top then false
      else if top < emin - 1 then true
      else
        let (q', r', d') := inUnits m e (top - f.fb)
        (if roundsUp rm s q' r' d' then q' + 1 else q') < 2 ^ (f.fb + 1)
    (withSign f s b, nx + (if tiny && nx != 0 then flUF else 0))

/-- The integer `n` times 2^e with the sign of an exact zero given. -/
def roundInt (f : FFmt) (rm : Rm) (zs : Bool) (n : Int) (e : Int) : Nat × Nat :=
  if n = 0 then (withSign f zs 0, 0) else roundF f rm (n < 0) n.natAbs e

def signedOf (s : Bool) (m : Nat) : Int := if s then -(m : Int) else (m : Int)

def FV.isSnan : FV → Bool
  | .nan sg => sg
  | _ => false
def FV.isNan : FV → Bool
  | .nan _ => true
  | _ => false
def FV.isZero : FV → Bool
  | .fin _ 0 _ => true
  | _ => false
def FV.sign : FV → Bool
  | .nan _ => false
  | .inf s => s
  | .fin s _ _ => s
def FV.neg : FV → FV
  | .nan g => .nan g
  | .inf s => .inf (!s)
  | .fin s m e => .fin (!s) m e

def nanFlags (l : List FV) : Nat := if l.any FV.isSnan then flNV else 0

/-- Sum of two decoded values, one rounding. -/
def addV (f : FFmt) (rm : Rm) (a b : FV) : Nat × Nat :=
  match a, b with
  | .nan g, y => (f.qnan, nanFlags [.nan g, y])
  | x, .nan g => (f.qnan, nanFlags [x, .nan g])
  | .inf s, .inf t => if s = t then (withSign f s f.infBits, 0) else (f.qnan, flNV)
  | .inf s, .fin .. => (withSign f s f.infBits, 0)
  | .fin .., .inf t => (withSign f t f.infBits, 0)
  | .fin s m e, .fin t n k =>
    let u := min e k
    let v := signedOf s m * 2 ^ (e - u).toNat + signedOf t n * 2 ^ (k - u).toNat
    let zs := if m = 0 ∧ n = 0 ∧ s = t then s else rm == .rdn
    roundInt f rm zs v u

/-- Product of two decoded values as a decoded value, and its flags. -/
def mulV (a b : FV) : FV × Nat :=
  match a, b with
  | .nan g, y => (.nan false, nanFlags [.nan g, y])
  | x, .nan g => (.nan false, nanFlags [x, .nan g])
  | .inf s, .inf t => (.inf (s != t), 0)
  | .inf s, .fin t n _ => if n = 0 then (.nan false, flNV) else (.inf (s != t), 0)
  | .fin s m _, .inf t => if m = 0 then (.nan false, flNV) else (.inf (s != t), 0)
  | .fin s m e, .fin t n k => (.fin (s != t) (m * n) (e + k), 0)

def encodeV (f : FFmt) (rm : Rm) : FV → Nat × Nat
  | .nan _ => (f.qnan, 0)
  | .inf s => (withSign f s f.infBits, 0)
  | .fin s m e => roundF f rm s m e

def fAdd (f : FFmt) (rm : Rm) (x y : Nat) : Nat × Nat := addV f rm (decodeF f x) (decodeF f y)
def fSub (f : FFmt) (rm : Rm) (x y : Nat) : Nat × Nat := addV f rm (decodeF f x) (decodeF f y).neg
def fMul (f : FFmt) (rm : Rm) (x y : Nat) : Nat × Nat :=
  let (p, fl) := mulV (decodeF f x) (decodeF f y)
  let (b, g) := encodeV f rm p
  (b, fl ||| g)

/-- a × b + c with one rounding; ∞ × 0 + qNaN signals invalid (R94). -/
def fmaV (f : FFmt) (rm : Rm) (a b c : FV) : Nat × Nat :=
  let (p, fl) := mulV a b
  if p.isNan || c.isNan then (f.qnan, fl ||| nanFlags [a, b, c])
  else let (r, g) := addV f rm p c; (r, fl ||| g)

def fFma (f : FFmt) (rm : Rm) (x y z : Nat) : Nat × Nat := fmaV f rm (decodeF f x) (decodeF f y) (decodeF f z)
def fFms (f : FFmt) (rm : Rm) (x y z : Nat) : Nat × Nat := fmaV f rm (decodeF f x) (decodeF f y) (decodeF f z).neg
def fFnma (f : FFmt) (rm : Rm) (x y z : Nat) : Nat × Nat := fmaV f rm (decodeF f x).neg (decodeF f y) (decodeF f z)

/-- m·2^e / n·2^k with enough bits to round once: a significand with a sticky low bit. -/
def divSticky (fb m n : Nat) (e k : Int) : Nat × Int :=
  let sh := fb + 4 + n.log2
  let q := m * 2 ^ sh / n
  let r := m * 2 ^ sh % n
  (2 * q + (if r = 0 then 0 else 1), e - k - sh - 1)

def fDiv (f : FFmt) (rm : Rm) (x y : Nat) : Nat × Nat :=
  match decodeF f x, decodeF f y with
  | .nan g, b => (f.qnan, nanFlags [.nan g, b])
  | a, .nan g => (f.qnan, nanFlags [a, .nan g])
  | .inf _, .inf _ => (f.qnan, flNV)
  | .inf s, .fin t _ _ => (withSign f (s != t) f.infBits, 0)
  | .fin s _ _, .inf t => (withSign f (s != t) 0, 0)
  | .fin s m e, .fin t n k =>
    if n = 0 then (if m = 0 then (f.qnan, flNV) else (withSign f (s != t) f.infBits, flDZ))
    else
      let (q, u) := divSticky f.fb m n e k
      roundF f rm (s != t) q u

/-- Square root of m·2^e with a sticky low bit. -/
def sqrtSticky (fb m : Nat) (e : Int) : Nat × Int :=
  let (m, e) := if e % 2 = 0 then (m, e) else (2 * m, e - 1)
  let v := m * 4 ^ (fb + 4)
  let r := isqrt v
  (2 * r + (if r * r = v then 0 else 1), e / 2 - (fb + 4) - 1)

def fSqrt (f : FFmt) (rm : Rm) (x : Nat) : Nat × Nat :=
  match decodeF f x with
  | .nan g => (f.qnan, nanFlags [.nan g])
  | .inf s => if s then (f.qnan, flNV) else (f.infBits, 0)
  | .fin s m e =>
    if m = 0 then (withSign f s 0, 0)
    else if s then (f.qnan, flNV)
    else let (q, u) := sqrtSticky f.fb m e; roundF f rm false q u

/-- Strict order of two non-NaN values, -0 equal to +0. -/
def FV.lt (a b : FV) : Bool :=
  match a, b with
  | .inf s, .inf t => s && !t
  | .inf s, _ => s
  | _, .inf t => !t
  | .fin s m e, .fin t n k =>
    let u := min e k
    decide (signedOf s m * 2 ^ (e - u).toNat < signedOf t n * 2 ^ (k - u).toNat)
  | _, _ => false

def FV.eqv (a b : FV) : Bool := !a.isNan && !b.isNan && !a.lt b && !b.lt a

/-- IEEE 754-2019 minimum: propagates NaN, -0 below +0 (R94). -/
def fMin (f : FFmt) (x y : Nat) : Nat × Nat :=
  let a := decodeF f x
  let b := decodeF f y
  if a.isNan || b.isNan then (f.qnan, nanFlags [a, b])
  else if a.lt b then (x, 0) else if b.lt a then (y, 0)
  else (if a.sign then x else y, 0)
/-- IEEE 754-2019 maximum. -/
def fMax (f : FFmt) (x y : Nat) : Nat × Nat :=
  let a := decodeF f x
  let b := decodeF f y
  if a.isNan || b.isNan then (f.qnan, nanFlags [a, b])
  else if a.lt b then (y, 0) else if b.lt a then (x, 0)
  else (if a.sign then y else x, 0)

def fAbs (f : FFmt) (x : Nat) : Nat := x % f.signBit
def fNeg (f : FFmt) (x : Nat) : Nat := if bitOf x (f.eb + f.fb) then x % f.signBit else x % f.signBit + f.signBit
def fCpys (f : FFmt) (x y : Nat) : Nat := withSign f (bitOf y (f.eb + f.fb)) (x % f.signBit)

def b2n (b : Bool) : Nat := if b then 1 else 0

/-- Quiet equality. -/
def fEq (f : FFmt) (x y : Nat) : Nat × Nat :=
  let a := decodeF f x
  let b := decodeF f y
  (b2n (a.eqv b), nanFlags [a, b])
/-- Signalling less-than and less-or-equal. -/
def fLt (f : FFmt) (x y : Nat) : Nat × Nat :=
  let a := decodeF f x
  let b := decodeF f y
  if a.isNan || b.isNan then (0, flNV) else (b2n (a.lt b), 0)
def fLe (f : FFmt) (x y : Nat) : Nat × Nat :=
  let a := decodeF f x
  let b := decodeF f y
  if a.isNan || b.isNan then (0, flNV) else (b2n (!b.lt a), 0)

/-- The class mask of R138. -/
def fClass (f : FFmt) (x : Nat) : Nat :=
  match decodeF f x with
  | .nan sg => if sg then 256 else 512
  | .inf s => if s then 1 else 128
  | .fin s m _ =>
    if m = 0 then (if s then 8 else 16)
    else if m < 2 ^ f.fb then (if s then 4 else 32)
    else (if s then 2 else 64)

/-- Conversion between formats. -/
def fCvt (f g : FFmt) (rm : Rm) (x : Nat) : Nat × Nat :=
  match decodeF f x with
  | .nan sg => (g.qnan, if sg then flNV else 0)
  | v => encodeV g rm v

/-- Conversion to an integer of `w` bits (R94). -/
def fToInt (f : FFmt) (rm : Rm) (signed : Bool) (w x : Nat) : Nat × Nat :=
  let hi : Int := if signed then 2 ^ (w - 1) - 1 else 2 ^ w - 1
  let lo : Int := if signed then -(2 ^ (w - 1)) else 0
  match decodeF f x with
  | .nan _ => (0, flNV)
  | .inf s => (wrap w (if s then lo else hi), flNV)
  | .fin s m e =>
    let (q, r, d) := inUnits m e 0
    let v := signedOf s (if roundsUp rm s q r d then q + 1 else q)
    if hi < v then (wrap w hi, flNV)
    else if v < lo then (wrap w lo, flNV)
    else (wrap w v, if r = 0 then 0 else flNX)

/-- Conversion from an integer. -/
def fOfInt (f : FFmt) (rm : Rm) (n : Int) : Nat × Nat := roundInt f rm false n 0

/-! ### Special functions (R98 to R100) -/

inductive Sfu where
  | exp2 | log2 | rcp | rsq | sin | cos
  deriving DecidableEq, Repr

def Sfu.code : Sfu → Nat
  | .exp2 => 0 | .log2 => 1 | .rcp => 2 | .rsq => 3 | .sin => 4 | .cos => 5

/-- floor(π/2 · 2^640). -/
def piHalf : Nat := 0x1921fb54442d18469898cc51701b839a252049c1114cf98e804177d4c76273644a29410f31c6809bbdf2a33679a748636605614dbe4be286e9fc26adadaa3848bc90b6aecc4bcfd8de89885d34c6fdad6
/-- floor(ln 2 · 2^320). -/
def ln2Fix : Nat := 0xb17217f7d1cf79abc9e3b39803f2f6af40f343267298b62d8a0d175b8baafa2be7b876206debac98

/-- Σ y^k / k! in fixed point of `p` bits. -/
def expSeries (p y : Nat) : Nat → Nat → Nat → Nat
  | 0, _, _ => 0
  | n + 1, k, t => t + expSeries p y n (k + 1) (t * y / 2 ^ p / (k + 1))

/-- Alternating series Σ (-1)^k t_k, t_{k+1} = t_k r² / ((j + 1)(j + 2)), in fixed point of `p` bits. -/
def trigSeries (p r2 : Nat) : Nat → Nat → Nat → Int
  | 0, _, _ => 0
  | n + 1, j, t => (t : Int) - trigSeries p r2 n (j + 2) (t * r2 / 2 ^ p / ((j + 1) * (j + 2)))

def sinFix (r : Nat) : Nat := (trigSeries 640 (r * r / 2 ^ 640) 90 1 r).toNat
def cosFix (r : Nat) : Nat := (trigSeries 640 (r * r / 2 ^ 640) 90 0 (2 ^ 640)).toNat

/-- `n` binary digits of log2 of y / 2^256, y in [2^256, 2^257). -/
def log2Digits : Nat → Nat → Nat → Nat
  | 0, _, acc => acc
  | n + 1, y, acc =>
    let z := y * y / 2 ^ 256
    if 2 ^ 257 ≤ z then log2Digits n (z / 2) (2 * acc + 1) else log2Digits n z (2 * acc)

/-- A special function's result on a nonzero finite input: sign, significand, exponent, and whether that is exact.
An inexact significand carries a sticky low bit over more places than any format of R98 keeps. -/
def sfuValue (fn : Sfu) (s : Bool) (m : Nat) (e : Int) : Bool × Nat × Int × Bool :=
  match fn with
  | .rcp =>
    let (q, u) := divSticky 60 1 m 0 e
    (s, q, u, m == 2 ^ m.log2)
  | .rsq =>
    let (m, e) := if e % 2 = 0 then (m, e) else (2 * m, e - 1)
    let q := isqrt (4 ^ 96 / m)
    let ex := q * q * m == 4 ^ 96
    (false, 2 * q + (if ex then 0 else 1), -(e / 2) - 97, ex)
  | .exp2 =>
    let (q, r, d) := inUnits m e 0
    if r = 0 then (false, 1, signedOf s (min q 100000), true)
    else
      let n : Int := if s then -((min q 100000 : Nat) : Int) - 1 else (min q 100000 : Nat)
      let fr := (if s then 2 ^ d - r else r) * 2 ^ 320 / 2 ^ d
      let v := expSeries 320 (fr * ln2Fix / 2 ^ 320) 90 0 (2 ^ 320)
      (false, 2 * v + 1, n - 321, false)
  | .log2 =>
    let k : Int := m.log2 + e
    let y := m * 2 ^ (256 - m.log2)
    if m = 2 ^ m.log2 then (decide (k < 0), k.natAbs, 0, true)
    else
      let fr := log2Digits 128 y 0
      if 0 ≤ k then (false, 2 * (k.toNat * 2 ^ 128 + fr) + 1, -129, false)
      else (true, 2 * ((-k).toNat * 2 ^ 128 - fr - 1) + 1, -129, false)
  | .sin | .cos =>
    let x := (inUnits m e (-640)).1
    let q := x / piHalf
    let r := x % piHalf
    let j := if fn = .sin then q % 4 else (q + 1) % 4
    let v := if j % 2 = 0 then sinFix r else cosFix r
    (if fn = .sin then (s != decide (2 ≤ j)) else decide (2 ≤ j), 2 * v + 1, -641, false)

/-- The floats within the bound of R98 around an inexact result that lies above the magnitude `lo`, one of which the
toolchain's reference model returns (R99: `pick`): one ulp for the reciprocals, else two, and never an infinity. -/
def sfuNear (f : FFmt) (fn : Sfu) (lo pick : Nat) : Nat :=
  let far := if (lo + 1) % 2 ^ f.fb = 0 then 3 else 4
  min (if fn == .rcp || fn == .rsq then lo + pick % 2 else lo + pick % far - 1) (f.infBits - 1)

/-- A special function (R98 to R100). FP16 results are correctly rounded, exact cases exact; a result that overflows is
infinite; any other FP32 result is a float within the bound of R98. -/
def sfu (f : FFmt) (fn : Sfu) (x : Nat) : Nat × Nat :=
  match decodeF f x, fn with
  | .nan _, _ => (f.qnan, 0)
  | .inf s, .exp2 => (if s then 0 else f.infBits, 0)
  | .inf s, .log2 => if s then (f.qnan, flNV) else (f.infBits, 0)
  | .inf s, .rcp => (withSign f s 0, 0)
  | .inf s, .rsq => if s then (f.qnan, flNV) else (0, 0)
  | .inf _, .sin => (f.qnan, flNV)
  | .inf _, .cos => (f.qnan, flNV)
  | .fin s m e, fn =>
    let one := roundF f .rne false 1 0
    if m = 0 then
      match fn with
      | .exp2 => one
      | .log2 => (withSign f true f.infBits, flDZ)
      | .rcp => (withSign f s f.infBits, flDZ)
      | .rsq => (withSign f s f.infBits, flDZ)
      | .sin => (x, 0)
      | .cos => one
    else if s && (fn == .log2 || fn == .rsq) then (f.qnan, flNV)
    else
      let (t, v, u, exact) := sfuValue fn s m e
      let (b, fl) := roundF f .rne t v u
      if f == fp16 || (exact && fl &&& flNX == 0) || fl &&& flOF != 0 then (b, fl)
      else
        let mag := sfuNear f fn ((roundF f .rtz t v u).1 % f.signBit) (Config.sfuPick fn.code (BitVec.ofNat 32 x))
        (withSign f t mag, flNX + (if mag < 2 ^ f.fb then flUF else 0))

end Sys2Proof.Machine
end

