-- ==== Sys2Proof/Machine/Matrix.lean ====
section
/-!
DEFINITION. The arithmetic of a matrix array (03_matrix_arrays.md): element formats, the wide accumulator, drain
conversions.
-/
namespace Sys2Proof.Machine

open Sys2Proof

/-! ### Formats (R59, R61, R62) -/

/-- Element format of the low four bits of a code. -/
def fmtCode (c : BitVec 5) : Nat := c.toNat % 16
def fmtMx (c : BitVec 5) : Bool := bitOf c.toNat 4

/-- Bits of an element. -/
def elBits (c : Nat) : Nat := if c = 0 then 4 else if c ≤ 2 then 6 else if c ≤ 5 then 8 else if c = 8 then 32 else 16

/-- Exponent and fraction bits of a floating code. -/
def elFmt (c : Nat) : FFmt :=
  match c with
  | 0 => ⟨2, 1⟩ | 1 => ⟨2, 3⟩ | 2 => ⟨3, 2⟩ | 3 => ⟨4, 3⟩ | 4 => ⟨5, 2⟩ | 6 => bf16 | 7 => fp16 | _ => fp32

/-- emax of R61. -/
def elEmax (c : Nat) : Int := match c with | 0 => 2 | 1 => 2 | 2 => 4 | 3 => 8 | 4 => 15 | 5 => 7 | 6 => 127 | 7 => 15 | _ => 127

/-- Code of the largest finite magnitude. -/
def elMax (c : Nat) : Nat :=
  match c with
  | 0 => 7 | 1 => 31 | 2 => 31 | 3 => 0x7E | _ => (elFmt c).infBits - 1

/-- The value of an element (R61): the small formats have no specials, E4M3 a NaN and no infinity. -/
def elVal (c x : Nat) : FV :=
  if c = 5 then let v := sext 8 x; .fin (v < 0) v.natAbs 0
  else
    let f := elFmt c
    if c ≤ 3 then
      let s := bitOf x (f.eb + f.fb)
      let ex := bits x f.fb f.eb
      let fr := bits x 0 f.fb
      if c = 3 ∧ ex = 15 ∧ fr = 7 then .nan false
      else if ex = 0 then .fin s fr f.ulpMin
      else .fin s (fr + 2 ^ f.fb) (ex - f.bias - f.fb)
    else decodeF f x

/-- A value under an E8M0 scale byte (R62). -/
def scaled (v : FV) (sc : Nat) : FV :=
  if sc = 255 then .nan false
  else match v with
    | .fin s m e => .fin s m (e + sc - 127)
    | v => v

/-- MX is defined for codes 0x0 to 0x4, and an input format is one of codes 0x0 to 0x7 (R61). -/
def inFmtOk (c : BitVec 5) : Bool := if fmtMx c then decide (fmtCode c ≤ 4) else decide (fmtCode c ≤ 7)

/-- Logical K of a dense pair, 0 for a pair not in R59. -/
def pairK (a w : Nat) : Nat :=
  if a ≤ 2 ∧ w ≤ 2 then 256
  else if a = 5 ∧ w = 5 then 128
  else if (a = 6 ∨ a = 7) ∧ (w = 6 ∨ w = 7) then 128
  else if a ≤ 4 ∧ w ≤ 4 then 128
  else 0

/-- Dense logical K of a format's own class. -/
def classK (c : Nat) : Nat := if c ≤ 2 then 256 else 128

/-- A sparse W of BF16 or FP16 does not exist (R60, R65). -/
def sparseOk (w : Nat) : Bool := decide (w ≠ 6) && decide (w ≠ 7)

/-- The logical K of an MA.MAC, 0 where it traps OPERAND. -/
def macK (fa fw : BitVec 5) (sp : Bool) : Nat :=
  if sp then (if sparseOk (fmtCode fw) then 2 * pairK (fmtCode fa) (fmtCode fw) else 0) else pairK (fmtCode fa) (fmtCode fw)

/-! ### Layouts (R63, R65) -/

/-- Stored rows of a W tile. -/
def storedRows (fw : Nat) : Nat := classK fw
/-- Logical depth of a W tile by its own class. -/
def tileK (fw : BitVec 5) (sp : Bool) : Nat := if sp then 2 * storedRows (fmtCode fw) else classK (fmtCode fw)
def tileElBytes (fw : BitVec 5) : Nat := storedRows (fmtCode fw) * 128 * elBits (fmtCode fw) / 8
def tileScBytes (fw : BitVec 5) (sp : Bool) : Nat := if fmtMx fw then tileK fw sp / 32 * 128 else 0
def tileMetaBytes (fw : BitVec 5) (sp : Bool) : Nat := if sp then storedRows (fmtCode fw) / 2 * 128 / 2 else 0
def tileBytes (fw : BitVec 5) (sp : Bool) : Nat := tileElBytes fw + tileScBytes fw sp + tileMetaBytes fw sp

/-- Bytes of an A row of logical depth K. -/
def rowBytes (fa : BitVec 5) (k : Nat) : Nat := k * elBits (fmtCode fa) / 8 + (if fmtMx fa then k / 32 else 0)

/-- Element k of an A row held as the bits of its bytes. -/
def aVal (fa : BitVec 5) (depth row k : Nat) : FV :=
  let w := elBits (fmtCode fa)
  let v := elVal (fmtCode fa) (bits row (k * w) w)
  if fmtMx fa then scaled v (bits row (depth * w + k / 32 * 8) 8) else v

/-- Stored element (r, n) of a tile. -/
def tileEl (fw : BitVec 5) (tile r n : Nat) : Nat := let w := elBits (fmtCode fw); bits tile ((r * 128 + n) * w) w
/-- Scale byte of block b, column n. -/
def tileSc (fw : BitVec 5) (tile b n : Nat) : Nat := if fmtMx fw then bits tile ((tileElBytes fw + b * 128 + n) * 8) 8 else 127
/-- Metadata nibble of group g, column n (R65). -/
def tileNib (fw : BitVec 5) (sp : Bool) (tile g n : Nat) : Nat :=
  bits tile ((tileElBytes fw + tileScBytes fw sp) * 8 + (g * 128 + n) * 4) 4

/-- Value of logical position k, column n, of a tile. -/
def wVal (fw : BitVec 5) (sp : Bool) (tile k n : Nat) : FV :=
  let sc := tileSc fw tile (k / 32) n
  let c := fmtCode fw
  if sp then
    let g := k / 4
    let nib := tileNib fw sp tile g n
    let raw : FV :=
      if nib % 4 = k % 4 then elVal c (tileEl fw tile (2 * g) n)
      else if nib / 4 = k % 4 then elVal c (tileEl fw tile (2 * g + 1) n)
      else .fin false 0 0
    scaled raw sc
  else scaled (elVal c (tileEl fw tile k n)) sc

/-- Every nibble of a sparse tile has idx0 below idx1 (R65). -/
def tileSparseOk (fw : BitVec 5) (tile : Nat) : Bool :=
  (List.range (storedRows (fmtCode fw) / 2)).all (fun g =>
    (List.range 128).all (fun n => let nib := tileNib fw true tile g n; decide (nib % 4 < nib / 4)))

/-- e(x) = floor(log2 |x|) of a nonzero finite value (R64). -/
def expOf : FV → Option Int
  | .fin _ m e => if m = 0 then none else some (m.log2 + e)
  | _ => none

/-- Largest exponent of a list, −2,047 with none (R64, R68). -/
def maxExp (l : List FV) : Int := l.foldl (fun a v => match expOf v with | some e => max a e | none => a) (-2047)

/-- EW of a tile: over its stored elements (R64). -/
def tileEW (fw : BitVec 5) (sp : Bool) (tile : Nat) : Int :=
  (List.range (tileK fw sp)).foldl (fun a k => max a (maxExp ((List.range 128).map (wVal fw sp tile k)))) (-2047)

/-- ea of A rows (R68). -/
def rowsEA (fa : BitVec 5) (depth : Nat) (rows : List Nat) : Int :=
  rows.foldl (fun a r => max a (maxExp ((List.range depth).map (aVal fa depth r)))) (-2047)

/-- The anchor a scan proposes, clamped (R68). -/
def scanAnchor (ea ew : Int) : Int := max (-2047) (min 2047 (ea + ew + 1))
/-- The larger of the present anchor and a proposal; unset counts less than every value. -/
def raiseAnchor (a : Option Int) (v : Int) : Int := match a with | none => v | some x => max x v

/-! ### Accumulation (R71, R72) -/

/-- A product placed in units of 2^lsb: the nearest integer, ties to even, and whether it was rounded. -/
def placed (lsb : Int) (s : Bool) (m : Nat) (e : Int) : Int × Bool :=
  let (q, r, d) := inUnits m e lsb
  (signedOf s (if roundsUp .rne s q r d then q + 1 else q), r != 0)

/-- Adding a special product to a SPEC state: 1 +Inf, 2 −Inf, 3 NaN (R72). -/
def specAdd (st p : Nat) : Nat := if st = 3 ∨ p = 3 then 3 else if st = 0 then p else if p = 0 then st else if st = p then st else 3

/-- What a row of products adds to one element: exact sum, special state, flags. -/
structure RowSum where
  sum : Int := 0
  spec : Nat := 0
  fl : Nat := 0

def rowSumAdd (lsb : Int) (t : RowSum) (a w : FV) : RowSum :=
  match (mulV a w).1 with
  | .nan _ => { t with spec := specAdd t.spec 3, fl := t.fl ||| 4 }
  | .inf s => { t with spec := specAdd t.spec (if s then 2 else 1), fl := t.fl ||| 8 }
  | .fin s m e => let (v, r) := placed lsb s m e; { t with sum := t.sum + v, fl := t.fl ||| (if r then 1 else 0) }

/-- Q plus a row sum, saturating at 128 bits: Q and whether it saturated (R71). -/
def addSat (q : BitVec 128) (v : Int) : BitVec 128 × Bool :=
  let u := q.toInt + v
  if 2 ^ 127 - 1 < u then (BitVec.ofInt 128 (2 ^ 127 - 1), true)
  else if u < -(2 ^ 127) then (BitVec.ofInt 128 (-(2 ^ 127)), true)
  else (BitVec.ofInt 128 u, false)

/-! ### Drain (R77 to R81) -/

/-- Rounding of a drain: to nearest even, or stochastic with the element's random word. -/
inductive DrainRnd where
  | rne
  | stoch (r : Nat)

def DrainRnd.up (d : DrainRnd) (q r n : Nat) : Bool :=
  match d with
  | .rne => roundsUp .rne false q r n
  | .stoch x => r != 0 && decide (x < r * 2 ^ 32 / 2 ^ n)

/-- Magnitude code of m·2^e on the format's grid, with no upper bound. -/
def drainMag (c : Nat) (rnd : DrainRnd) (m : Nat) (e : Int) : Nat :=
  if m = 0 then 0
  else
    let f := elFmt c
    let u : Int := max (m.log2 + e - f.fb) f.ulpMin
    let (q, r, d) := inUnits m e u
    (u - f.ulpMin).toNat * 2 ^ f.fb + (if rnd.up q r d then q + 1 else q)

def elSign (c : Nat) (s : Bool) : Nat := if s then 2 ^ (elBits c - 1) else 0

/-- One finite element in a plain format: its code and the flags (R78, R79). -/
def drainFin (c : Nat) (rnd : DrainRnd) (q : Int) (lsb : Int) : Nat × Nat :=
  let s := decide (q < 0)
  let b := drainMag c rnd q.natAbs lsb
  if elMax c < b then (if c = 3 then (elMax c + elSign c s, 64) else ((elFmt c).infBits + elSign c s, 64))
  else (b + elSign c s, 0)

/-- NaN code of a plain output (R79). -/
def drainNan (c : Nat) : Nat := match c with | 3 => 0x7F | 4 => 0x7F | 6 => 0x7FC0 | 7 => 0x7E00 | _ => 0x7FC00000

/-- One element in a plain format by its state. -/
def drainEl (c : Nat) (rnd : DrainRnd) (spec : Nat) (q lsb : Int) : Nat × Nat :=
  if spec = 3 then (drainNan c, 4)
  else if spec = 0 then drainFin c rnd q lsb
  else if c = 3 then (0x7F, 64)
  else ((elFmt c).infBits + elSign c (spec == 2), 0)

/-- Shared exponent of a block of 32 finite values in units of 2^lsb (R80). -/
def mxShared (c : Nat) (rule1 : Bool) (qs : List Int) (lsb : Int) : Int :=
  let x := qs.foldl (fun a q => max a q.natAbs) 0
  if x = 0 then 0
  else
    let sh : Int := x.log2 + lsb - elEmax c
    let sh := if rule1 ∧ elMax c < drainMag c .rne x (lsb - sh) then sh + 1 else sh
    min (max sh (-127)) 127

/-- One element of an MX block: beyond the largest it saturates. -/
def drainMx (c : Nat) (rnd : DrainRnd) (q : Int) (e : Int) : Nat × Nat :=
  let s := decide (q < 0)
  let b := drainMag c rnd q.natAbs e
  if elMax c < b then (elMax c + elSign c s, 64) else (b + elSign c s, 0)

/-- Output codes of R153. -/
def outFmtOk (c : BitVec 5) : Bool :=
  if fmtMx c then decide (fmtCode c ≤ 4) else fmtCode c == 8 || fmtCode c == 6 || fmtCode c == 7 || fmtCode c == 3 || fmtCode c == 4

/-- Bytes of an output row of 128 elements (R153). -/
def outRowBytes (c : BitVec 5) : Nat := 128 * elBits (fmtCode c) / 8 + (if fmtMx c then 4 else 0)

end Sys2Proof.Machine
end

