-- ==== Sys2Proof/Machine/Codec.lean ====
section
/-!
DEFINITION. The codes of the wires and the memories: cyclic checks (R185, R214, R282), Reed–Solomon codes
(R211, R283, R328), the scrambler and inner code of the links (R329), and SHA-384.
-/
namespace Sys2Proof.Machine

open Sys2Proof

/-! ### Cyclic checks, bit 0 of each byte first (reflected form) -/

/-- One bit of a reflected check register. -/
def crcBit (poly c : Nat) (b : Bool) : Nat :=
  let x := c ^^^ (if b then 1 else 0)
  if x % 2 = 1 then (x / 2) ^^^ poly else x / 2

/-- The `n` low bits of `v` in rising order. -/
def crcBits (poly : Nat) : Nat → Nat → Nat → Nat
  | 0, c, _ => c
  | n + 1, c, v => crcBits poly n (crcBit poly c (v % 2 == 1)) (v / 2)

def crcBytes (poly init : Nat) (bs : List Byte) : Nat := bs.foldl (fun c b => crcBits poly 8 c b.toNat) init

/-- R214: polynomial 0x82F63B78 reflected, no final inversion. -/
def crc32c (init : Nat) (bs : List Byte) : Nat := crcBytes 0x82F63B78 init bs
/-- The line CRC of R282: data bytes, then the module physical address. -/
def lineCrc (bs : List Byte) (a : Nat) : Nat := crcBytes 0xEDB88320 0xFFFFFFFF (bs ++ leBytes 8 a) ^^^ 0xFFFFFFFF
/-- R185: x^16 + x^12 + x^5 + 1, initial value 0xFFFF, the `n` low bits of `v`, bit 0 first. -/
def crc16 (n v : Nat) : Nat := crcBits 0x8408 n 0xFFFF v
/-- The CRC of a bond flit, over its words and beat 4 bits [47:0], bit 0 first (R185). -/
def bondCrc (flit : Nat) : Nat := crc16 304 (flit % 2 ^ 304)

/-! ### Reed–Solomon over GF(2^m) -/

/-- A field: width, and the low part of its polynomial. -/
structure GF where
  m : Nat
  poly : Nat
  deriving DecidableEq, Repr

/-- R211. -/
def gf8 : GF := ⟨8, 0x1D⟩
/-- The field of RS(544,514), Clause 119 of IEEE 802.3: x^10 + x^3 + 1. PRESUMED. -/
def gf10 : GF := ⟨10, 0x009⟩
/-- R283. -/
def gf16 : GF := ⟨16, 0x100B⟩

def GF.double (f : GF) (a : Nat) : Nat :=
  if a * 2 < 2 ^ f.m then a * 2 else (a * 2 - 2 ^ f.m) ^^^ f.poly
def GF.mulGo (f : GF) : Nat → Nat → Nat → Nat → Nat
  | 0, _, _, acc => acc
  | n + 1, a, b, acc => f.mulGo n (f.double a) (b / 2) (if b % 2 = 1 then acc ^^^ a else acc)
def GF.mul (f : GF) (a b : Nat) : Nat := f.mulGo f.m a b 0
/-- a^(2^m − 2) = the inverse: the product of a^(2^k), k = 1 … m − 1. -/
def GF.invGo (f : GF) : Nat → Nat → Nat → Nat
  | 0, _, acc => acc
  | n + 1, sq, acc => let q := f.mul sq sq; f.invGo n q (f.mul acc q)
def GF.inv (f : GF) (a : Nat) : Nat := f.invGo (f.m - 1) a 1
def GF.div (f : GF) (a b : Nat) : Nat := f.mul a (f.inv b)
/-- α^k, α = 2. -/
def GF.alpha (f : GF) : Nat → Nat
  | 0 => 1
  | k + 1 => f.double (f.alpha k)
/-- Value of a polynomial, lowest coefficient first. -/
def GF.eval (f : GF) (p : List Nat) (x : Nat) : Nat := p.foldr (fun c a => c ^^^ f.mul a x) 0
/-- Value of a polynomial, highest coefficient first. -/
def GF.horner (f : GF) (p : List Nat) (x : Nat) : Nat := p.foldl (fun a c => f.mul a x ^^^ c) 0
def polyAdd : List Nat → List Nat → List Nat
  | [], q => q
  | p, [] => p
  | a :: p, b :: q => (a ^^^ b) :: polyAdd p q
def GF.scale (f : GF) (c : Nat) (p : List Nat) : List Nat := p.map (f.mul c)
def GF.polyMul (f : GF) : List Nat → List Nat → List Nat
  | [], _ => []
  | a :: p, q => polyAdd (f.scale a q) (0 :: f.polyMul p q)

/-- Generator (x − α^0)…(x − α^(n−1)), highest coefficient first (monic). -/
def GF.gen (f : GF) : Nat → List Nat
  | 0 => [1]
  | n + 1 => let g := f.gen n; polyAdd (g ++ [0]) (0 :: f.scale (f.alpha n) g)

/-- One division step of the systematic encoder: the remainder register shifts in a data symbol. -/
def GF.encStep (f : GF) (g rem : List Nat) (d : Nat) : List Nat :=
  match rem with
  | [] => []
  | r :: rs => polyAdd (rs ++ [0]) (f.scale (r ^^^ d) g)

/-- Parity symbols of data symbols, both highest power first (R211, R283, R328). -/
def GF.parity (f : GF) (n : Nat) (data : List Nat) : List Nat :=
  data.foldl (f.encStep (f.gen n).tail) (List.replicate n 0)

/-- A codeword: data, then parity. -/
def GF.encode (f : GF) (n : Nat) (data : List Nat) : List Nat := data ++ f.parity n data

def GF.syndromes (f : GF) (n : Nat) (r : List Nat) : List Nat := (List.range n).map (fun i => f.horner r (f.alpha i))

/-- Berlekamp–Massey state: locator, previous locator, its discrepancy, length, gap. -/
structure BM where
  c : List Nat
  b : List Nat
  d : Nat
  l : Nat
  m : Nat

/-- Step n of the iteration that starts with `e` erasures. -/
def GF.bmStep (f : GF) (syn : List Nat) (e n : Nat) (x : BM) : BM :=
  let disc := (List.range (x.l + 1)).foldl (fun a i => a ^^^ f.mul (x.c.getD i 0) (syn.getD (n - i) 0)) 0
  if disc = 0 then { x with m := x.m + 1 }
  else
    let t := polyAdd x.c (List.replicate x.m 0 ++ f.scale (f.div disc x.d) x.b)
    if 2 * x.l ≤ n + e then { c := t, b := x.c, d := disc, l := n + 1 + e - x.l, m := 1 }
    else { x with c := t, m := x.m + 1 }

/-- The polynomial whose roots are the inverses of the given locators. -/
def GF.rootsPoly (f : GF) (locs : List Nat) : List Nat := locs.foldl (fun p x => f.polyMul [1, x] p) [1]

/-- The locator of errors and erasures, and their number; `locs`: the erasures' locators. -/
def GF.locator (f : GF) (syn locs : List Nat) : BM :=
  let g := f.rootsPoly locs
  (List.range (syn.length - locs.length)).foldl (fun x n => f.bmStep syn locs.length (locs.length + n) x)
    { c := g, b := g, d := 1, l := locs.length, m := 1 }

/-- Bounded-distance decoding with `n` parity symbols and the erased positions `er`: succeeds when 2 × errors + erasures ≤ n.
Answers the codeword and the symbols corrected. Position p (highest power first) holds the coefficient of x^(length − 1 − p). -/
def GF.decodeErase (f : GF) (n : Nat) (r er : List Nat) : Option (List Nat × Nat) :=
  let syn := f.syndromes n r
  let len := r.length
  if n < er.length then none
  else if syn.all (· == 0) then some (r, 0)
  else
    let x := f.locator syn (er.map (fun p => f.alpha (len - 1 - p)))
    let omega := (f.polyMul syn x.c).take n
    let deriv := (List.range (x.l)).map (fun i => if i % 2 = 0 then x.c.getD (i + 1) 0 else 0)
    let errs := (List.range len).filterMap (fun p =>
      let loc := f.alpha (len - 1 - p)
      let xi := f.inv loc
      if f.eval (x.c.take (x.l + 1)) xi = 0 then some (p, f.mul loc (f.div (f.eval omega xi) (f.eval deriv xi))) else none)
    if 2 * (x.l - er.length) + er.length ≤ n ∧ errs.length = x.l then
      some ((List.range len).map (fun p => r.getD p 0 ^^^ (((errs.find? (fun e => e.1 == p)).map (·.2)).getD 0)),
        (errs.filter (fun e => e.2 != 0)).length)
    else none
def GF.decode (f : GF) (n : Nat) (r : List Nat) : Option (List Nat × Nat) := f.decodeErase n r []

/-- RS(128,120) of straits and ferry (R211). -/
def rsLane (data : List Byte) : List Byte := (gf8.encode 8 (data.map BitVec.toNat)).map (BitVec.ofNat 8)
/-- Decodes a received lane codeword: the 120 data bytes and the bytes corrected. -/
def rsLaneDecode (cw : List Byte) : Option (List Byte × Nat) :=
  (gf8.decode 8 (cw.map BitVec.toNat)).map (fun r => ((r.1.take 120).map (BitVec.ofNat 8), r.2))

/-- The page code: parity symbols of 2,048 data symbols at `n` parity symbols (R283). -/
def pageParity (n : Nat) (bytes : List Byte) : List Nat :=
  gf16.parity n ((List.range 2048).map (fun s => fieldAt bytes (2 * s) 2))

/-- Errors on the wire: bytes by index, each XORed with a pattern. -/
abbrev Noise := List (Nat × Byte)
def addNoise (ns : Noise) (bs : List Byte) : List Byte :=
  (List.range bs.length).map (fun i => (ns.filter (fun p => p.1 == i)).foldl (fun b p => b ^^^ p.2) (bs.getD i 0))

/-! ### Links: scrambler and inner code (R329) -/

/-- The scrambler x^31 + x^28 + 1: one bit and the next state; the newest bit stands at bit 30. -/
def scramStep (st : Nat) : Bool × Nat :=
  let b := (bitOf st 0) != (bitOf st 3)
  (b, st / 2 + (if b then 2 ^ 30 else 0))
def scramble : Nat → Nat → List Bool → List Bool × Nat
  | 0, st, _ => ([], st)
  | _, st, [] => ([], st)
  | n + 1, st, x :: r => let (b, st') := scramStep st; let (o, e) := scramble n st' r; ((x != b) :: o, e)
/-- The state at a codeword of count 0: 26 ones, a zero, LW. -/
def scramInit (lw : Nat) : Nat := (2 ^ 26 - 1) * 32 + lw % 16

/-- Remainder of d(x)·x^8 modulo x^8 + x^4 + x^3 + x^2 + 1, data bit i the coefficient of x^(127 − i). -/
def innerParity (d : List Bool) : Nat :=
  d.foldl (fun r b => let top := (bitOf r 7) != b; ((r * 2) % 256) ^^^ (if top then 0x1D else 0)) 0
/-- A 128-bit block with its parity, parity bit 7 first. -/
def innerBlock (d : List Bool) : List Bool := d ++ ((List.range 8).map (fun i => bitOf (innerParity d) (7 - i)))

/-! ### SHA-384 (PRESUMED: FIPS 180-4) -/

def shaK0 : List Word :=
  [0x428A2F98D728AE22, 0x7137449123EF65CD, 0xB5C0FBCFEC4D3B2F, 0xE9B5DBA58189DBBC,
   0x3956C25BF348B538, 0x59F111F1B605D019, 0x923F82A4AF194F9B, 0xAB1C5ED5DA6D8118,
   0xD807AA98A3030242, 0x12835B0145706FBE, 0x243185BE4EE4B28C, 0x550C7DC3D5FFB4E2,
   0x72BE5D74F27B896F, 0x80DEB1FE3B1696B1, 0x9BDC06A725C71235, 0xC19BF174CF692694,
   0xE49B69C19EF14AD2, 0xEFBE4786384F25E3, 0x0FC19DC68B8CD5B5, 0x240CA1CC77AC9C65]
def shaK1 : List Word :=
  [0x2DE92C6F592B0275, 0x4A7484AA6EA6E483, 0x5CB0A9DCBD41FBD4, 0x76F988DA831153B5,
   0x983E5152EE66DFAB, 0xA831C66D2DB43210, 0xB00327C898FB213F, 0xBF597FC7BEEF0EE4,
   0xC6E00BF33DA88FC2, 0xD5A79147930AA725, 0x06CA6351E003826F, 0x142929670A0E6E70,
   0x27B70A8546D22FFC, 0x2E1B21385C26C926, 0x4D2C6DFC5AC42AED, 0x53380D139D95B3DF,
   0x650A73548BAF63DE, 0x766A0ABB3C77B2A8, 0x81C2C92E47EDAEE6, 0x92722C851482353B]
def shaK2 : List Word :=
  [0xA2BFE8A14CF10364, 0xA81A664BBC423001, 0xC24B8B70D0F89791, 0xC76C51A30654BE30,
   0xD192E819D6EF5218, 0xD69906245565A910, 0xF40E35855771202A, 0x106AA07032BBD1B8,
   0x19A4C116B8D2D0C8, 0x1E376C085141AB53, 0x2748774CDF8EEB99, 0x34B0BCB5E19B48A8,
   0x391C0CB3C5C95A63, 0x4ED8AA4AE3418ACB, 0x5B9CCA4F7763E373, 0x682E6FF3D6B2B8A3,
   0x748F82EE5DEFB2FC, 0x78A5636F43172F60, 0x84C87814A1F0AB72, 0x8CC702081A6439EC]
def shaK3 : List Word :=
  [0x90BEFFFA23631E28, 0xA4506CEBDE82BDE9, 0xBEF9A3F7B2C67915, 0xC67178F2E372532B,
   0xCA273ECEEA26619C, 0xD186B8C721C0C207, 0xEADA7DD6CDE0EB1E, 0xF57D4F7FEE6ED178,
   0x06F067AA72176FBA, 0x0A637DC5A2C898A6, 0x113F9804BEF90DAE, 0x1B710B35131C471B,
   0x28DB77F523047D84, 0x32CAAB7B40C72493, 0x3C9EBE0A15C9BEBC, 0x431D67C49C100D4C,
   0x4CC5D4BECB3E42B6, 0x597F299CFC657E2A, 0x5FCB6FAB3AD6FAEC, 0x6C44198C4A475817]

def shaK : List Word := shaK0 ++ (shaK1 ++ (shaK2 ++ shaK3))
def shaH : List Word :=
  [0xCBBB9D5DC1059ED8, 0x629A292A367CD507, 0x9159015A3070DD17, 0x152FECD8F70E5939,
   0x67332667FFC00B31, 0x8EB44A8768581511, 0xDB0C2E0D64F98FA7, 0x47B5481DBEFA4FA4]

def rotr (x : Word) (n : Nat) : Word := x.rotateRight n
def shaS0 (x : Word) : Word := rotr x 28 ^^^ rotr x 34 ^^^ rotr x 39
def shaS1 (x : Word) : Word := rotr x 14 ^^^ rotr x 18 ^^^ rotr x 41
def shaG0 (x : Word) : Word := rotr x 1 ^^^ rotr x 8 ^^^ (x >>> 7)
def shaG1 (x : Word) : Word := rotr x 19 ^^^ rotr x 61 ^^^ (x >>> 6)

/-- The next words of the message schedule, newest first. -/
def shaExpand : Nat → List Word → List Word
  | 0, w => w
  | n + 1, w => shaExpand n ((shaG1 (w.getD 1 0) + w.getD 6 0 + shaG0 (w.getD 14 0) + w.getD 15 0) :: w)

def shaRound (h : List Word) (kw : Word × Word) : List Word :=
  match h with
  | [a, b, c, d, e, f, g, h] =>
    let t1 := h + shaS1 e + ((e &&& f) ^^^ (~~~e &&& g)) + kw.1 + kw.2
    let t2 := shaS0 a + ((a &&& b) ^^^ (a &&& c) ^^^ (b &&& c))
    [t1 + t2, a, b, c, d + t1, e, f, g]
  | _ => h

/-- Big-endian words of a block. -/
def shaWords : Nat → List Byte → List Word
  | 0, _ => []
  | n + 1, bs => BitVec.ofNat 64 (leNat (bs.take 8).reverse) :: shaWords n (bs.drop 8)

def shaBlock (h : List Word) (bs : List Byte) : List Word :=
  let w := (shaExpand 64 (shaWords 16 bs).reverse).reverse
  List.zipWith (· + ·) h ((shaK.zip w).foldl shaRound h)

def shaBlocks : Nat → List Word → List Byte → List Word
  | 0, h, _ => h
  | n + 1, h, bs => shaBlocks n (shaBlock h (bs.take 128)) (bs.drop 128)

def shaPad (n : Nat) : List Byte :=
  let z := (239 - n % 128) % 128
  (0x80#8 :: List.replicate z 0) ++ (leBytes 16 (8 * n)).reverse

/-- SHA-384 as 48 bytes in order. -/
def sha384 (bs : List Byte) : List Byte :=
  let m := bs ++ shaPad bs.length
  ((shaBlocks (m.length / 128) shaH m).map (fun w => (leBytes 8 w.toNat).reverse)).flatten.take 48

/-- A digest as a little-endian number of its bytes. -/
def digestBv (bs : List Byte) : BitVec 384 := BitVec.ofNat 384 (leNat (sha384 bs))

end Sys2Proof.Machine
end

