-- ==== Sys2Proof/Machine/Regs.lean ====
section
/-!
DEFINITION. The control registers of the module, field by field, as the register tables of spec/ give them
(R24 the block map; each block's own chapter for its registers): offset, lowest bit, width, access code, reset value.
A register behind a select register (IS_BOND_GROUP, BT_ST_PORT, FY_SRC, LK_LANE, BT_TH_SENSOR, IS_CLK_REGION,
FB_HT_DATA) keeps its copies at shadow offsets above the 64 MiB register space.
-/
namespace Sys2Proof.Machine

/-- The access codes of 00_scope.md. -/
inductive Acc where
  | ro | rw | rw1c | wo | rc | rwl | rws
  deriving DecidableEq, Repr

/-- One field of a control register. -/
structure Fld where
  off : Nat
  lo : Nat
  w : Nat
  acc : Acc
  rst : Nat
  deriving DecidableEq, Repr

/-- The key of a field in the register store. -/
def Fld.key (f : Fld) : Nat := f.off * 64 + f.lo

/-- Page-code usable bytes of an island at the reset level PC2 (R285): stack pages times eight stacks. -/
def usableReset : Nat := 12019498 * 8 * 4096

/-- BT_MC_LAYOUT.META_BASE at the reset layout: 48 GiB less the records, in units of 32 bytes (R286). -/
def metaBaseReset : Nat := (51539607552 - 12019498 * 192) / 32

def LH_ID_PART : Fld := ⟨0x0, 0, 16, .ro, 5714⟩
def LH_ID_FAMILY : Fld := ⟨0x0, 16, 8, .ro, 7⟩
def LH_ID_REV_MINOR : Fld := ⟨0x0, 24, 4, .ro, 0⟩
def LH_ID_REV_MAJOR : Fld := ⟨0x0, 28, 4, .ro, 11⟩
def LH_ID_IMAGE_FMT : Fld := ⟨0x0, 32, 8, .ro, 1⟩
def LH_SERIAL_SERIAL : Fld := ⟨0x8, 0, 64, .ro, Config.serial.toNat⟩
def LH_CAP_ISLANDS_BUILT : Fld := ⟨0x10, 0, 16, .ro, 65535⟩
def LH_CAP_ISLANDS_AVAIL : Fld := ⟨0x10, 16, 16, .ro, 0⟩
def LH_CAP_HBM_EXT : Fld := ⟨0x10, 32, 1, .ro, Config.hbmExt⟩
def LH_CAP_STACK_GIB : Fld := ⟨0x10, 33, 6, .ro, 48⟩
def LH_CAP_PLANES : Fld := ⟨0x10, 39, 8, .ro, 72⟩
def LH_LINKS_LINKS_BUILT : Fld := ⟨0x18, 0, 32, .ro, 4294967295⟩
def LH_LINKS_LINKS_UP : Fld := ⟨0x18, 32, 32, .ro, 0⟩
def LH_SLOT_COUNT_COUNT : Fld := ⟨0x40, 0, 64, .ro, 0⟩
def TN_STEP_STEP (n : Nat) : Fld := ⟨0x300000 + n * 0x10000 + 0x100, 0, 48, .ro, 0⟩
def TN_FRAME_CFG_FRAME_SLOTS (n : Nat) : Fld := ⟨0x300000 + n * 0x10000 + 0x108, 0, 14, .ro, 0⟩
def TN_FRAME_CFG_OVERRUN_ALLOW (n : Nat) : Fld := ⟨0x300000 + n * 0x10000 + 0x108, 16, 7, .ro, 0⟩
def TN_FRAME_CFG_OP_NOW (n : Nat) : Fld := ⟨0x300000 + n * 0x10000 + 0x108, 24, 3, .ro, 0⟩
def TN_FRAME_CFG_OP_REQ (n : Nat) : Fld := ⟨0x300000 + n * 0x10000 + 0x108, 28, 3, .ro, 0⟩
def TN_FRAME_CFG_THROTTLED (n : Nat) : Fld := ⟨0x300000 + n * 0x10000 + 0x108, 31, 1, .ro, 0⟩
def TN_FRAME_CFG_MODES (n : Nat) : Fld := ⟨0x300000 + n * 0x10000 + 0x108, 32, 32, .ro, 0⟩
def TN_FRAME_STAT_LAST_STRETCH (n : Nat) : Fld := ⟨0x300000 + n * 0x10000 + 0x110, 0, 7, .ro, 0⟩
def TN_FRAME_STAT_MAX_STRETCH (n : Nat) : Fld := ⟨0x300000 + n * 0x10000 + 0x110, 8, 7, .rw1c, 0⟩
def TN_FRAME_STAT_STRETCHED_FRAMES (n : Nat) : Fld := ⟨0x300000 + n * 0x10000 + 0x110, 16, 32, .rc, 0⟩
def TN_SLOT_PLAN_SLOT (n : Nat) : Fld := ⟨0x300000 + n * 0x10000 + 0x118, 0, 14, .ro, 0⟩
def TN_SLOT_ELAPSED (n : Nat) : Fld := ⟨0x300000 + n * 0x10000 + 0x118, 16, 14, .ro, 0⟩
def TN_SLOT_FRAME_TICK_AT (n : Nat) : Fld := ⟨0x300000 + n * 0x10000 + 0x118, 32, 32, .ro, 0⟩
def IS_ARITH_FLAGS_FLAGS (i : Nat) : Fld := ⟨0x2000000 + i * 0x100000 + 0x400, 0, 8, .rw1c, 0⟩
def IS_ARITH_ARRAYS_ARRAYS (i : Nat) : Fld := ⟨0x2000000 + i * 0x100000 + 0x408, 0, 64, .rw1c, 0⟩
def IS_ACC_ECC_CORRECTED (i : Nat) : Fld := ⟨0x2000000 + i * 0x100000 + 0x410, 0, 32, .rc, 0⟩
def IS_ACC_ECC_UNCORRECTABLE (i : Nat) : Fld := ⟨0x2000000 + i * 0x100000 + 0x410, 32, 16, .rc, 0⟩
def IS_VEC_FLAGS_FLAGS (i : Nat) : Fld := ⟨0x2000000 + i * 0x100000 + 0x500, 0, 5, .rw1c, 0⟩
def IS_VEC_FLAGS_CORES (i : Nat) : Fld := ⟨0x2000000 + i * 0x100000 + 0x500, 32, 32, .rw1c, 0⟩
def IS_VEC_ECC_CORRECTED (i : Nat) : Fld := ⟨0x2000000 + i * 0x100000 + 0x508, 0, 32, .rc, 0⟩
def IS_VEC_ECC_UNCORRECTABLE (i : Nat) : Fld := ⟨0x2000000 + i * 0x100000 + 0x508, 32, 16, .rc, 0⟩
def IS_SC_STATUS_STATE (i n : Nat) : Fld := ⟨0x2000000 + i * 0x100000 + 0x600 + n * 0x20, 0, 3, .ro, 0⟩
def IS_SC_STATUS_HAS_PROGRAM (i n : Nat) : Fld := ⟨0x2000000 + i * 0x100000 + 0x600 + n * 0x20, 3, 1, .ro, 0⟩
def IS_SC_STATUS_ISSUE_STALLS (i n : Nat) : Fld := ⟨0x2000000 + i * 0x100000 + 0x600 + n * 0x20, 32, 32, .rc, 0⟩
def IS_SC_TRAP_CAUSE (i n : Nat) : Fld := ⟨0x2000000 + i * 0x100000 + 0x608 + n * 0x20, 0, 8, .ro, 0⟩
def IS_SC_TRAP_DEFERRED (i n : Nat) : Fld := ⟨0x2000000 + i * 0x100000 + 0x608 + n * 0x20, 8, 1, .ro, 0⟩
def IS_SC_TRAP_TRAPS (i n : Nat) : Fld := ⟨0x2000000 + i * 0x100000 + 0x608 + n * 0x20, 16, 16, .rc, 0⟩
def IS_SC_TRAP_TPC (i n : Nat) : Fld := ⟨0x2000000 + i * 0x100000 + 0x608 + n * 0x20, 32, 32, .ro, 0⟩
def IS_SC_ICACHE_MISSES (i n : Nat) : Fld := ⟨0x2000000 + i * 0x100000 + 0x610 + n * 0x20, 0, 32, .rc, 0⟩
def IS_SC_ICACHE_CORRECTED (i n : Nat) : Fld := ⟨0x2000000 + i * 0x100000 + 0x610 + n * 0x20, 32, 16, .rc, 0⟩
def IS_SC_ICACHE_REFETCHED (i n : Nat) : Fld := ⟨0x2000000 + i * 0x100000 + 0x610 + n * 0x20, 48, 16, .rc, 0⟩
def IS_SC_ECC_CORRECTED (i n : Nat) : Fld := ⟨0x2000000 + i * 0x100000 + 0x618 + n * 0x20, 0, 32, .rc, 0⟩
def IS_SC_ECC_UNCORRECTABLE (i n : Nat) : Fld := ⟨0x2000000 + i * 0x100000 + 0x618 + n * 0x20, 32, 16, .rc, 0⟩
def IS_SHOAL_ECC_CORRECTED (i : Nat) : Fld := ⟨0x2000000 + i * 0x100000 + 0x800, 0, 32, .rc, 0⟩
def IS_SHOAL_ECC_UNCORRECTABLE (i : Nat) : Fld := ⟨0x2000000 + i * 0x100000 + 0x800, 32, 16, .rc, 0⟩
def IS_SHOAL_ECC_POISON_READS (i : Nat) : Fld := ⟨0x2000000 + i * 0x100000 + 0x800, 48, 16, .rc, 0⟩
def IS_SHOAL_ERRADDR_OFFSET (i : Nat) : Fld := ⟨0x2000000 + i * 0x100000 + 0x808, 0, 31, .ro, 0⟩
def IS_SHOAL_ERRADDR_VALID (i : Nat) : Fld := ⟨0x2000000 + i * 0x100000 + 0x808, 31, 1, .rw1c, 0⟩
def IS_SHOAL_ERRADDR_POISONED (i : Nat) : Fld := ⟨0x2000000 + i * 0x100000 + 0x808, 32, 1, .ro, 0⟩
def IS_BOND_STAT_SPARES_USED (i : Nat) : Fld := ⟨0x2000000 + i * 0x100000 + 0x810, 0, 14, .ro, 0⟩
def IS_BOND_STAT_HALF_GROUPS (i : Nat) : Fld := ⟨0x2000000 + i * 0x100000 + 0x810, 16, 12, .ro, 0⟩
def IS_BOND_STAT_REPLAYS (i : Nat) : Fld := ⟨0x2000000 + i * 0x100000 + 0x810, 32, 32, .rc, 0⟩
def IS_BOND_SEL_GROUP (i : Nat) : Fld := ⟨0x2000000 + i * 0x100000 + 0x818, 0, 12, .rw, 0⟩
def IS_BOND_GROUP_SPARES (i g : Nat) : Fld := ⟨0x10000000 + (i * 4096 + g) * 8, 0, 3, .ro, 0⟩
def IS_BOND_GROUP_HALF (i g : Nat) : Fld := ⟨0x10000000 + (i * 4096 + g) * 8, 3, 1, .ro, 0⟩
def IS_BOND_GROUP_INTERIM (i g : Nat) : Fld := ⟨0x10000000 + (i * 4096 + g) * 8, 4, 1, .ro, 0⟩
def IS_BOND_GROUP_HEALTH (i g : Nat) : Fld := ⟨0x10000000 + (i * 4096 + g) * 8, 16, 6, .ro, 0⟩
def IS_BOND_GROUP_CRC_ERRORS (i g : Nat) : Fld := ⟨0x10000000 + (i * 4096 + g) * 8, 32, 32, .ro, 0⟩
def IS_MESH_STAT_HOLD_CYCLES (i : Nat) : Fld := ⟨0x2000000 + i * 0x100000 + 0x830, 0, 32, .rc, 0⟩
def IS_MESH_STAT_STALL_SLOTS (i : Nat) : Fld := ⟨0x2000000 + i * 0x100000 + 0x830, 32, 16, .rc, 0⟩
def IS_MESH_STAT_SKIPPED (i : Nat) : Fld := ⟨0x2000000 + i * 0x100000 + 0x830, 48, 16, .rc, 0⟩
def BT_SU_STAT_FLAGS (i : Nat) : Fld := ⟨0x1000000 + i * 0x100000 + 0x40000, 0, 5, .rw1c, 0⟩
def BT_SU_STAT_REDUCTIONS (i : Nat) : Fld := ⟨0x1000000 + i * 0x100000 + 0x40000, 16, 16, .rc, 0⟩
def BT_SU_STAT_BUF_PEAK (i : Nat) : Fld := ⟨0x1000000 + i * 0x100000 + 0x40000, 32, 24, .ro, 0⟩
def BT_ST_STAT_REPAIRED (i : Nat) : Fld := ⟨0x1000000 + i * 0x100000 + 0x50000, 0, 32, .rc, 0⟩
def BT_ST_STAT_MISLOCKS (i : Nat) : Fld := ⟨0x1000000 + i * 0x100000 + 0x50000, 32, 16, .rc, 0⟩
def BT_ST_STAT_DARK_RX (i : Nat) : Fld := ⟨0x1000000 + i * 0x100000 + 0x50000, 48, 16, .rc, 0⟩
def BT_ST_STALL_READY_STALLS (i : Nat) : Fld := ⟨0x1000000 + i * 0x100000 + 0x50008, 0, 32, .rc, 0⟩
def BT_ST_STALL_EXT_SLOTS (i : Nat) : Fld := ⟨0x1000000 + i * 0x100000 + 0x50008, 32, 32, .rc, 0⟩
def BT_ST_PORT_SEL_PLANE (i : Nat) : Fld := ⟨0x1000000 + i * 0x100000 + 0x50010, 0, 6, .rw, 0⟩
def BT_ST_PORT_PRESENT (i p : Nat) : Fld := ⟨0x20000000 + (i * 64 + p) * 8, 0, 16, .ro, 65535⟩
def BT_ST_PORT_WIDTH (i p : Nat) : Fld := ⟨0x20000000 + (i * 64 + p) * 8, 16, 5, .ro, 16⟩
def BT_ST_PORT_WITHDRAWN (i p : Nat) : Fld := ⟨0x20000000 + (i * 64 + p) * 8, 21, 1, .ro, 0⟩
def BT_ST_PORT_MISLOCKED (i p : Nat) : Fld := ⟨0x20000000 + (i * 64 + p) * 8, 22, 1, .ro, 0⟩
def BT_ST_PORT_PHYS (i p : Nat) : Fld := ⟨0x20000000 + (i * 64 + p) * 8, 24, 7, .ro, p⟩
def BT_ST_PORT_ON_L16 (i p : Nat) : Fld := ⟨0x20000000 + (i * 64 + p) * 8, 32, 8, .ro, 255⟩
def BT_ST_PORT_ON_L17 (i p : Nat) : Fld := ⟨0x20000000 + (i * 64 + p) * 8, 40, 8, .ro, 255⟩
def BT_ST_PORT_CORRECTED (i p : Nat) : Fld := ⟨0x20000000 + (i * 64 + p) * 8, 48, 16, .rc, 0⟩
def BT_ST_FEC_CORRECTED (i : Nat) : Fld := ⟨0x1000000 + i * 0x100000 + 0x50020, 0, 32, .rc, 0⟩
def BT_ST_FEC_UNCORRECTABLE (i : Nat) : Fld := ⟨0x1000000 + i * 0x100000 + 0x50020, 32, 16, .rc, 0⟩
def BT_ST_FEC_CRC_FAIL (i : Nat) : Fld := ⟨0x1000000 + i * 0x100000 + 0x50020, 48, 16, .rc, 0⟩
def FY_CFG_HOLD (p : Nat) : Fld := ⟨0x700000 + p * 0x10000 + 0x0, 0, 4, .rw, 8⟩
def FY_STAT_GRANTS (p : Nat) : Fld := ⟨0x700000 + p * 0x10000 + 0x8, 0, 32, .rc, 0⟩
def FY_STAT_PARKS (p : Nat) : Fld := ⟨0x700000 + p * 0x10000 + 0x8, 32, 16, .rc, 0⟩
def FY_STAT_PREEMPTS (p : Nat) : Fld := ⟨0x700000 + p * 0x10000 + 0x8, 48, 16, .rc, 0⟩
def FY_PORTS_PRESENT (p : Nat) : Fld := ⟨0x700000 + p * 0x10000 + 0x10, 0, 16, .ro, 0⟩
def FY_PORTS_WITHDRAWN (p : Nat) : Fld := ⟨0x700000 + p * 0x10000 + 0x10, 16, 16, .ro, 0⟩
def FY_SRC_SEL_SOURCE (p : Nat) : Fld := ⟨0x700000 + p * 0x10000 + 0x18, 0, 4, .rw, 0⟩
def FY_SRC_QUEUED (p j : Nat) : Fld := ⟨0x21000000 + (p * 16 + j) * 8, 0, 7, .ro, 0⟩
def FY_SRC_FAIR (p j : Nat) : Fld := ⟨0x21000000 + (p * 16 + j) * 8, 8, 8, .ro, 0⟩
def FY_SRC_ROLLBACKS (p j : Nat) : Fld := ⟨0x21000000 + (p * 16 + j) * 8, 16, 16, .rc, 0⟩
def FY_SRC_FULL (p j : Nat) : Fld := ⟨0x21000000 + (p * 16 + j) * 8, 32, 16, .rc, 0⟩
def FY_SRC_WIDTH (p j : Nat) : Fld := ⟨0x21000000 + (p * 16 + j) * 8, 48, 5, .ro, 16⟩
def FY_WIRE_REQ_ONE (p : Nat) : Fld := ⟨0x700000 + p * 0x10000 + 0x28, 0, 16, .rc, 0⟩
def FY_WIRE_REQ_LOST (p : Nat) : Fld := ⟨0x700000 + p * 0x10000 + 0x28, 16, 16, .rc, 0⟩
def FY_WIRE_GNT_ONE (p : Nat) : Fld := ⟨0x700000 + p * 0x10000 + 0x28, 32, 16, .rc, 0⟩
def FY_WIRE_GNT_LOST (p : Nat) : Fld := ⟨0x700000 + p * 0x10000 + 0x28, 48, 16, .rc, 0⟩
def FY_RX_FLITS_FAILED (p : Nat) : Fld := ⟨0x700000 + p * 0x10000 + 0x30, 0, 32, .rc, 0⟩
def FY_RX_DUP_DISCARD (p : Nat) : Fld := ⟨0x700000 + p * 0x10000 + 0x30, 32, 16, .rc, 0⟩
def FY_RX_SKIPPED (p : Nat) : Fld := ⟨0x700000 + p * 0x10000 + 0x30, 48, 16, .rc, 0⟩
def BT_MC_LAYOUT_STACK_PAGES (i : Nat) : Fld := ⟨0x1000000 + i * 0x100000 + 0x10000, 0, 24, .ro, 12019498⟩
def BT_MC_LAYOUT_REGIONS (i : Nat) : Fld := ⟨0x1000000 + i * 0x100000 + 0x10000, 24, 3, .ro, 1⟩
def BT_MC_LAYOUT_META_BASE (i : Nat) : Fld := ⟨0x1000000 + i * 0x100000 + 0x10000, 32, 31, .ro, metaBaseReset⟩
def BT_MC_REGION_START_GIB (i k : Nat) : Fld := ⟨0x1000000 + i * 0x100000 + 0x10008 + k * 0x8, 0, 9, .ro, 0⟩
def BT_MC_REGION_LEVEL (i k : Nat) : Fld := ⟨0x1000000 + i * 0x100000 + 0x10008 + k * 0x8, 9, 3, .ro, 2⟩
def BT_MC_REGION_VALID (i k : Nat) : Fld := ⟨0x1000000 + i * 0x100000 + 0x10008 + k * 0x8, 12, 1, .ro, (if k = 0 then 1 else 0)⟩
def BT_MC_REGION_DETECT_ONLY (i k : Nat) : Fld := ⟨0x1000000 + i * 0x100000 + 0x10008 + k * 0x8, 13, 1, .ro, 1⟩
def BT_MC_EXTENT_USABLE (i : Nat) : Fld := ⟨0x1000000 + i * 0x100000 + 0x10028, 0, 48, .ro, usableReset⟩
def BT_MC_SCRUB_CFG_SLOW_THRESHOLD (i : Nat) : Fld := ⟨0x1000000 + i * 0x100000 + 0x10030, 0, 32, .rw, 86400⟩
def BT_MC_SCRUB_CFG_ENABLE (i : Nat) : Fld := ⟨0x1000000 + i * 0x100000 + 0x10030, 32, 1, .rw, 1⟩
def BT_MC_ELOG_HEAD (i : Nat) : Fld := ⟨0x1000000 + i * 0x100000 + 0x10038, 0, 10, .ro, 0⟩
def BT_MC_ELOG_TAIL (i : Nat) : Fld := ⟨0x1000000 + i * 0x100000 + 0x10038, 16, 10, .rw, 0⟩
def BT_MC_ELOG_LOST (i : Nat) : Fld := ⟨0x1000000 + i * 0x100000 + 0x10038, 32, 16, .rc, 0⟩
def BT_MC_XLATE_IN_OFFSET (i : Nat) : Fld := ⟨0x1000000 + i * 0x100000 + 0x10040, 0, 48, .rw, 0⟩
def BT_MC_XLATE_IN_META (i : Nat) : Fld := ⟨0x1000000 + i * 0x100000 + 0x10040, 48, 1, .rw, 0⟩
def BT_MC_XLATE_IN_RECORD_BYTE (i : Nat) : Fld := ⟨0x1000000 + i * 0x100000 + 0x10040, 49, 9, .rw, 0⟩
def BT_MC_XLATE_OUT_STACK (i : Nat) : Fld := ⟨0x1000000 + i * 0x100000 + 0x10048, 0, 3, .ro, 0⟩
def BT_MC_XLATE_OUT_CHANNEL (i : Nat) : Fld := ⟨0x1000000 + i * 0x100000 + 0x10048, 3, 5, .ro, 0⟩
def BT_MC_XLATE_OUT_PCH (i : Nat) : Fld := ⟨0x1000000 + i * 0x100000 + 0x10048, 8, 1, .ro, 0⟩
def BT_MC_XLATE_OUT_BANK (i : Nat) : Fld := ⟨0x1000000 + i * 0x100000 + 0x10048, 9, 6, .ro, 0⟩
def BT_MC_XLATE_OUT_ROW (i : Nat) : Fld := ⟨0x1000000 + i * 0x100000 + 0x10048, 15, 18, .ro, 0⟩
def BT_MC_XLATE_OUT_COLUMN (i : Nat) : Fld := ⟨0x1000000 + i * 0x100000 + 0x10048, 33, 6, .ro, 0⟩
def BT_MC_XLATE_OUT_VALID (i : Nat) : Fld := ⟨0x1000000 + i * 0x100000 + 0x10048, 39, 1, .ro, 0⟩
def BT_MC_XLATE_OUT_RETIRED (i : Nat) : Fld := ⟨0x1000000 + i * 0x100000 + 0x10048, 40, 1, .ro, 0⟩
def BT_MC_SELFTEST_DONE (i : Nat) : Fld := ⟨0x1000000 + i * 0x100000 + 0x10050, 0, 8, .ro, 0⟩
def BT_MC_SELFTEST_CHECKERS_OK (i : Nat) : Fld := ⟨0x1000000 + i * 0x100000 + 0x10050, 8, 8, .ro, 0⟩
def BT_MC_SELFTEST_DEFECT_LINES (i : Nat) : Fld := ⟨0x1000000 + i * 0x100000 + 0x10050, 16, 32, .ro, 0⟩
def BT_MC_RETIRED_PAGE_ENTRIES (i : Nat) : Fld := ⟨0x1000000 + i * 0x100000 + 0x10058, 0, 16, .ro, 0⟩
def BT_MC_RETIRED_BANK_ENTRIES (i : Nat) : Fld := ⟨0x1000000 + i * 0x100000 + 0x10058, 16, 8, .ro, 0⟩
def BT_MC_RETIRED_PAGES_OUT (i : Nat) : Fld := ⟨0x1000000 + i * 0x100000 + 0x10058, 32, 32, .ro, 0⟩
def BT_MC_STK_STAT_RATE (i n : Nat) : Fld := ⟨0x1000000 + i * 0x100000 + 0x10100 + n * 0x40, 0, 4, .ro, 8⟩
def BT_MC_STK_STAT_TEMP (i n : Nat) : Fld := ⟨0x1000000 + i * 0x100000 + 0x10100 + n * 0x40, 4, 8, .ro, 0⟩
def BT_MC_STK_STAT_REFRESH_2X (i n : Nat) : Fld := ⟨0x1000000 + i * 0x100000 + 0x10100 + n * 0x40, 12, 1, .ro, 0⟩
def BT_MC_STK_STAT_THROTTLE (i n : Nat) : Fld := ⟨0x1000000 + i * 0x100000 + 0x10100 + n * 0x40, 13, 3, .ro, 0⟩
def BT_MC_STK_STAT_RECOVERY (i n : Nat) : Fld := ⟨0x1000000 + i * 0x100000 + 0x10100 + n * 0x40, 16, 1, .ro, 0⟩
def BT_MC_STK_STAT_REBUILD_PTR (i n : Nat) : Fld := ⟨0x1000000 + i * 0x100000 + 0x10100 + n * 0x40, 32, 24, .ro, 0⟩
def BT_MC_STK_ERASE_CHANNELS (i n : Nat) : Fld := ⟨0x1000000 + i * 0x100000 + 0x10108 + n * 0x40, 0, 32, .rw, 0⟩
def BT_MC_STK_ERASE_FAILED (i n : Nat) : Fld := ⟨0x1000000 + i * 0x100000 + 0x10108 + n * 0x40, 32, 32, .ro, 0⟩
def BT_MC_STK_ECC_CORRECTED (i n : Nat) : Fld := ⟨0x1000000 + i * 0x100000 + 0x10110 + n * 0x40, 0, 16, .rc, 0⟩
def BT_MC_STK_ECC_UNCORRECTABLE (i n : Nat) : Fld := ⟨0x1000000 + i * 0x100000 + 0x10110 + n * 0x40, 16, 16, .rc, 0⟩
def BT_MC_STK_ECC_REFETCH_OK (i n : Nat) : Fld := ⟨0x1000000 + i * 0x100000 + 0x10110 + n * 0x40, 32, 16, .rc, 0⟩
def BT_MC_STK_ECC_POISON_READS (i n : Nat) : Fld := ⟨0x1000000 + i * 0x100000 + 0x10110 + n * 0x40, 48, 16, .rc, 0⟩
def BT_MC_STK_QUEUE_READS (i n : Nat) : Fld := ⟨0x1000000 + i * 0x100000 + 0x10118 + n * 0x40, 0, 10, .ro, 0⟩
def BT_MC_STK_QUEUE_WRITES (i n : Nat) : Fld := ⟨0x1000000 + i * 0x100000 + 0x10118 + n * 0x40, 16, 9, .ro, 0⟩
def BT_MC_STK_QUEUE_STALL_CYCLES (i n : Nat) : Fld := ⟨0x1000000 + i * 0x100000 + 0x10118 + n * 0x40, 32, 32, .rc, 0⟩
def BT_MC_STK_SCRUB_PROGRESS (i n : Nat) : Fld := ⟨0x1000000 + i * 0x100000 + 0x10120 + n * 0x40, 0, 24, .ro, 0⟩
def BT_MC_STK_SCRUB_PARTIAL (i n : Nat) : Fld := ⟨0x1000000 + i * 0x100000 + 0x10120 + n * 0x40, 24, 1, .ro, 0⟩
def BT_MC_STK_SCRUB_LAST_LAP (i n : Nat) : Fld := ⟨0x1000000 + i * 0x100000 + 0x10120 + n * 0x40, 32, 32, .ro, 0⟩
def BT_MC_STK_LAP_ELAPSED (i n : Nat) : Fld := ⟨0x1000000 + i * 0x100000 + 0x10128 + n * 0x40, 0, 32, .ro, 0⟩
def BT_MC_STK_LAP_LAPS (i n : Nat) : Fld := ⟨0x1000000 + i * 0x100000 + 0x10128 + n * 0x40, 32, 32, .ro, 0⟩
def BT_MSC_STAT_HITS (i : Nat) : Fld := ⟨0x1000000 + i * 0x100000 + 0x20000, 0, 32, .rc, 0⟩
def BT_MSC_STAT_MISSES (i : Nat) : Fld := ⟨0x1000000 + i * 0x100000 + 0x20000, 32, 32, .rc, 0⟩
def BT_MSC_ECC_CORRECTED (i : Nat) : Fld := ⟨0x1000000 + i * 0x100000 + 0x20008, 0, 32, .rc, 0⟩
def BT_MSC_ECC_UNCORRECTABLE (i : Nat) : Fld := ⟨0x1000000 + i * 0x100000 + 0x20008, 32, 16, .rc, 0⟩
def BT_MSC_ECC_POISON_READS (i : Nat) : Fld := ⟨0x1000000 + i * 0x100000 + 0x20008, 48, 16, .rc, 0⟩
def BT_MSC_FLIP_DATA_FLIP_DATA (i : Nat) : Fld := ⟨0x1000000 + i * 0x100000 + 0x20010, 0, 64, .rw, 0⟩
def IS_FLIP_DATA_FLIP_DATA (i : Nat) : Fld := ⟨0x2000000 + i * 0x100000 + 0x900, 0, 64, .rw, 0⟩
def BT_MSC_FLIP_CTL_CHECK (i : Nat) : Fld := ⟨0x1000000 + i * 0x100000 + 0x20018, 0, 8, .rw, 0⟩
def BT_MSC_FLIP_CTL_MEM (i : Nat) : Fld := ⟨0x1000000 + i * 0x100000 + 0x20018, 8, 3, .rw, 0⟩
def BT_MSC_FLIP_CTL_UNIT (i : Nat) : Fld := ⟨0x1000000 + i * 0x100000 + 0x20018, 12, 6, .rw, 0⟩
def BT_MSC_FLIP_CTL_DONE (i : Nat) : Fld := ⟨0x1000000 + i * 0x100000 + 0x20018, 30, 1, .rw1c, 0⟩
def BT_MSC_FLIP_CTL_ARM (i : Nat) : Fld := ⟨0x1000000 + i * 0x100000 + 0x20018, 31, 1, .rw, 0⟩
def IS_FLIP_CTL_CHECK (i : Nat) : Fld := ⟨0x2000000 + i * 0x100000 + 0x908, 0, 8, .rw, 0⟩
def IS_FLIP_CTL_MEM (i : Nat) : Fld := ⟨0x2000000 + i * 0x100000 + 0x908, 8, 3, .rw, 0⟩
def IS_FLIP_CTL_UNIT (i : Nat) : Fld := ⟨0x2000000 + i * 0x100000 + 0x908, 12, 6, .rw, 0⟩
def IS_FLIP_CTL_DONE (i : Nat) : Fld := ⟨0x2000000 + i * 0x100000 + 0x908, 30, 1, .rw1c, 0⟩
def IS_FLIP_CTL_ARM (i : Nat) : Fld := ⟨0x2000000 + i * 0x100000 + 0x908, 31, 1, .rw, 0⟩
def BT_DM_CH_STAT_STATE (i c : Nat) : Fld := ⟨0x1000000 + i * 0x100000 + 0x30000 + c * 0x40, 0, 3, .ro, 0⟩
def BT_DM_CH_STAT_REASON (i c : Nat) : Fld := ⟨0x1000000 + i * 0x100000 + 0x30000 + c * 0x40, 8, 8, .ro, 0⟩
def BT_DM_CH_STAT_HALTS (i c : Nat) : Fld := ⟨0x1000000 + i * 0x100000 + 0x30000 + c * 0x40, 32, 32, .rc, 0⟩
def HP_DM_CH_STAT_STATE (n c : Nat) : Fld := ⟨0x200000 + n * 0x40000 + 0x10000 + c * 0x80, 0, 3, .ro, 0⟩
def HP_DM_CH_STAT_REASON (n c : Nat) : Fld := ⟨0x200000 + n * 0x40000 + 0x10000 + c * 0x80, 8, 8, .ro, 0⟩
def HP_DM_CH_STAT_HALTS (n c : Nat) : Fld := ⟨0x200000 + n * 0x40000 + 0x10000 + c * 0x80, 32, 32, .rc, 0⟩
def BT_DM_CH_PROGRESS_INSTR (i c : Nat) : Fld := ⟨0x1000000 + i * 0x100000 + 0x30008 + c * 0x40, 0, 16, .ro, 0⟩
def BT_DM_CH_PROGRESS_DONE (i c : Nat) : Fld := ⟨0x1000000 + i * 0x100000 + 0x30008 + c * 0x40, 16, 48, .ro, 0⟩
def HP_DM_CH_PROGRESS_INSTR (n c : Nat) : Fld := ⟨0x200000 + n * 0x40000 + 0x10008 + c * 0x80, 0, 16, .ro, 0⟩
def HP_DM_CH_PROGRESS_DONE (n c : Nat) : Fld := ⟨0x200000 + n * 0x40000 + 0x10008 + c * 0x80, 16, 48, .ro, 0⟩
def BT_DM_CH_LOOP01_ITER0 (i c : Nat) : Fld := ⟨0x1000000 + i * 0x100000 + 0x30010 + c * 0x40, 0, 24, .ro, 0⟩
def BT_DM_CH_LOOP01_ITER1 (i c : Nat) : Fld := ⟨0x1000000 + i * 0x100000 + 0x30010 + c * 0x40, 32, 24, .ro, 0⟩
def BT_DM_CH_LOOP01_DEPTH (i c : Nat) : Fld := ⟨0x1000000 + i * 0x100000 + 0x30010 + c * 0x40, 56, 3, .ro, 0⟩
def HP_DM_CH_LOOP01_ITER0 (n c : Nat) : Fld := ⟨0x200000 + n * 0x40000 + 0x10010 + c * 0x80, 0, 24, .ro, 0⟩
def HP_DM_CH_LOOP01_ITER1 (n c : Nat) : Fld := ⟨0x200000 + n * 0x40000 + 0x10010 + c * 0x80, 32, 24, .ro, 0⟩
def HP_DM_CH_LOOP01_DEPTH (n c : Nat) : Fld := ⟨0x200000 + n * 0x40000 + 0x10010 + c * 0x80, 56, 3, .ro, 0⟩
def BT_DM_CH_LOOP23_ITER2 (i c : Nat) : Fld := ⟨0x1000000 + i * 0x100000 + 0x30018 + c * 0x40, 0, 24, .ro, 0⟩
def BT_DM_CH_LOOP23_ITER3 (i c : Nat) : Fld := ⟨0x1000000 + i * 0x100000 + 0x30018 + c * 0x40, 32, 24, .ro, 0⟩
def HP_DM_CH_LOOP23_ITER2 (n c : Nat) : Fld := ⟨0x200000 + n * 0x40000 + 0x10018 + c * 0x80, 0, 24, .ro, 0⟩
def HP_DM_CH_LOOP23_ITER3 (n c : Nat) : Fld := ⟨0x200000 + n * 0x40000 + 0x10018 + c * 0x80, 32, 24, .ro, 0⟩
def BT_DM_CH_FAULT_OFFSET (i c : Nat) : Fld := ⟨0x1000000 + i * 0x100000 + 0x30020 + c * 0x40, 0, 40, .ro, 0⟩
def BT_DM_CH_FAULT_TGT (i c : Nat) : Fld := ⟨0x1000000 + i * 0x100000 + 0x30020 + c * 0x40, 40, 6, .ro, 0⟩
def HP_DM_CH_FAULT_OFFSET (n c : Nat) : Fld := ⟨0x200000 + n * 0x40000 + 0x10020 + c * 0x80, 0, 40, .ro, 0⟩
def HP_DM_CH_FAULT_TGT (n c : Nat) : Fld := ⟨0x200000 + n * 0x40000 + 0x10020 + c * 0x80, 40, 6, .ro, 0⟩
def BT_DM_CH_STALL_STALL_CYCLES (i c : Nat) : Fld := ⟨0x1000000 + i * 0x100000 + 0x30028 + c * 0x40, 0, 32, .rc, 0⟩
def BT_DM_CH_STALL_OUTSTANDING (i c : Nat) : Fld := ⟨0x1000000 + i * 0x100000 + 0x30028 + c * 0x40, 32, 7, .ro, 0⟩
def HP_DM_CH_STALL_STALL_CYCLES (n c : Nat) : Fld := ⟨0x200000 + n * 0x40000 + 0x10028 + c * 0x80, 0, 32, .rc, 0⟩
def HP_DM_CH_STALL_OUTSTANDING (n c : Nat) : Fld := ⟨0x200000 + n * 0x40000 + 0x10028 + c * 0x80, 32, 7, .ro, 0⟩
def BT_DM_WIN_BASE (i n : Nat) : Fld := ⟨0x1000000 + i * 0x100000 + 0x31000 + n * 0x8, 0, 48, .rw, 0⟩
def BT_DM_WIN_NODE (i n : Nat) : Fld := ⟨0x1000000 + i * 0x100000 + 0x31000 + n * 0x8, 48, 16, .rw, 0⟩
def HP_DM_CH_PROG_OFFSET (n c : Nat) : Fld := ⟨0x200000 + n * 0x40000 + 0x10030 + c * 0x80, 0, 40, .rw, 0⟩
def HP_DM_CH_PROG_TGT (n c : Nat) : Fld := ⟨0x200000 + n * 0x40000 + 0x10030 + c * 0x80, 40, 6, .rw, 0⟩
def HP_DM_CH_PROG_TENANCY (n c : Nat) : Fld := ⟨0x200000 + n * 0x40000 + 0x10030 + c * 0x80, 48, 4, .rw, 0⟩
def HP_DM_CH_HOSTBASE_HOST_BASE (n c : Nat) : Fld := ⟨0x200000 + n * 0x40000 + 0x10038 + c * 0x80, 0, 64, .rw, 0⟩
def HP_DM_CH_CTL_START (n c : Nat) : Fld := ⟨0x200000 + n * 0x40000 + 0x10040 + c * 0x80, 0, 1, .wo, 0⟩
def HP_DM_CH_CTL_RESUME (n c : Nat) : Fld := ⟨0x200000 + n * 0x40000 + 0x10040 + c * 0x80, 1, 1, .wo, 0⟩
def HP_DM_CH_CTL_ABORT (n c : Nat) : Fld := ⟨0x200000 + n * 0x40000 + 0x10040 + c * 0x80, 2, 1, .wo, 0⟩
def HP_DM_CH_PROGLEN_COUNT (n c : Nat) : Fld := ⟨0x200000 + n * 0x40000 + 0x10048 + c * 0x80, 0, 17, .rw, 0⟩
def LK_CTL_TARGET (n : Nat) : Fld := ⟨0x400000 + n * 0x10000 + 0x0, 0, 2, .rw, 2⟩
def LK_CTL_RETRAIN (n : Nat) : Fld := ⟨0x400000 + n * 0x10000 + 0x0, 2, 1, .wo, 0⟩
def LK_CTL_RESET (n : Nat) : Fld := ⟨0x400000 + n * 0x10000 + 0x0, 3, 1, .wo, 0⟩
def LK_CFG_SPARE_SYM (n : Nat) : Fld := ⟨0x400000 + n * 0x10000 + 0x8, 0, 16, .rw, 4096⟩
def LK_CFG_SPARE_UNC (n : Nat) : Fld := ⟨0x400000 + n * 0x10000 + 0x8, 16, 16, .rw, 4⟩
def LK_STAT_STATE (n : Nat) : Fld := ⟨0x400000 + n * 0x10000 + 0x10, 0, 3, .ro, 0⟩
def LK_STAT_WIDTH (n : Nat) : Fld := ⟨0x400000 + n * 0x10000 + 0x10, 4, 4, .ro, 0⟩
def LK_STAT_PEER_NODE (n : Nat) : Fld := ⟨0x400000 + n * 0x10000 + 0x10, 16, 16, .ro, 0⟩
def LK_STAT_PEER_LINK (n : Nat) : Fld := ⟨0x400000 + n * 0x10000 + 0x10, 32, 5, .ro, 0⟩
def LK_STAT_SPARE_TX (n : Nat) : Fld := ⟨0x400000 + n * 0x10000 + 0x10, 40, 1, .ro, 0⟩
def LK_STAT_SPARE_RX (n : Nat) : Fld := ⟨0x400000 + n * 0x10000 + 0x10, 41, 1, .ro, 0⟩
def LK_STAT_TENANCY (n : Nat) : Fld := ⟨0x400000 + n * 0x10000 + 0x10, 48, 4, .ro, 0⟩
def LK_STAT_OWNED (n : Nat) : Fld := ⟨0x400000 + n * 0x10000 + 0x10, 52, 1, .ro, 0⟩
def LK_MAP_TX_MAP (n : Nat) : Fld := ⟨0x400000 + n * 0x10000 + 0x18, 0, 32, .ro, 1985229328⟩
def LK_MAP_RX_MAP (n : Nat) : Fld := ⟨0x400000 + n * 0x10000 + 0x18, 32, 32, .ro, 1985229328⟩
def LK_FEC_SYM_CORRECTED (n : Nat) : Fld := ⟨0x400000 + n * 0x10000 + 0x20, 0, 32, .rc, 0⟩
def LK_FEC_UNCORRECTABLE (n : Nat) : Fld := ⟨0x400000 + n * 0x10000 + 0x20, 32, 16, .rc, 0⟩
def LK_FEC_MISLOCKS (n : Nat) : Fld := ⟨0x400000 + n * 0x10000 + 0x20, 48, 16, .rc, 0⟩
def LK_RETRY_REPLAYED (n : Nat) : Fld := ⟨0x400000 + n * 0x10000 + 0x28, 0, 32, .rc, 0⟩
def LK_RETRY_CRC_FAIL (n : Nat) : Fld := ⟨0x400000 + n * 0x10000 + 0x28, 32, 16, .rc, 0⟩
def LK_RETRY_DUP_DISCARD (n : Nat) : Fld := ⟨0x400000 + n * 0x10000 + 0x28, 48, 16, .rc, 0⟩
def LK_CREDIT_VC0 (n : Nat) : Fld := ⟨0x400000 + n * 0x10000 + 0x30, 0, 16, .ro, 0⟩
def LK_CREDIT_VC1 (n : Nat) : Fld := ⟨0x400000 + n * 0x10000 + 0x30, 16, 16, .ro, 0⟩
def LK_CREDIT_VC2 (n : Nat) : Fld := ⟨0x400000 + n * 0x10000 + 0x30, 32, 16, .ro, 0⟩
def LK_CREDIT_VC3 (n : Nat) : Fld := ⟨0x400000 + n * 0x10000 + 0x30, 48, 16, .ro, 0⟩
def LK_TRAIN_LAST_MS (n : Nat) : Fld := ⟨0x400000 + n * 0x10000 + 0x38, 0, 16, .ro, 0⟩
def LK_TRAIN_RETRAINS (n : Nat) : Fld := ⟨0x400000 + n * 0x10000 + 0x38, 16, 16, .rc, 0⟩
def LK_TRAIN_DOWNS (n : Nat) : Fld := ⟨0x400000 + n * 0x10000 + 0x38, 32, 16, .rc, 0⟩
def LK_TRAIN_TRAIN_FAILS (n : Nat) : Fld := ⟨0x400000 + n * 0x10000 + 0x38, 48, 16, .rc, 0⟩
def LK_STALL_BUFFER_FULL (n : Nat) : Fld := ⟨0x400000 + n * 0x10000 + 0x40, 0, 32, .rc, 0⟩
def LK_STALL_CREDIT_WAIT (n : Nat) : Fld := ⟨0x400000 + n * 0x10000 + 0x40, 32, 32, .rc, 0⟩
def LK_LANE_SEL_LW (n : Nat) : Fld := ⟨0x400000 + n * 0x10000 + 0x48, 0, 4, .rw, 0⟩
def LK_LANE_RX_POWER (n l : Nat) : Fld := ⟨0x22000000 + (n * 16 + l) * 8, 0, 8, .ro, 0⟩
def LK_LANE_TX_POWER (n l : Nat) : Fld := ⟨0x22000000 + (n * 16 + l) * 8, 8, 8, .ro, 0⟩
def LK_LANE_LASER_OK (n l : Nat) : Fld := ⟨0x22000000 + (n * 16 + l) * 8, 16, 1, .ro, 0⟩
def LK_LANE_RING_LOCKED (n l : Nat) : Fld := ⟨0x22000000 + (n * 16 + l) * 8, 17, 1, .ro, 0⟩
def LK_LANE_SYM_CORRECTED (n l : Nat) : Fld := ⟨0x22000000 + (n * 16 + l) * 8, 32, 32, .rc, 0⟩
def FB_NODE_NODE : Fld := ⟨0x600000 + 0x0, 0, 16, .rw, 0⟩
def FB_NODE_VALID : Fld := ⟨0x600000 + 0x0, 16, 1, .ro, 0⟩
def FB_NODE_INCARN : Fld := ⟨0x600000 + 0x0, 32, 16, .ro, 0⟩
def FB_CFG_HALDULA : Fld := ⟨0x600000 + 0x8, 0, 1, .rw, 0⟩
def FB_CFG_LIFE : Fld := ⟨0x600000 + 0x8, 16, 10, .rw, 500⟩
def FB_CFG_TIMEOUT : Fld := ⟨0x600000 + 0x8, 32, 16, .rw, 1000⟩
def FB_CC_MARK_THRESH : Fld := ⟨0x600000 + 0x10, 0, 16, .rw, 8192⟩
def FB_CC_WIN_INIT : Fld := ⟨0x600000 + 0x10, 16, 12, .rw, 64⟩
def FB_CC_WIN_MAX : Fld := ⟨0x600000 + 0x10, 28, 13, .rw, 4096⟩
def FB_CC_AI : Fld := ⟨0x600000 + 0x10, 48, 4, .rw, 1⟩
def FB_CC_MD : Fld := ⟨0x600000 + 0x10, 52, 8, .rw, 128⟩
def FB_STAT_RETRIES : Fld := ⟨0x600000 + 0x18, 0, 16, .rc, 0⟩
def FB_STAT_RESENDS : Fld := ⟨0x600000 + 0x18, 16, 16, .rc, 0⟩
def FB_STAT_LATE_RESP : Fld := ⟨0x600000 + 0x18, 32, 16, .rc, 0⟩
def FB_STAT_EXPIRED : Fld := ⟨0x600000 + 0x18, 48, 16, .rc, 0⟩
def FB_STAT2_DUP_DISCARD : Fld := ⟨0x600000 + 0x20, 0, 16, .rc, 0⟩
def FB_STAT2_CACHE_HITS : Fld := ⟨0x600000 + 0x20, 16, 16, .rc, 0⟩
def FB_STAT2_BUSY_SENT : Fld := ⟨0x600000 + 0x20, 32, 16, .rc, 0⟩
def FB_STAT2_ECHO_RX : Fld := ⟨0x600000 + 0x20, 48, 16, .rc, 0⟩
def FB_RT_INVAL_NODE : Fld := ⟨0x600000 + 0x28, 0, 16, .wo, 0⟩
def FB_RT_INVAL_TENANCY : Fld := ⟨0x600000 + 0x28, 16, 4, .wo, 0⟩
def FB_RT_INVAL_ALL : Fld := ⟨0x600000 + 0x28, 20, 1, .wo, 0⟩
def FB_RT_INVAL_MGMT : Fld := ⟨0x600000 + 0x28, 21, 1, .wo, 0⟩
def FB_TN_RT_BASE (t : Nat) : Fld := ⟨0x600000 + 0x100 + t * 0x8, 0, 48, .rw, 0⟩
def FB_TN_RT_VALID (t : Nat) : Fld := ⟨0x600000 + 0x100 + t * 0x8, 48, 1, .rw, 0⟩
def FB_MGMT_RT_BASE : Fld := ⟨0x600000 + 0x180, 0, 48, .rw, 0⟩
def FB_MGMT_RT_VALID : Fld := ⟨0x600000 + 0x180, 48, 1, .rw, 0⟩
def FB_ACL_BASE (t k : Nat) : Fld := ⟨0x600000 + 0x200 + t * 0x20 + k * 0x8, 0, 16, .rw, 0⟩
def FB_ACL_MASK (t k : Nat) : Fld := ⟨0x600000 + 0x200 + t * 0x20 + k * 0x8, 16, 16, .rw, 0⟩
def FB_ACL_VALID (t k : Nat) : Fld := ⟨0x600000 + 0x200 + t * 0x20 + k * 0x8, 32, 1, .rw, 0⟩
def FB_ACL_WRITE (t k : Nat) : Fld := ⟨0x600000 + 0x200 + t * 0x20 + k * 0x8, 33, 1, .rw, 0⟩
def FB_MGMT_ACL_BASE : Fld := ⟨0x600000 + 0x400, 0, 16, .rw, 0⟩
def FB_MGMT_ACL_MASK : Fld := ⟨0x600000 + 0x400, 16, 16, .rw, 0⟩
def FB_MGMT_ACL_VALID : Fld := ⟨0x600000 + 0x400, 32, 1, .rw, 0⟩
def FB_MGMT_ACL_WRITE : Fld := ⟨0x600000 + 0x400, 33, 1, .rw, 0⟩
def FB_HT_CTL_ACTIVE : Fld := ⟨0x600000 + 0x500, 0, 1, .ro, 0⟩
def FB_HT_CTL_SWITCH : Fld := ⟨0x600000 + 0x500, 1, 1, .wo, 0⟩
def FB_HT_CTL_DRAINING : Fld := ⟨0x600000 + 0x500, 2, 1, .ro, 0⟩
def FB_HT_CTL_REFUSED : Fld := ⟨0x600000 + 0x500, 16, 16, .rc, 0⟩
def FB_HT_CTL_INTER_BASE : Fld := ⟨0x600000 + 0x500, 32, 16, .rw, 0⟩
def FB_HT_CTL_INTER_COUNT : Fld := ⟨0x600000 + 0x500, 48, 16, .rw, 0⟩
def FB_HT_SEL_NODE : Fld := ⟨0x600000 + 0x508, 0, 16, .rw, 0⟩
def FB_HT_SEL_BANK : Fld := ⟨0x600000 + 0x508, 16, 1, .rw, 0⟩
def FB_HT_DATA_LINK (b m : Nat) : Fld := ⟨0x30000000 + (b * 65536 + m) * 8, 0, 5, .rw, 0⟩
def FB_HT_DATA_VALID (b m : Nat) : Fld := ⟨0x30000000 + (b * 65536 + m) * 8, 5, 1, .rw, 0⟩
def FB_MBOX_ADDR_OFFSET : Fld := ⟨0x600000 + 0x600, 0, 48, .rw, 0⟩
def FB_MBOX_ADDR_NODE : Fld := ⟨0x600000 + 0x600, 48, 16, .rw, 0⟩
def FB_MBOX_DATA_DATA : Fld := ⟨0x600000 + 0x608, 0, 64, .rw, 0⟩
def FB_MBOX_CTL_GO : Fld := ⟨0x600000 + 0x610, 0, 1, .wo, 0⟩
def FB_MBOX_CTL_WRITE : Fld := ⟨0x600000 + 0x610, 1, 1, .rw, 0⟩
def FB_MBOX_CTL_WIDE : Fld := ⟨0x600000 + 0x610, 2, 1, .rw, 1⟩
def FB_MBOX_CTL_BUSY : Fld := ⟨0x600000 + 0x610, 3, 1, .ro, 0⟩
def FB_MBOX_CTL_STATUS : Fld := ⟨0x600000 + 0x610, 4, 8, .ro, 0⟩
def BT_DM_KV_CFG_RING (i : Nat) : Fld := ⟨0x1000000 + i * 0x100000 + 0x32000, 0, 31, .rw, 0⟩
def BT_DM_KV_CFG_ENABLE (i : Nat) : Fld := ⟨0x1000000 + i * 0x100000 + 0x32000, 31, 1, .rw, 0⟩
def BT_DM_KV_CFG_RING_LOG2 (i : Nat) : Fld := ⟨0x1000000 + i * 0x100000 + 0x32000, 32, 4, .rw, 4⟩
def BT_DM_KV_CFG_PROD_WORD (i : Nat) : Fld := ⟨0x1000000 + i * 0x100000 + 0x32000, 36, 17, .rw, 0⟩
def BT_DM_KV_DONE_DONE_WORD (i : Nat) : Fld := ⟨0x1000000 + i * 0x100000 + 0x32008, 0, 17, .rw, 0⟩
def BT_DM_KV_STAT_CONSUMED (i : Nat) : Fld := ⟨0x1000000 + i * 0x100000 + 0x32010, 0, 32, .ro, 0⟩
def BT_DM_KV_STAT_BUSY (i : Nat) : Fld := ⟨0x1000000 + i * 0x100000 + 0x32010, 32, 1, .ro, 0⟩
def BT_DM_KV_STAT_FAULTED (i : Nat) : Fld := ⟨0x1000000 + i * 0x100000 + 0x32010, 33, 1, .ro, 0⟩
def BT_DM_KV_STAT_REASON (i : Nat) : Fld := ⟨0x1000000 + i * 0x100000 + 0x32010, 40, 8, .ro, 0⟩
def BT_DM_KV_FAULT_POSITION (i : Nat) : Fld := ⟨0x1000000 + i * 0x100000 + 0x32018, 0, 24, .ro, 0⟩
def BT_DM_KV_FAULT_SLOT (i : Nat) : Fld := ⟨0x1000000 + i * 0x100000 + 0x32018, 24, 12, .ro, 0⟩
def BT_DM_KV_COUNT_LINES (i : Nat) : Fld := ⟨0x1000000 + i * 0x100000 + 0x32020, 0, 32, .rc, 0⟩
def BT_DM_KV_COUNT_STALL_CYCLES (i : Nat) : Fld := ⟨0x1000000 + i * 0x100000 + 0x32020, 32, 32, .rc, 0⟩
def TN_CKPT_STAT_BUSY (n : Nat) : Fld := ⟨0x300000 + n * 0x10000 + 0x180, 0, 1, .ro, 0⟩
def TN_CKPT_STAT_CLEAN (n : Nat) : Fld := ⟨0x300000 + n * 0x10000 + 0x180, 1, 1, .ro, 0⟩
def TN_CKPT_STAT_LAST_STATUS (n : Nat) : Fld := ⟨0x300000 + n * 0x10000 + 0x180, 8, 8, .ro, 0⟩
def TN_CKPT_STAT_LAST_PAUSE (n : Nat) : Fld := ⟨0x300000 + n * 0x10000 + 0x180, 16, 16, .ro, 0⟩
def TN_CKPT_STAT_CHECKPOINTS (n : Nat) : Fld := ⟨0x300000 + n * 0x10000 + 0x180, 32, 32, .rc, 0⟩
def TN_CKPT_STEP_STEP (n : Nat) : Fld := ⟨0x300000 + n * 0x10000 + 0x188, 0, 48, .ro, 0⟩
def TN_RUNREC_CFG_ENABLE (n : Nat) : Fld := ⟨0x300000 + n * 0x10000 + 0x190, 0, 1, .rw, 0⟩
def TN_RUNREC_CFG_BLOCK (n : Nat) : Fld := ⟨0x300000 + n * 0x10000 + 0x190, 1, 1, .rw, 0⟩
def TN_RUNREC_STAT_HEAD (n : Nat) : Fld := ⟨0x300000 + n * 0x10000 + 0x198, 0, 32, .ro, 0⟩
def TN_RUNREC_STAT_TAIL (n : Nat) : Fld := ⟨0x300000 + n * 0x10000 + 0x198, 32, 32, .rw, 0⟩
def TN_RUNREC_LOST_LOST (n : Nat) : Fld := ⟨0x300000 + n * 0x10000 + 0x1a0, 0, 32, .rc, 0⟩
def TN_DET_STRETCHED (n : Nat) : Fld := ⟨0x300000 + n * 0x10000 + 0x1a8, 0, 1, .rw1c, 0⟩
def TN_DET_THROTTLED (n : Nat) : Fld := ⟨0x300000 + n * 0x10000 + 0x1a8, 1, 1, .rw1c, 0⟩
def TN_DET_DEGRADED (n : Nat) : Fld := ⟨0x300000 + n * 0x10000 + 0x1a8, 2, 1, .rw1c, 0⟩
def TN_DET_NOT_TIME_DET (n : Nat) : Fld := ⟨0x300000 + n * 0x10000 + 0x1a8, 3, 1, .ro, 0⟩
def TN_DET_PAUSED (n : Nat) : Fld := ⟨0x300000 + n * 0x10000 + 0x1a8, 4, 1, .rw1c, 0⟩
def TN_DET_FRAMES_UNEQUAL (n : Nat) : Fld := ⟨0x300000 + n * 0x10000 + 0x1a8, 32, 32, .rc, 0⟩
def TN_STOP_AT_STOP (n : Nat) : Fld := ⟨0x300000 + n * 0x10000 + 0x1b0, 0, 48, .rw, 0⟩
def TN_STOP_AT_ENABLE (n : Nat) : Fld := ⟨0x300000 + n * 0x10000 + 0x1b0, 48, 1, .rw, 0⟩
def TN_WDIGEST_BYTES (n k : Nat) : Fld := ⟨0x300000 + n * 0x10000 + 0x200 + k * 0x8, 0, 64, .ro, 0⟩
def TN_WDIGEST_STAT_VALID (n : Nat) : Fld := ⟨0x300000 + n * 0x10000 + 0x230, 0, 1, .ro, 0⟩
def TN_WDIGEST_STAT_POISONED (n : Nat) : Fld := ⟨0x300000 + n * 0x10000 + 0x230, 1, 1, .ro, 0⟩
def BT_DM_DG_STAT_BUSY (i : Nat) : Fld := ⟨0x1000000 + i * 0x100000 + 0x33000, 0, 1, .ro, 0⟩
def BT_DM_DG_STAT_POISONED (i : Nat) : Fld := ⟨0x1000000 + i * 0x100000 + 0x33000, 16, 16, .rc, 0⟩
def BT_DM_DG_STAT_MIB (i : Nat) : Fld := ⟨0x1000000 + i * 0x100000 + 0x33000, 32, 32, .rc, 0⟩
def HP_STAT_SPEED (n : Nat) : Fld := ⟨0x200000 + n * 0x40000 + 0x0, 0, 4, .ro, 0⟩
def HP_STAT_WIDTH (n : Nat) : Fld := ⟨0x200000 + n * 0x40000 + 0x0, 4, 4, .ro, 0⟩
def HP_STAT_FLIT (n : Nat) : Fld := ⟨0x200000 + n * 0x40000 + 0x0, 8, 1, .ro, 0⟩
def HP_STAT_SRIS (n : Nat) : Fld := ⟨0x200000 + n * 0x40000 + 0x0, 9, 1, .ro, 0⟩
def HP_STAT_MODULE_READY (n : Nat) : Fld := ⟨0x200000 + n * 0x40000 + 0x0, 10, 1, .ro, 0⟩
def HP_STAT_NP_OUTSTANDING (n : Nat) : Fld := ⟨0x200000 + n * 0x40000 + 0x0, 32, 13, .ro, 0⟩
def HP_PORT_RING_LOG2 (n : Nat) : Fld := ⟨0x200000 + n * 0x40000 + 0x8, 0, 4, .rw, 4⟩
def HP_PORT_RING_ENABLE (n : Nat) : Fld := ⟨0x200000 + n * 0x40000 + 0x8, 4, 1, .rw, 0⟩
def HP_PORT_RING_BASE (n : Nat) : Fld := ⟨0x200000 + n * 0x40000 + 0x8, 12, 52, .rw, 0⟩
def HP_PORT_SEQ_LAST_SEQ (n : Nat) : Fld := ⟨0x200000 + n * 0x40000 + 0x10, 0, 64, .ro, 0⟩
def HP_TENANCIES_BOUND (n : Nat) : Fld := ⟨0x200000 + n * 0x40000 + 0x18, 0, 16, .ro, 0⟩
def HP_FILTERED_READS (n : Nat) : Fld := ⟨0x200000 + n * 0x40000 + 0x20, 0, 32, .rc, 0⟩
def HP_FILTERED_WRITES (n : Nat) : Fld := ⟨0x200000 + n * 0x40000 + 0x20, 32, 32, .rc, 0⟩
def HP_WIN_A_VALID (n k : Nat) : Fld := ⟨0x200000 + n * 0x40000 + 0x100 + k * 0x10, 0, 1, .rw, 0⟩
def HP_WIN_A_KIND (n k : Nat) : Fld := ⟨0x200000 + n * 0x40000 + 0x100 + k * 0x10, 1, 2, .rw, 0⟩
def HP_WIN_A_TENANCY (n k : Nat) : Fld := ⟨0x200000 + n * 0x40000 + 0x100 + k * 0x10, 4, 4, .rw, 0⟩
def HP_WIN_A_LISL (n k : Nat) : Fld := ⟨0x200000 + n * 0x40000 + 0x100 + k * 0x10, 8, 4, .rw, 0⟩
def HP_WIN_A_BAR_GIB (n k : Nat) : Fld := ⟨0x200000 + n * 0x40000 + 0x100 + k * 0x10, 30, 13, .rw, 0⟩
def HP_WIN_A_SIZE_GIB (n k : Nat) : Fld := ⟨0x200000 + n * 0x40000 + 0x100 + k * 0x10, 43, 14, .rw, 0⟩
def HP_WIN_B_OFFSET (n k : Nat) : Fld := ⟨0x200000 + n * 0x40000 + 0x108 + k * 0x10, 0, 48, .rw, 0⟩
def TN_STATE_STATE (n : Nat) : Fld := ⟨0x300000 + n * 0x10000 + 0x0, 0, 3, .ro, 0⟩
def TN_STATE_PORT (n : Nat) : Fld := ⟨0x300000 + n * 0x10000 + 0x0, 4, 2, .ro, 0⟩
def TN_STATE_HALT_EVENT (n : Nat) : Fld := ⟨0x300000 + n * 0x10000 + 0x0, 16, 16, .ro, 0⟩
def TN_ISLANDS_ISLANDS (n : Nat) : Fld := ⟨0x300000 + n * 0x10000 + 0x8, 0, 16, .ro, 0⟩
def TN_ISLANDS_LINKS (n : Nat) : Fld := ⟨0x300000 + n * 0x10000 + 0x8, 32, 32, .ro, 0⟩
def TN_BIND_MAP (n : Nat) : Fld := ⟨0x300000 + n * 0x10000 + 0x10, 0, 64, .ro, 0⟩
def TN_RING_BASE (n : Nat) : Fld := ⟨0x300000 + n * 0x10000 + 0x18, 0, 48, .ro, 0⟩
def TN_RING_LOG2 (n : Nat) : Fld := ⟨0x300000 + n * 0x10000 + 0x18, 48, 4, .ro, 0⟩
def TN_RING_SEQ_LAST_SEQ (n : Nat) : Fld := ⟨0x300000 + n * 0x10000 + 0x20, 0, 64, .ro, 0⟩
def TN_CMD_STAT_TAKEN (n : Nat) : Fld := ⟨0x300000 + n * 0x10000 + 0x28, 0, 16, .rc, 0⟩
def TN_CMD_STAT_DUPLICATES (n : Nat) : Fld := ⟨0x300000 + n * 0x10000 + 0x28, 16, 16, .rc, 0⟩
def TN_CMD_STAT_REFUSED (n : Nat) : Fld := ⟨0x300000 + n * 0x10000 + 0x28, 32, 16, .rc, 0⟩
def LH_START_PHASE : Fld := ⟨0x80, 0, 4, .ro, 0⟩
def LH_START_COLD_RINGS : Fld := ⟨0x80, 4, 1, .ro, 0⟩
def LH_START_WARM : Fld := ⟨0x80, 5, 1, .ro, 0⟩
def LH_START_FAIL_REASON : Fld := ⟨0x80, 8, 8, .ro, 0⟩
def LH_START_READY_MS : Fld := ⟨0x80, 32, 32, .ro, 0⟩
def LH_CLK_STAT_REF_OK : Fld := ⟨0x88, 0, 1, .ro, 0⟩
def LH_CLK_STAT_HOLDOVER : Fld := ⟨0x88, 1, 1, .ro, 0⟩
def LH_CLK_STAT_CALREF_OK : Fld := ⟨0x88, 2, 1, .ro, 0⟩
def LH_CLK_STAT_REF_LOSSES : Fld := ⟨0x88, 16, 16, .rc, 0⟩
def LH_CLK_STAT_REF_PPB : Fld := ⟨0x88, 32, 32, .ro, 0⟩
def LH_CAL_STAT_COLD_TILES : Fld := ⟨0x90, 0, 16, .ro, 0⟩
def LH_CAL_STAT_FREQ_UNTRACED : Fld := ⟨0x90, 16, 1, .ro, 0⟩
def LH_CAL_STAT_TEMP_UNTRACED : Fld := ⟨0x90, 17, 1, .ro, 0⟩
def LH_CAL_STAT_COPY : Fld := ⟨0x90, 18, 1, .ro, 0⟩
def LH_CAL_STAT_STORE_PENDING : Fld := ⟨0x90, 19, 1, .ro, 0⟩
def LH_CAL_STAT_GENERATION : Fld := ⟨0x90, 32, 32, .ro, 0⟩
def LH_COOLANT_TEMP : Fld := ⟨0x98, 0, 16, .rw, 0⟩
def LH_COOLANT_VALID : Fld := ⟨0x98, 16, 1, .rw, 0⟩
def LH_RESET_WARM : Fld := ⟨0xa0, 0, 1, .wo, 0⟩
def LH_RESET_COLD : Fld := ⟨0xa0, 1, 1, .wo, 0⟩
def LH_RESET_ISLAND : Fld := ⟨0xa0, 32, 16, .wo, 0⟩
def LH_RESET_STAT_DOWN : Fld := ⟨0xa8, 0, 16, .ro, 0⟩
def LH_RESET_STAT_WARM_RESETS : Fld := ⟨0xa8, 32, 32, .rws, 0⟩
def IS_IDENT_CD_POS (i : Nat) : Fld := ⟨0x2000000 + i * 0x100000 + 0xa00, 0, 4, .ro, Config.strapCdPos i⟩
def IS_IDENT_CD_ROT (i : Nat) : Fld := ⟨0x2000000 + i * 0x100000 + 0xa00, 4, 2, .ro, Config.strapCdRot i⟩
def IS_IDENT_CD_MIRROR (i : Nat) : Fld := ⟨0x2000000 + i * 0x100000 + 0xa00, 6, 1, .ro, Config.strapCdMirror i⟩
def IS_IDENT_CD_OK (i : Nat) : Fld := ⟨0x2000000 + i * 0x100000 + 0xa00, 7, 1, .ro, Config.strapCdOk i⟩
def IS_IDENT_SH_POS (i : Nat) : Fld := ⟨0x2000000 + i * 0x100000 + 0xa00, 8, 4, .ro, Config.strapShPos i⟩
def IS_IDENT_SH_ROT (i : Nat) : Fld := ⟨0x2000000 + i * 0x100000 + 0xa00, 12, 2, .ro, Config.strapShRot i⟩
def IS_IDENT_SH_MIRROR (i : Nat) : Fld := ⟨0x2000000 + i * 0x100000 + 0xa00, 14, 1, .ro, Config.strapShMirror i⟩
def IS_IDENT_SH_OK (i : Nat) : Fld := ⟨0x2000000 + i * 0x100000 + 0xa00, 15, 1, .ro, Config.strapShOk i⟩
def IS_CLK_SEL_REGION (i : Nat) : Fld := ⟨0x2000000 + i * 0x100000 + 0xa08, 0, 4, .rw, 0⟩
def IS_CLK_REGION_MARGIN (i r : Nat) : Fld := ⟨0x24000000 + (i * 16 + r) * 8, 0, 8, .ro, 0⟩
def IS_CLK_REGION_MIN_MARGIN (i r : Nat) : Fld := ⟨0x24000000 + (i * 16 + r) * 8, 8, 8, .ro, 255⟩
def IS_CLK_REGION_VSTEPS (i r : Nat) : Fld := ⟨0x24000000 + (i * 16 + r) * 8, 16, 3, .ro, 0⟩
def IS_CLK_REGION_PLL_LOCKED (i r : Nat) : Fld := ⟨0x24000000 + (i * 16 + r) * 8, 19, 1, .ro, 0⟩
def IS_CLK_REGION_DRIFT (i r : Nat) : Fld := ⟨0x24000000 + (i * 16 + r) * 8, 24, 8, .ro, 0⟩
def IS_CLK_STAT_VSTEP_RAISES (i : Nat) : Fld := ⟨0x2000000 + i * 0x100000 + 0xa18, 0, 16, .rc, 0⟩
def IS_CLK_STAT_LOWERINGS (i : Nat) : Fld := ⟨0x2000000 + i * 0x100000 + 0xa18, 16, 16, .rc, 0⟩
def IS_CLK_STAT_CLOCK_LOST (i : Nat) : Fld := ⟨0x2000000 + i * 0x100000 + 0xa18, 32, 1, .ro, 0⟩
def IS_CLK_STAT_DRIFTED (i : Nat) : Fld := ⟨0x2000000 + i * 0x100000 + 0xa18, 33, 1, .ro, 0⟩
def LH_PWR_STAT_STATE : Fld := ⟨0xc0, 0, 3, .ro, 0⟩
def LH_PWR_STAT_LOW_SUPPLY : Fld := ⟨0xc0, 3, 1, .ro, 0⟩
def LH_PWR_STAT_MARGIN : Fld := ⟨0xc0, 4, 1, .ro, 0⟩
def LH_PWR_STAT_CAP_ACTIVE : Fld := ⟨0xc0, 5, 1, .ro, 0⟩
def LH_PWR_STAT_CONV_FAILED : Fld := ⟨0xc0, 8, 5, .ro, 0⟩
def LH_PWR_STAT_BUS : Fld := ⟨0xc0, 16, 16, .ro, 0⟩
def LH_PWR_STAT_INPUT_W : Fld := ⟨0xc0, 32, 32, .ro, 0⟩
def LH_PWR_CFG_CAP : Fld := ⟨0xc8, 0, 16, .rw, 2150⟩
def LH_PWR_CTL_STILL : Fld := ⟨0xd0, 0, 1, .wo, 0⟩
def LH_PWR_CTL_WAKE : Fld := ⟨0xd0, 1, 1, .wo, 0⟩
def LH_PWR_CTL_SHUTDOWN : Fld := ⟨0xd0, 2, 1, .wo, 0⟩
def BT_TH_TEMP_CD (i : Nat) : Fld := ⟨0x1000000 + i * 0x100000 + 0x60000, 0, 8, .ro, 0⟩
def BT_TH_TEMP_SHOAL (i : Nat) : Fld := ⟨0x1000000 + i * 0x100000 + 0x60000, 8, 8, .ro, 0⟩
def BT_TH_TEMP_BASE (i : Nat) : Fld := ⟨0x1000000 + i * 0x100000 + 0x60000, 16, 8, .ro, 0⟩
def BT_TH_TEMP_SHOAL_EST (i : Nat) : Fld := ⟨0x1000000 + i * 0x100000 + 0x60000, 24, 8, .ro, 0⟩
def BT_TH_TEMP_RATE (i : Nat) : Fld := ⟨0x1000000 + i * 0x100000 + 0x60000, 32, 16, .ro, 0⟩
def BT_TH_TEMP_FAST (i : Nat) : Fld := ⟨0x1000000 + i * 0x100000 + 0x60000, 48, 1, .ro, 0⟩
def BT_TH_TEMP_EST_LEARNED (i : Nat) : Fld := ⟨0x1000000 + i * 0x100000 + 0x60000, 49, 1, .ro, 0⟩
def BT_TH_ILIM_LIMIT (i : Nat) : Fld := ⟨0x1000000 + i * 0x100000 + 0x60008, 0, 11, .ro, 1250⟩
def BT_TH_ILIM_CURRENT (i : Nat) : Fld := ⟨0x1000000 + i * 0x100000 + 0x60008, 16, 11, .ro, 0⟩
def BT_TH_ILIM_TEMP (i : Nat) : Fld := ⟨0x1000000 + i * 0x100000 + 0x60008, 32, 1, .ro, 0⟩
def BT_TH_ILIM_RATE (i : Nat) : Fld := ⟨0x1000000 + i * 0x100000 + 0x60008, 33, 1, .ro, 0⟩
def BT_TH_ILIM_CAP (i : Nat) : Fld := ⟨0x1000000 + i * 0x100000 + 0x60008, 34, 1, .ro, 0⟩
def BT_TH_ILIM_GATING (i : Nat) : Fld := ⟨0x1000000 + i * 0x100000 + 0x60008, 35, 1, .ro, 0⟩
def BT_TH_STAT_DISTRUSTED (i : Nat) : Fld := ⟨0x1000000 + i * 0x100000 + 0x60010, 0, 4, .ro, 0⟩
def BT_TH_STAT_STOP_CAUSE (i : Nat) : Fld := ⟨0x1000000 + i * 0x100000 + 0x60010, 8, 3, .ro, 0⟩
def BT_TH_STAT_STEPS (i : Nat) : Fld := ⟨0x1000000 + i * 0x100000 + 0x60010, 16, 16, .rc, 0⟩
def BT_TH_STAT_GATED_CYCLES (i : Nat) : Fld := ⟨0x1000000 + i * 0x100000 + 0x60010, 32, 32, .rc, 0⟩
def BT_TH_WEAR_CYCLES (i : Nat) : Fld := ⟨0x1000000 + i * 0x100000 + 0x60018, 0, 32, .rws, 0⟩
def BT_TH_WEAR_WARNED (i : Nat) : Fld := ⟨0x1000000 + i * 0x100000 + 0x60018, 32, 1, .ro, 0⟩
def BT_TH_SEL_SENSOR (i : Nat) : Fld := ⟨0x1000000 + i * 0x100000 + 0x60020, 0, 5, .rw, 0⟩
def BT_TH_SENSOR_TEMP (i j : Nat) : Fld := ⟨0x23000000 + (i * 32 + j) * 8, 0, 16, .ro, 0⟩
def BT_TH_SENSOR_VALID (i j : Nat) : Fld := ⟨0x23000000 + (i * 32 + j) * 8, 16, 1, .ro, 0⟩
def BT_TH_SENSOR_DISTRUSTED (i j : Nat) : Fld := ⟨0x23000000 + (i * 32 + j) * 8, 17, 1, .ro, 0⟩
def BT_TH_SENSOR_PEAK (i j : Nat) : Fld := ⟨0x23000000 + (i * 32 + j) * 8, 32, 16, .ro, 0⟩
def LH_KEEPER_PRESENT : Fld := ⟨0x100, 0, 3, .ro, 7⟩
def LH_KEEPER_A_CAUSE : Fld := ⟨0x100, 8, 4, .ro, 0⟩
def LH_KEEPER_B_CAUSE : Fld := ⟨0x100, 12, 4, .ro, 0⟩
def LH_KEEPER_C_CAUSE : Fld := ⟨0x100, 16, 4, .ro, 0⟩
def LH_KEEPER_OUTVOTES : Fld := ⟨0x100, 32, 32, .rc, 0⟩
def LH_PLANE_SUB_LPLANE0 : Fld := ⟨0x108, 0, 6, .ro, 0⟩
def LH_PLANE_SUB_FAILED0 : Fld := ⟨0x108, 6, 1, .ro, 0⟩
def LH_PLANE_SUB_IN_USE0 : Fld := ⟨0x108, 7, 1, .ro, 0⟩
def LH_PLANE_SUB_LPLANE1 : Fld := ⟨0x108, 8, 6, .ro, 0⟩
def LH_PLANE_SUB_FAILED1 : Fld := ⟨0x108, 14, 1, .ro, 0⟩
def LH_PLANE_SUB_IN_USE1 : Fld := ⟨0x108, 15, 1, .ro, 0⟩
def LH_PLANE_SUB_LPLANE2 : Fld := ⟨0x108, 16, 6, .ro, 0⟩
def LH_PLANE_SUB_FAILED2 : Fld := ⟨0x108, 22, 1, .ro, 0⟩
def LH_PLANE_SUB_IN_USE2 : Fld := ⟨0x108, 23, 1, .ro, 0⟩
def LH_PLANE_SUB_LPLANE3 : Fld := ⟨0x108, 24, 6, .ro, 0⟩
def LH_PLANE_SUB_FAILED3 : Fld := ⟨0x108, 30, 1, .ro, 0⟩
def LH_PLANE_SUB_IN_USE3 : Fld := ⟨0x108, 31, 1, .ro, 0⟩
def LH_PLANE_FAIL_FAILED : Fld := ⟨0x110, 0, 64, .ro, 0⟩
def LH_FENCE_REQUEST : Fld := ⟨0x118, 0, 16, .wo, 0⟩
def LH_FENCE_FENCED : Fld := ⟨0x118, 16, 16, .ro, 0⟩
def BT_ST_SPARE_CFG_SPARE_SYM (i : Nat) : Fld := ⟨0x1000000 + i * 0x100000 + 0x50030, 0, 16, .rw, 2048⟩
def BT_ST_SPARE_CFG_SPARE_UNC (i : Nat) : Fld := ⟨0x1000000 + i * 0x100000 + 0x50030, 16, 16, .rw, 4⟩
def BT_ST_COMB_IN_USE (i : Nat) : Fld := ⟨0x1000000 + i * 0x100000 + 0x50038, 0, 10, .ro, 511⟩
def BT_ST_COMB_FAILED (i : Nat) : Fld := ⟨0x1000000 + i * 0x100000 + 0x50038, 16, 10, .ro, 0⟩
def BT_ST_COMB_SPARE_FOR (i : Nat) : Fld := ⟨0x1000000 + i * 0x100000 + 0x50038, 28, 4, .ro, 15⟩
def IS_FENCE_CAUSE (i : Nat) : Fld := ⟨0x2000000 + i * 0x100000 + 0xb00, 0, 4, .ro, 0⟩
def IS_FENCE_LASTING_HALF (i : Nat) : Fld := ⟨0x2000000 + i * 0x100000 + 0xb00, 8, 8, .ro, 0⟩
def IS_FENCE_SINGLE_COPY (i : Nat) : Fld := ⟨0x2000000 + i * 0x100000 + 0xb00, 16, 8, .ro, 0⟩
def IS_FENCE_LOSSES_600S (i : Nat) : Fld := ⟨0x2000000 + i * 0x100000 + 0xb00, 24, 4, .ro, 0⟩
def IS_FENCE_REJOIN_FAILED (i : Nat) : Fld := ⟨0x2000000 + i * 0x100000 + 0xb00, 28, 1, .ro, 0⟩
def IS_FENCE_ILIM_LOWERED (i : Nat) : Fld := ⟨0x2000000 + i * 0x100000 + 0xb00, 29, 1, .ro, 0⟩
def SEC_STAT_SLOT : Fld := ⟨0x100000, 0, 1, .ro, 0⟩
def SEC_STAT_FALLBACK : Fld := ⟨0x100000, 1, 1, .ro, 0⟩
def SEC_STAT_LIFECYCLE : Fld := ⟨0x100000, 2, 1, .ro, 1⟩
def SEC_STAT_STAGED : Fld := ⟨0x100000, 3, 1, .ro, 0⟩
def SEC_STAT_ACTIVITY : Fld := ⟨0x100000, 4, 3, .ro, 0⟩
def SEC_STAT_LAST_REASON : Fld := ⟨0x100000, 8, 8, .ro, 0⟩
def SEC_STAT_ACTIVATIONS : Fld := ⟨0x100000, 32, 32, .rc, 0⟩
def SEC_SVN_COUNTER : Fld := ⟨0x100008, 0, 32, .ro, 0⟩
def SEC_SVN_ACTIVE_SVN : Fld := ⟨0x100008, 32, 32, .ro, 0⟩
def SEC_CFG_HOST_UPDATE : Fld := ⟨0x100010, 0, 4, .rwl, 0⟩
def SEC_LOCK_CLOSED : Fld := ⟨0x100018, 0, 1, .ro, 0⟩
def SEC_LOCK_HOLDER : Fld := ⟨0x100018, 1, 3, .ro, 0⟩
def SEC_LOCK_REVOKED : Fld := ⟨0x100018, 4, 4, .ro, 0⟩
def SEC_LOCK_ROOT : Fld := ⟨0x100018, 8, 2, .ro, 0⟩
def SEC_STAGE_STAGED_SVN : Fld := ⟨0x100020, 0, 32, .ro, 0⟩
def SEC_STAGE_PROGRESS : Fld := ⟨0x100020, 32, 16, .ro, 0⟩
def SEC_DIGEST_BYTES (k : Nat) : Fld := ⟨0x100040 + k * 0x8, 0, 64, .ro, 0⟩
def SEC_STAGED_DIGEST_BYTES (k : Nat) : Fld := ⟨0x100080 + k * 0x8, 0, 64, .ro, 0⟩
def LH_EVLOG_HEAD : Fld := ⟨0x180, 0, 32, .ro, 0⟩
def LH_EVLOG_OVERWRITTEN : Fld := ⟨0x180, 32, 16, .rc, 0⟩
def LH_EVLOG_RATE_LIMITED : Fld := ⟨0x180, 48, 16, .rc, 0⟩
def TN_EVLOG_HEAD (n : Nat) : Fld := ⟨0x300000 + n * 0x10000 + 0x300, 0, 32, .ro, 0⟩
def TN_EVLOG_OVERWRITTEN (n : Nat) : Fld := ⟨0x300000 + n * 0x10000 + 0x300, 32, 16, .rc, 0⟩
def TN_EVLOG_RATE_LIMITED (n : Nat) : Fld := ⟨0x300000 + n * 0x10000 + 0x300, 48, 16, .rc, 0⟩
def LH_EVLOG_CFG_ALERT : Fld := ⟨0x188, 0, 8, .rw, 63⟩
def LH_EVLOG_CFG_VDM_EID : Fld := ⟨0x188, 8, 8, .rw, 0⟩
def LH_EVLOG_CFG_VDM_EN : Fld := ⟨0x188, 16, 1, .rw, 0⟩
def TN_EV_CFG_IRQ (n : Nat) : Fld := ⟨0x300000 + n * 0x10000 + 0x308, 0, 8, .rw, 127⟩
def HP_EV_CFG_IRQ (n : Nat) : Fld := ⟨0x200000 + n * 0x40000 + 0x28, 0, 8, .rw, 127⟩

/-- The fields of the register at offset `o` of the LH_ block, in one place. -/
def lhFields (o : Nat) : List Fld :=
  match o with
  | 0x0 => [LH_ID_PART, LH_ID_FAMILY, LH_ID_REV_MINOR, LH_ID_REV_MAJOR, LH_ID_IMAGE_FMT]
  | 0x8 => [LH_SERIAL_SERIAL]
  | 0x10 => [LH_CAP_ISLANDS_BUILT, LH_CAP_ISLANDS_AVAIL, LH_CAP_HBM_EXT, LH_CAP_STACK_GIB, LH_CAP_PLANES]
  | 0x18 => [LH_LINKS_LINKS_BUILT, LH_LINKS_LINKS_UP]
  | 0x40 => [LH_SLOT_COUNT_COUNT]
  | 0x80 => [LH_START_PHASE, LH_START_COLD_RINGS, LH_START_WARM, LH_START_FAIL_REASON, LH_START_READY_MS]
  | 0x88 => [LH_CLK_STAT_REF_OK, LH_CLK_STAT_HOLDOVER, LH_CLK_STAT_CALREF_OK, LH_CLK_STAT_REF_LOSSES, LH_CLK_STAT_REF_PPB]
  | 0x90 => [LH_CAL_STAT_COLD_TILES, LH_CAL_STAT_FREQ_UNTRACED, LH_CAL_STAT_TEMP_UNTRACED, LH_CAL_STAT_COPY, LH_CAL_STAT_STORE_PENDING, LH_CAL_STAT_GENERATION]
  | 0x98 => [LH_COOLANT_TEMP, LH_COOLANT_VALID]
  | 0xa0 => [LH_RESET_WARM, LH_RESET_COLD, LH_RESET_ISLAND]
  | 0xa8 => [LH_RESET_STAT_DOWN, LH_RESET_STAT_WARM_RESETS]
  | 0xc0 => [LH_PWR_STAT_STATE, LH_PWR_STAT_LOW_SUPPLY, LH_PWR_STAT_MARGIN, LH_PWR_STAT_CAP_ACTIVE, LH_PWR_STAT_CONV_FAILED, LH_PWR_STAT_BUS, LH_PWR_STAT_INPUT_W]
  | 0xc8 => [LH_PWR_CFG_CAP]
  | 0xd0 => [LH_PWR_CTL_STILL, LH_PWR_CTL_WAKE, LH_PWR_CTL_SHUTDOWN]
  | 0x100 => [LH_KEEPER_PRESENT, LH_KEEPER_A_CAUSE, LH_KEEPER_B_CAUSE, LH_KEEPER_C_CAUSE, LH_KEEPER_OUTVOTES]
  | 0x108 => [LH_PLANE_SUB_LPLANE0, LH_PLANE_SUB_FAILED0, LH_PLANE_SUB_IN_USE0, LH_PLANE_SUB_LPLANE1, LH_PLANE_SUB_FAILED1, LH_PLANE_SUB_IN_USE1, LH_PLANE_SUB_LPLANE2, LH_PLANE_SUB_FAILED2, LH_PLANE_SUB_IN_USE2, LH_PLANE_SUB_LPLANE3, LH_PLANE_SUB_FAILED3, LH_PLANE_SUB_IN_USE3]
  | 0x110 => [LH_PLANE_FAIL_FAILED]
  | 0x118 => [LH_FENCE_REQUEST, LH_FENCE_FENCED]
  | 0x180 => [LH_EVLOG_HEAD, LH_EVLOG_OVERWRITTEN, LH_EVLOG_RATE_LIMITED]
  | 0x188 => [LH_EVLOG_CFG_ALERT, LH_EVLOG_CFG_VDM_EID, LH_EVLOG_CFG_VDM_EN]
  | _ => []

/-- The fields of the register at offset `o` of the TN_ block, in one place. -/
def tnFields (n : Nat) (o : Nat) : List Fld :=
  match o with
  | 0x100 => [TN_STEP_STEP n]
  | 0x108 => [TN_FRAME_CFG_FRAME_SLOTS n, TN_FRAME_CFG_OVERRUN_ALLOW n, TN_FRAME_CFG_OP_NOW n, TN_FRAME_CFG_OP_REQ n, TN_FRAME_CFG_THROTTLED n, TN_FRAME_CFG_MODES n]
  | 0x110 => [TN_FRAME_STAT_LAST_STRETCH n, TN_FRAME_STAT_MAX_STRETCH n, TN_FRAME_STAT_STRETCHED_FRAMES n]
  | 0x118 => [TN_SLOT_PLAN_SLOT n, TN_SLOT_ELAPSED n, TN_SLOT_FRAME_TICK_AT n]
  | 0x180 => [TN_CKPT_STAT_BUSY n, TN_CKPT_STAT_CLEAN n, TN_CKPT_STAT_LAST_STATUS n, TN_CKPT_STAT_LAST_PAUSE n, TN_CKPT_STAT_CHECKPOINTS n]
  | 0x188 => [TN_CKPT_STEP_STEP n]
  | 0x190 => [TN_RUNREC_CFG_ENABLE n, TN_RUNREC_CFG_BLOCK n]
  | 0x198 => [TN_RUNREC_STAT_HEAD n, TN_RUNREC_STAT_TAIL n]
  | 0x1a0 => [TN_RUNREC_LOST_LOST n]
  | 0x1a8 => [TN_DET_STRETCHED n, TN_DET_THROTTLED n, TN_DET_DEGRADED n, TN_DET_NOT_TIME_DET n, TN_DET_PAUSED n, TN_DET_FRAMES_UNEQUAL n]
  | 0x1b0 => [TN_STOP_AT_STOP n, TN_STOP_AT_ENABLE n]
  | 0x230 => [TN_WDIGEST_STAT_VALID n, TN_WDIGEST_STAT_POISONED n]
  | 0x0 => [TN_STATE_STATE n, TN_STATE_PORT n, TN_STATE_HALT_EVENT n]
  | 0x8 => [TN_ISLANDS_ISLANDS n, TN_ISLANDS_LINKS n]
  | 0x10 => [TN_BIND_MAP n]
  | 0x18 => [TN_RING_BASE n, TN_RING_LOG2 n]
  | 0x20 => [TN_RING_SEQ_LAST_SEQ n]
  | 0x28 => [TN_CMD_STAT_TAKEN n, TN_CMD_STAT_DUPLICATES n, TN_CMD_STAT_REFUSED n]
  | 0x300 => [TN_EVLOG_HEAD n, TN_EVLOG_OVERWRITTEN n, TN_EVLOG_RATE_LIMITED n]
  | 0x308 => [TN_EV_CFG_IRQ n]
  | _ =>
    if 0x200 ≤ o ∧ o < 0x230 ∧ (o - 0x200) % 0x8 = 0 then [TN_WDIGEST_BYTES n ((o - 0x200) / 0x8)]
    else []

/-- The fields of the register at offset `o` of the IS_ block, in one place. -/
def isFields (i : Nat) (o : Nat) : List Fld :=
  match o with
  | 0x400 => [IS_ARITH_FLAGS_FLAGS i]
  | 0x408 => [IS_ARITH_ARRAYS_ARRAYS i]
  | 0x410 => [IS_ACC_ECC_CORRECTED i, IS_ACC_ECC_UNCORRECTABLE i]
  | 0x500 => [IS_VEC_FLAGS_FLAGS i, IS_VEC_FLAGS_CORES i]
  | 0x508 => [IS_VEC_ECC_CORRECTED i, IS_VEC_ECC_UNCORRECTABLE i]
  | 0x800 => [IS_SHOAL_ECC_CORRECTED i, IS_SHOAL_ECC_UNCORRECTABLE i, IS_SHOAL_ECC_POISON_READS i]
  | 0x808 => [IS_SHOAL_ERRADDR_OFFSET i, IS_SHOAL_ERRADDR_VALID i, IS_SHOAL_ERRADDR_POISONED i]
  | 0x810 => [IS_BOND_STAT_SPARES_USED i, IS_BOND_STAT_HALF_GROUPS i, IS_BOND_STAT_REPLAYS i]
  | 0x818 => [IS_BOND_SEL_GROUP i]
  | 0x830 => [IS_MESH_STAT_HOLD_CYCLES i, IS_MESH_STAT_STALL_SLOTS i, IS_MESH_STAT_SKIPPED i]
  | 0x900 => [IS_FLIP_DATA_FLIP_DATA i]
  | 0x908 => [IS_FLIP_CTL_CHECK i, IS_FLIP_CTL_MEM i, IS_FLIP_CTL_UNIT i, IS_FLIP_CTL_DONE i, IS_FLIP_CTL_ARM i]
  | 0xa00 => [IS_IDENT_CD_POS i, IS_IDENT_CD_ROT i, IS_IDENT_CD_MIRROR i, IS_IDENT_CD_OK i, IS_IDENT_SH_POS i, IS_IDENT_SH_ROT i, IS_IDENT_SH_MIRROR i, IS_IDENT_SH_OK i]
  | 0xa08 => [IS_CLK_SEL_REGION i]
  | 0xa18 => [IS_CLK_STAT_VSTEP_RAISES i, IS_CLK_STAT_LOWERINGS i, IS_CLK_STAT_CLOCK_LOST i, IS_CLK_STAT_DRIFTED i]
  | 0xb00 => [IS_FENCE_CAUSE i, IS_FENCE_LASTING_HALF i, IS_FENCE_SINGLE_COPY i, IS_FENCE_LOSSES_600S i, IS_FENCE_REJOIN_FAILED i, IS_FENCE_ILIM_LOWERED i]
  | _ =>
    if 0x600 ≤ o ∧ o < 0x700 ∧ (o - 0x600) % 0x20 = 0 then [IS_SC_STATUS_STATE i ((o - 0x600) / 0x20), IS_SC_STATUS_HAS_PROGRAM i ((o - 0x600) / 0x20), IS_SC_STATUS_ISSUE_STALLS i ((o - 0x600) / 0x20)]
    else if 0x608 ≤ o ∧ o < 0x708 ∧ (o - 0x608) % 0x20 = 0 then [IS_SC_TRAP_CAUSE i ((o - 0x608) / 0x20), IS_SC_TRAP_DEFERRED i ((o - 0x608) / 0x20), IS_SC_TRAP_TRAPS i ((o - 0x608) / 0x20), IS_SC_TRAP_TPC i ((o - 0x608) / 0x20)]
    else if 0x610 ≤ o ∧ o < 0x710 ∧ (o - 0x610) % 0x20 = 0 then [IS_SC_ICACHE_MISSES i ((o - 0x610) / 0x20), IS_SC_ICACHE_CORRECTED i ((o - 0x610) / 0x20), IS_SC_ICACHE_REFETCHED i ((o - 0x610) / 0x20)]
    else if 0x618 ≤ o ∧ o < 0x718 ∧ (o - 0x618) % 0x20 = 0 then [IS_SC_ECC_CORRECTED i ((o - 0x618) / 0x20), IS_SC_ECC_UNCORRECTABLE i ((o - 0x618) / 0x20)]
    else []

/-- The fields of the register at offset `o` of the BT_ block, in one place. -/
def btFields (i : Nat) (o : Nat) : List Fld :=
  match o with
  | 0x40000 => [BT_SU_STAT_FLAGS i, BT_SU_STAT_REDUCTIONS i, BT_SU_STAT_BUF_PEAK i]
  | 0x50000 => [BT_ST_STAT_REPAIRED i, BT_ST_STAT_MISLOCKS i, BT_ST_STAT_DARK_RX i]
  | 0x50008 => [BT_ST_STALL_READY_STALLS i, BT_ST_STALL_EXT_SLOTS i]
  | 0x50010 => [BT_ST_PORT_SEL_PLANE i]
  | 0x50020 => [BT_ST_FEC_CORRECTED i, BT_ST_FEC_UNCORRECTABLE i, BT_ST_FEC_CRC_FAIL i]
  | 0x10000 => [BT_MC_LAYOUT_STACK_PAGES i, BT_MC_LAYOUT_REGIONS i, BT_MC_LAYOUT_META_BASE i]
  | 0x10028 => [BT_MC_EXTENT_USABLE i]
  | 0x10030 => [BT_MC_SCRUB_CFG_SLOW_THRESHOLD i, BT_MC_SCRUB_CFG_ENABLE i]
  | 0x10038 => [BT_MC_ELOG_HEAD i, BT_MC_ELOG_TAIL i, BT_MC_ELOG_LOST i]
  | 0x10040 => [BT_MC_XLATE_IN_OFFSET i, BT_MC_XLATE_IN_META i, BT_MC_XLATE_IN_RECORD_BYTE i]
  | 0x10048 => [BT_MC_XLATE_OUT_STACK i, BT_MC_XLATE_OUT_CHANNEL i, BT_MC_XLATE_OUT_PCH i, BT_MC_XLATE_OUT_BANK i, BT_MC_XLATE_OUT_ROW i, BT_MC_XLATE_OUT_COLUMN i, BT_MC_XLATE_OUT_VALID i, BT_MC_XLATE_OUT_RETIRED i]
  | 0x10050 => [BT_MC_SELFTEST_DONE i, BT_MC_SELFTEST_CHECKERS_OK i, BT_MC_SELFTEST_DEFECT_LINES i]
  | 0x10058 => [BT_MC_RETIRED_PAGE_ENTRIES i, BT_MC_RETIRED_BANK_ENTRIES i, BT_MC_RETIRED_PAGES_OUT i]
  | 0x20000 => [BT_MSC_STAT_HITS i, BT_MSC_STAT_MISSES i]
  | 0x20008 => [BT_MSC_ECC_CORRECTED i, BT_MSC_ECC_UNCORRECTABLE i, BT_MSC_ECC_POISON_READS i]
  | 0x20010 => [BT_MSC_FLIP_DATA_FLIP_DATA i]
  | 0x20018 => [BT_MSC_FLIP_CTL_CHECK i, BT_MSC_FLIP_CTL_MEM i, BT_MSC_FLIP_CTL_UNIT i, BT_MSC_FLIP_CTL_DONE i, BT_MSC_FLIP_CTL_ARM i]
  | 0x32000 => [BT_DM_KV_CFG_RING i, BT_DM_KV_CFG_ENABLE i, BT_DM_KV_CFG_RING_LOG2 i, BT_DM_KV_CFG_PROD_WORD i]
  | 0x32008 => [BT_DM_KV_DONE_DONE_WORD i]
  | 0x32010 => [BT_DM_KV_STAT_CONSUMED i, BT_DM_KV_STAT_BUSY i, BT_DM_KV_STAT_FAULTED i, BT_DM_KV_STAT_REASON i]
  | 0x32018 => [BT_DM_KV_FAULT_POSITION i, BT_DM_KV_FAULT_SLOT i]
  | 0x32020 => [BT_DM_KV_COUNT_LINES i, BT_DM_KV_COUNT_STALL_CYCLES i]
  | 0x33000 => [BT_DM_DG_STAT_BUSY i, BT_DM_DG_STAT_POISONED i, BT_DM_DG_STAT_MIB i]
  | 0x60000 => [BT_TH_TEMP_CD i, BT_TH_TEMP_SHOAL i, BT_TH_TEMP_BASE i, BT_TH_TEMP_SHOAL_EST i, BT_TH_TEMP_RATE i, BT_TH_TEMP_FAST i, BT_TH_TEMP_EST_LEARNED i]
  | 0x60008 => [BT_TH_ILIM_LIMIT i, BT_TH_ILIM_CURRENT i, BT_TH_ILIM_TEMP i, BT_TH_ILIM_RATE i, BT_TH_ILIM_CAP i, BT_TH_ILIM_GATING i]
  | 0x60010 => [BT_TH_STAT_DISTRUSTED i, BT_TH_STAT_STOP_CAUSE i, BT_TH_STAT_STEPS i, BT_TH_STAT_GATED_CYCLES i]
  | 0x60018 => [BT_TH_WEAR_CYCLES i, BT_TH_WEAR_WARNED i]
  | 0x60020 => [BT_TH_SEL_SENSOR i]
  | 0x50030 => [BT_ST_SPARE_CFG_SPARE_SYM i, BT_ST_SPARE_CFG_SPARE_UNC i]
  | 0x50038 => [BT_ST_COMB_IN_USE i, BT_ST_COMB_FAILED i, BT_ST_COMB_SPARE_FOR i]
  | _ =>
    if 0x10008 ≤ o ∧ o < 0x10028 ∧ (o - 0x10008) % 0x8 = 0 then [BT_MC_REGION_START_GIB i ((o - 0x10008) / 0x8), BT_MC_REGION_LEVEL i ((o - 0x10008) / 0x8), BT_MC_REGION_VALID i ((o - 0x10008) / 0x8), BT_MC_REGION_DETECT_ONLY i ((o - 0x10008) / 0x8)]
    else if 0x10100 ≤ o ∧ o < 0x10300 ∧ (o - 0x10100) % 0x40 = 0 then [BT_MC_STK_STAT_RATE i ((o - 0x10100) / 0x40), BT_MC_STK_STAT_TEMP i ((o - 0x10100) / 0x40), BT_MC_STK_STAT_REFRESH_2X i ((o - 0x10100) / 0x40), BT_MC_STK_STAT_THROTTLE i ((o - 0x10100) / 0x40), BT_MC_STK_STAT_RECOVERY i ((o - 0x10100) / 0x40), BT_MC_STK_STAT_REBUILD_PTR i ((o - 0x10100) / 0x40)]
    else if 0x10108 ≤ o ∧ o < 0x10308 ∧ (o - 0x10108) % 0x40 = 0 then [BT_MC_STK_ERASE_CHANNELS i ((o - 0x10108) / 0x40), BT_MC_STK_ERASE_FAILED i ((o - 0x10108) / 0x40)]
    else if 0x10110 ≤ o ∧ o < 0x10310 ∧ (o - 0x10110) % 0x40 = 0 then [BT_MC_STK_ECC_CORRECTED i ((o - 0x10110) / 0x40), BT_MC_STK_ECC_UNCORRECTABLE i ((o - 0x10110) / 0x40), BT_MC_STK_ECC_REFETCH_OK i ((o - 0x10110) / 0x40), BT_MC_STK_ECC_POISON_READS i ((o - 0x10110) / 0x40)]
    else if 0x10118 ≤ o ∧ o < 0x10318 ∧ (o - 0x10118) % 0x40 = 0 then [BT_MC_STK_QUEUE_READS i ((o - 0x10118) / 0x40), BT_MC_STK_QUEUE_WRITES i ((o - 0x10118) / 0x40), BT_MC_STK_QUEUE_STALL_CYCLES i ((o - 0x10118) / 0x40)]
    else if 0x10120 ≤ o ∧ o < 0x10320 ∧ (o - 0x10120) % 0x40 = 0 then [BT_MC_STK_SCRUB_PROGRESS i ((o - 0x10120) / 0x40), BT_MC_STK_SCRUB_PARTIAL i ((o - 0x10120) / 0x40), BT_MC_STK_SCRUB_LAST_LAP i ((o - 0x10120) / 0x40)]
    else if 0x10128 ≤ o ∧ o < 0x10328 ∧ (o - 0x10128) % 0x40 = 0 then [BT_MC_STK_LAP_ELAPSED i ((o - 0x10128) / 0x40), BT_MC_STK_LAP_LAPS i ((o - 0x10128) / 0x40)]
    else if 0x30000 ≤ o ∧ o < 0x30800 ∧ (o - 0x30000) % 0x40 = 0 then [BT_DM_CH_STAT_STATE i ((o - 0x30000) / 0x40), BT_DM_CH_STAT_REASON i ((o - 0x30000) / 0x40), BT_DM_CH_STAT_HALTS i ((o - 0x30000) / 0x40)]
    else if 0x30008 ≤ o ∧ o < 0x30808 ∧ (o - 0x30008) % 0x40 = 0 then [BT_DM_CH_PROGRESS_INSTR i ((o - 0x30008) / 0x40), BT_DM_CH_PROGRESS_DONE i ((o - 0x30008) / 0x40)]
    else if 0x30010 ≤ o ∧ o < 0x30810 ∧ (o - 0x30010) % 0x40 = 0 then [BT_DM_CH_LOOP01_ITER0 i ((o - 0x30010) / 0x40), BT_DM_CH_LOOP01_ITER1 i ((o - 0x30010) / 0x40), BT_DM_CH_LOOP01_DEPTH i ((o - 0x30010) / 0x40)]
    else if 0x30018 ≤ o ∧ o < 0x30818 ∧ (o - 0x30018) % 0x40 = 0 then [BT_DM_CH_LOOP23_ITER2 i ((o - 0x30018) / 0x40), BT_DM_CH_LOOP23_ITER3 i ((o - 0x30018) / 0x40)]
    else if 0x30020 ≤ o ∧ o < 0x30820 ∧ (o - 0x30020) % 0x40 = 0 then [BT_DM_CH_FAULT_OFFSET i ((o - 0x30020) / 0x40), BT_DM_CH_FAULT_TGT i ((o - 0x30020) / 0x40)]
    else if 0x30028 ≤ o ∧ o < 0x30828 ∧ (o - 0x30028) % 0x40 = 0 then [BT_DM_CH_STALL_STALL_CYCLES i ((o - 0x30028) / 0x40), BT_DM_CH_STALL_OUTSTANDING i ((o - 0x30028) / 0x40)]
    else if 0x31000 ≤ o ∧ o < 0x31020 ∧ (o - 0x31000) % 0x8 = 0 then [BT_DM_WIN_BASE i ((o - 0x31000) / 0x8), BT_DM_WIN_NODE i ((o - 0x31000) / 0x8)]
    else []

/-- The fields of the register at offset `o` of the FY_ block, in one place. -/
def fyFields (p : Nat) (o : Nat) : List Fld :=
  match o with
  | 0x0 => [FY_CFG_HOLD p]
  | 0x8 => [FY_STAT_GRANTS p, FY_STAT_PARKS p, FY_STAT_PREEMPTS p]
  | 0x10 => [FY_PORTS_PRESENT p, FY_PORTS_WITHDRAWN p]
  | 0x18 => [FY_SRC_SEL_SOURCE p]
  | 0x28 => [FY_WIRE_REQ_ONE p, FY_WIRE_REQ_LOST p, FY_WIRE_GNT_ONE p, FY_WIRE_GNT_LOST p]
  | 0x30 => [FY_RX_FLITS_FAILED p, FY_RX_DUP_DISCARD p, FY_RX_SKIPPED p]
  | _ => []

/-- The fields of the register at offset `o` of the HP_ block, in one place. -/
def hpFields (n : Nat) (o : Nat) : List Fld :=
  match o with
  | 0x0 => [HP_STAT_SPEED n, HP_STAT_WIDTH n, HP_STAT_FLIT n, HP_STAT_SRIS n, HP_STAT_MODULE_READY n, HP_STAT_NP_OUTSTANDING n]
  | 0x8 => [HP_PORT_RING_LOG2 n, HP_PORT_RING_ENABLE n, HP_PORT_RING_BASE n]
  | 0x10 => [HP_PORT_SEQ_LAST_SEQ n]
  | 0x18 => [HP_TENANCIES_BOUND n]
  | 0x20 => [HP_FILTERED_READS n, HP_FILTERED_WRITES n]
  | 0x28 => [HP_EV_CFG_IRQ n]
  | _ =>
    if 0x10000 ≤ o ∧ o < 0x10400 ∧ (o - 0x10000) % 0x80 = 0 then [HP_DM_CH_STAT_STATE n ((o - 0x10000) / 0x80), HP_DM_CH_STAT_REASON n ((o - 0x10000) / 0x80), HP_DM_CH_STAT_HALTS n ((o - 0x10000) / 0x80)]
    else if 0x10008 ≤ o ∧ o < 0x10408 ∧ (o - 0x10008) % 0x80 = 0 then [HP_DM_CH_PROGRESS_INSTR n ((o - 0x10008) / 0x80), HP_DM_CH_PROGRESS_DONE n ((o - 0x10008) / 0x80)]
    else if 0x10010 ≤ o ∧ o < 0x10410 ∧ (o - 0x10010) % 0x80 = 0 then [HP_DM_CH_LOOP01_ITER0 n ((o - 0x10010) / 0x80), HP_DM_CH_LOOP01_ITER1 n ((o - 0x10010) / 0x80), HP_DM_CH_LOOP01_DEPTH n ((o - 0x10010) / 0x80)]
    else if 0x10018 ≤ o ∧ o < 0x10418 ∧ (o - 0x10018) % 0x80 = 0 then [HP_DM_CH_LOOP23_ITER2 n ((o - 0x10018) / 0x80), HP_DM_CH_LOOP23_ITER3 n ((o - 0x10018) / 0x80)]
    else if 0x10020 ≤ o ∧ o < 0x10420 ∧ (o - 0x10020) % 0x80 = 0 then [HP_DM_CH_FAULT_OFFSET n ((o - 0x10020) / 0x80), HP_DM_CH_FAULT_TGT n ((o - 0x10020) / 0x80)]
    else if 0x10028 ≤ o ∧ o < 0x10428 ∧ (o - 0x10028) % 0x80 = 0 then [HP_DM_CH_STALL_STALL_CYCLES n ((o - 0x10028) / 0x80), HP_DM_CH_STALL_OUTSTANDING n ((o - 0x10028) / 0x80)]
    else if 0x10030 ≤ o ∧ o < 0x10430 ∧ (o - 0x10030) % 0x80 = 0 then [HP_DM_CH_PROG_OFFSET n ((o - 0x10030) / 0x80), HP_DM_CH_PROG_TGT n ((o - 0x10030) / 0x80), HP_DM_CH_PROG_TENANCY n ((o - 0x10030) / 0x80)]
    else if 0x10038 ≤ o ∧ o < 0x10438 ∧ (o - 0x10038) % 0x80 = 0 then [HP_DM_CH_HOSTBASE_HOST_BASE n ((o - 0x10038) / 0x80)]
    else if 0x10040 ≤ o ∧ o < 0x10440 ∧ (o - 0x10040) % 0x80 = 0 then [HP_DM_CH_CTL_START n ((o - 0x10040) / 0x80), HP_DM_CH_CTL_RESUME n ((o - 0x10040) / 0x80), HP_DM_CH_CTL_ABORT n ((o - 0x10040) / 0x80)]
    else if 0x10048 ≤ o ∧ o < 0x10448 ∧ (o - 0x10048) % 0x80 = 0 then [HP_DM_CH_PROGLEN_COUNT n ((o - 0x10048) / 0x80)]
    else if 0x100 ≤ o ∧ o < 0x200 ∧ (o - 0x100) % 0x10 = 0 then [HP_WIN_A_VALID n ((o - 0x100) / 0x10), HP_WIN_A_KIND n ((o - 0x100) / 0x10), HP_WIN_A_TENANCY n ((o - 0x100) / 0x10), HP_WIN_A_LISL n ((o - 0x100) / 0x10), HP_WIN_A_BAR_GIB n ((o - 0x100) / 0x10), HP_WIN_A_SIZE_GIB n ((o - 0x100) / 0x10)]
    else if 0x108 ≤ o ∧ o < 0x208 ∧ (o - 0x108) % 0x10 = 0 then [HP_WIN_B_OFFSET n ((o - 0x108) / 0x10)]
    else []

/-- The fields of the register at offset `o` of the LK_ block, in one place. -/
def lkFields (n : Nat) (o : Nat) : List Fld :=
  match o with
  | 0x0 => [LK_CTL_TARGET n, LK_CTL_RETRAIN n, LK_CTL_RESET n]
  | 0x8 => [LK_CFG_SPARE_SYM n, LK_CFG_SPARE_UNC n]
  | 0x10 => [LK_STAT_STATE n, LK_STAT_WIDTH n, LK_STAT_PEER_NODE n, LK_STAT_PEER_LINK n, LK_STAT_SPARE_TX n, LK_STAT_SPARE_RX n, LK_STAT_TENANCY n, LK_STAT_OWNED n]
  | 0x18 => [LK_MAP_TX_MAP n, LK_MAP_RX_MAP n]
  | 0x20 => [LK_FEC_SYM_CORRECTED n, LK_FEC_UNCORRECTABLE n, LK_FEC_MISLOCKS n]
  | 0x28 => [LK_RETRY_REPLAYED n, LK_RETRY_CRC_FAIL n, LK_RETRY_DUP_DISCARD n]
  | 0x30 => [LK_CREDIT_VC0 n, LK_CREDIT_VC1 n, LK_CREDIT_VC2 n, LK_CREDIT_VC3 n]
  | 0x38 => [LK_TRAIN_LAST_MS n, LK_TRAIN_RETRAINS n, LK_TRAIN_DOWNS n, LK_TRAIN_TRAIN_FAILS n]
  | 0x40 => [LK_STALL_BUFFER_FULL n, LK_STALL_CREDIT_WAIT n]
  | 0x48 => [LK_LANE_SEL_LW n]
  | _ => []

/-- The fields of the register at offset `o` of the FB_ block, in one place. -/
def fbFields (o : Nat) : List Fld :=
  match o with
  | 0x0 => [FB_NODE_NODE, FB_NODE_VALID, FB_NODE_INCARN]
  | 0x8 => [FB_CFG_HALDULA, FB_CFG_LIFE, FB_CFG_TIMEOUT]
  | 0x10 => [FB_CC_MARK_THRESH, FB_CC_WIN_INIT, FB_CC_WIN_MAX, FB_CC_AI, FB_CC_MD]
  | 0x18 => [FB_STAT_RETRIES, FB_STAT_RESENDS, FB_STAT_LATE_RESP, FB_STAT_EXPIRED]
  | 0x20 => [FB_STAT2_DUP_DISCARD, FB_STAT2_CACHE_HITS, FB_STAT2_BUSY_SENT, FB_STAT2_ECHO_RX]
  | 0x28 => [FB_RT_INVAL_NODE, FB_RT_INVAL_TENANCY, FB_RT_INVAL_ALL, FB_RT_INVAL_MGMT]
  | 0x180 => [FB_MGMT_RT_BASE, FB_MGMT_RT_VALID]
  | 0x400 => [FB_MGMT_ACL_BASE, FB_MGMT_ACL_MASK, FB_MGMT_ACL_VALID, FB_MGMT_ACL_WRITE]
  | 0x500 => [FB_HT_CTL_ACTIVE, FB_HT_CTL_SWITCH, FB_HT_CTL_DRAINING, FB_HT_CTL_REFUSED, FB_HT_CTL_INTER_BASE, FB_HT_CTL_INTER_COUNT]
  | 0x508 => [FB_HT_SEL_NODE, FB_HT_SEL_BANK]
  | 0x600 => [FB_MBOX_ADDR_OFFSET, FB_MBOX_ADDR_NODE]
  | 0x608 => [FB_MBOX_DATA_DATA]
  | 0x610 => [FB_MBOX_CTL_GO, FB_MBOX_CTL_WRITE, FB_MBOX_CTL_WIDE, FB_MBOX_CTL_BUSY, FB_MBOX_CTL_STATUS]
  | _ =>
    if 0x100 ≤ o ∧ o < 0x180 ∧ (o - 0x100) % 0x8 = 0 then [FB_TN_RT_BASE ((o - 0x100) / 0x8), FB_TN_RT_VALID ((o - 0x100) / 0x8)]
    else if 0x200 ≤ o ∧ o < 0x400 ∧ o % 8 = 0 then [FB_ACL_BASE ((o - 0x200) / 0x20) ((o - 0x200) / 8 % 4), FB_ACL_MASK ((o - 0x200) / 0x20) ((o - 0x200) / 8 % 4), FB_ACL_VALID ((o - 0x200) / 0x20) ((o - 0x200) / 8 % 4), FB_ACL_WRITE ((o - 0x200) / 0x20) ((o - 0x200) / 8 % 4)]
    else []

/-- The fields of the register at offset `o` of the SEC_ block, in one place. -/
def secFields (o : Nat) : List Fld :=
  match o with
  | 0x100000 => [SEC_STAT_SLOT, SEC_STAT_FALLBACK, SEC_STAT_LIFECYCLE, SEC_STAT_STAGED, SEC_STAT_ACTIVITY, SEC_STAT_LAST_REASON, SEC_STAT_ACTIVATIONS]
  | 0x100008 => [SEC_SVN_COUNTER, SEC_SVN_ACTIVE_SVN]
  | 0x100010 => [SEC_CFG_HOST_UPDATE]
  | 0x100018 => [SEC_LOCK_CLOSED, SEC_LOCK_HOLDER, SEC_LOCK_REVOKED, SEC_LOCK_ROOT]
  | 0x100020 => [SEC_STAGE_STAGED_SVN, SEC_STAGE_PROGRESS]
  | _ =>
    if 0x100040 ≤ o ∧ o < 0x100070 ∧ (o - 0x100040) % 0x8 = 0 then [SEC_DIGEST_BYTES ((o - 0x100040) / 0x8)]
    else if 0x100080 ≤ o ∧ o < 0x1000b0 ∧ (o - 0x100080) % 0x8 = 0 then [SEC_STAGED_DIGEST_BYTES ((o - 0x100080) / 0x8)]
    else []

/-- The fields of one copy of IS_BOND_GROUP. -/
def IS_BOND_GROUP_fields (i g : Nat) : List Fld := [IS_BOND_GROUP_SPARES i g, IS_BOND_GROUP_HALF i g, IS_BOND_GROUP_INTERIM i g, IS_BOND_GROUP_HEALTH i g, IS_BOND_GROUP_CRC_ERRORS i g]

/-- The fields of one copy of BT_ST_PORT. -/
def BT_ST_PORT_fields (i p : Nat) : List Fld := [BT_ST_PORT_PRESENT i p, BT_ST_PORT_WIDTH i p, BT_ST_PORT_WITHDRAWN i p, BT_ST_PORT_MISLOCKED i p, BT_ST_PORT_PHYS i p, BT_ST_PORT_ON_L16 i p, BT_ST_PORT_ON_L17 i p, BT_ST_PORT_CORRECTED i p]

/-- The fields of one copy of FY_SRC. -/
def FY_SRC_fields (p j : Nat) : List Fld := [FY_SRC_QUEUED p j, FY_SRC_FAIR p j, FY_SRC_ROLLBACKS p j, FY_SRC_FULL p j, FY_SRC_WIDTH p j]

/-- The fields of one copy of LK_LANE. -/
def LK_LANE_fields (n l : Nat) : List Fld := [LK_LANE_RX_POWER n l, LK_LANE_TX_POWER n l, LK_LANE_LASER_OK n l, LK_LANE_RING_LOCKED n l, LK_LANE_SYM_CORRECTED n l]

/-- The fields of one copy of FB_HT_DATA. -/
def FB_HT_DATA_fields (b m : Nat) : List Fld := [FB_HT_DATA_LINK b m, FB_HT_DATA_VALID b m]

/-- The fields of one copy of IS_CLK_REGION. -/
def IS_CLK_REGION_fields (i r : Nat) : List Fld := [IS_CLK_REGION_MARGIN i r, IS_CLK_REGION_MIN_MARGIN i r, IS_CLK_REGION_VSTEPS i r, IS_CLK_REGION_PLL_LOCKED i r, IS_CLK_REGION_DRIFT i r]

/-- The fields of one copy of BT_TH_SENSOR. -/
def BT_TH_SENSOR_fields (i j : Nat) : List Fld := [BT_TH_SENSOR_TEMP i j, BT_TH_SENSOR_VALID i j, BT_TH_SENSOR_DISTRUSTED i j, BT_TH_SENSOR_PEAK i j]

/-- The fields of the register at BAR0 offset `off`, the selected registers left out (R24, R8: none at a reserved offset). -/
def plainFields (off : Nat) : List Fld :=
  if off < 0x100000 then lhFields off
  else if off < 0x200000 then secFields (off - 0x100000 + 0x100000)
  else if off < 0x300000 then hpFields ((off - 0x200000) / 0x40000) ((off - 0x200000) % 0x40000)
  else if off < 0x400000 then tnFields ((off - 0x300000) / 0x10000) ((off - 0x300000) % 0x10000)
  else if off < 0x600000 then lkFields ((off - 0x400000) / 0x10000) ((off - 0x400000) % 0x10000)
  else if off < 0x700000 then fbFields (off - 0x600000)
  else if off < 0x740000 then fyFields ((off - 0x700000) / 0x10000) ((off - 0x700000) % 0x10000)
  else if off < 0x1000000 then []
  else if off < 0x2000000 then btFields ((off - 0x1000000) / 0x100000) ((off - 0x1000000) % 0x100000)
  else if off < 0x3000000 then isFields ((off - 0x2000000) / 0x100000) ((off - 0x2000000) % 0x100000)
  else []

end Sys2Proof.Machine
end

