-- ==== Sys2Proof/Machine/State.lean ====
section
/-!
DEFINITION. The state of the module: plain data, every piece of state the manual gives it, and the queue of waiting
commands. Numbered parts stand in sparse tables whose unlisted entries read as the part's reset value.
-/
namespace Sys2Proof.Machine

open Sys2Proof

/-! ### Compute die (03, 04, 05, 06) -/

/-- One wide accumulator: Q and its element state (R66). `spec`: 0 finite, 1 +Inf, 2 −Inf, 3 NaN. -/
structure AccEl where
  q : BitVec 128 := 0
  spec : BitVec 2 := 0
  poison : Bool := false
  sat : Bool := false
  deriving DecidableEq, Repr

/-- An accumulator bank (R58, R66, R67, R69, R73, R74, R77): elements keyed row × 128 + column. -/
structure Bank where
  el : Tbl AccEl := []
  anchor : Option Int := none
  opened : Bool := false
  /-- Rows that clearing drains have cleared since the bank last became open (R77). -/
  cleared : BitVec 128 := 0
  /-- Row term counters (R74). -/
  terms : Tbl Nat := []
  flags : BitVec 8 := 0
  deriving DecidableEq, Repr

/-- A filled weight buffer (R58, R64): format, sparsity, exponent tag, the tile's bits as R63 packs them,
the columns marked poisoned and the address of the first
poisoned word (R86). -/
structure WBuf where
  fmt : BitVec 5
  sparse : Bool
  ew : Int
  tile : Nat
  badCols : BitVec 128
  badAt : Nat
  deriving DecidableEq, Repr

/-- The vector instructions as a queue holds them. -/
inductive VOp where
  | vadd | vsub | vmul | vdiv | vsqrt | vmin | vmax | vfma | vfms | vfnma | vabs | vneg
  | viadd | visub | vimul | vimulh | vand | vor | vxor | vsll | vsrl | vsra | vimin | vimax
  | vcmp | mand | mor | mxor | mandn | vcvt | vmov | vsel | vbcast
  | vexp2 | vlog2 | vrcp | vrsq | vsin | vcos | vrsum | vrmax | vrmin
  | smxInit | smxStep | smxMerge | smxRead | smxWrite | vld | vst | vcg | vperm | vrot | vcwr | vcww | vcwrc
  deriving DecidableEq, Repr

/-- An instruction as a unit's queue holds it, with what it captured at issue (R132). -/
inductive UnitOp where
  /-- `x`, `y`: the scalar registers named by vs1 and vs2; `pos`: the core position; `bad`: cw.seed was uncorrectable. -/
  | vec (op : VOp) (a : VArgs) (x y seed step : Word) (pos : Nat) (bad : Bool)
  | wload (buf : Bool) (fmt : BitVec 5) (sp : Bool) (addr : Word)
  | mac (bank : Fin 4) (buf : Bool) (fmt : BitVec 5) (rows r0 : Nat) (addr stride : Word) (prescan : Bool)
  | scan (bank : Fin 4) (buf : Bool) (fmt : BitVec 5) (rows : Nat) (addr stride : Word) (ew : Option Int)
  | anchor (bank : Fin 4) (v : Word)
  | zero (bank : Fin 4)
  | drain (bank : Fin 4) (ofmt : BitVec 5) (first count : Nat) (addr stride : Word) (clr stoch rule1 : Bool)
      (seed step stream base : Word) (bad : Bool)
  deriving DecidableEq, Repr

/-- A queued instruction: issue number, issuing scalar core and pc. -/
structure QOp where
  no : Nat
  sc : Nat
  pc : Word
  op : UnitOp
  deriving DecidableEq, Repr

/-- A deferred trap found by a unit and not yet reported (R115, R117). -/
structure DTrap where
  sc : Nat
  cause : Nat
  tval : Word
  deriving DecidableEq, Repr

/-- The queue side of an array or a vector core (R108, R117, R199). -/
structure Issue where
  queue : List QOp := []
  /-- Discarding everything from its scalar core until TRET (R117). -/
  discard : Bool := false
  fault : Option DTrap := none
  /-- The head of the queue has its mesh window (R200). -/
  granted : Bool := false
  /-- Index after the last mesh window taken in the frame. -/
  wpos : Nat := 0
  deriving DecidableEq, Repr

structure MatArray where
  buf0 : Option WBuf := none
  buf1 : Option WBuf := none
  banks : Tbl Bank := []
  iss : Issue := {}
  deriving DecidableEq, Repr

/-- A vector core (R89, R101, R105): registers of 128 lanes of 32 bits, lane j in bits [32j + 31 : 32j]. -/
structure VecCore where
  v : Tbl (BitVec 4096) := []
  /-- Lane poison bits of each register. -/
  vp : Tbl (BitVec 128) := []
  /-- m1–m7; m0 is not stored (R90). -/
  m : Tbl (BitVec 128) := []
  vrnd : BitVec 2 := 0
  vflags : BitVec 5 := 0
  smxMx : Tbl (BitVec 4096) := []
  smxSm : Tbl (BitVec 4096) := []
  smxP : Tbl (BitVec 128) := []
  iss : Issue := {}
  deriving DecidableEq, Repr

/-- What a scalar core waits for (R166 to R174). `before`: issue number of the waiting instruction; `ok`: the condition
held at issue or at a change of the word since. -/
inductive Wait where
  | none
  | sync (arrays : BitVec 8) (vcs : BitVec 4) (xfer : Bool) (before : Nat)
  | waitc (k : Nat) (v : BitVec 32)
  | fence (fabric ferry : Bool) (before since : Nat)
  | flagWait (addr : Nat) (v : Word) (rel : Nat) (ok : Bool)
  | barrier (addr count before : Nat) (sent : Bool)
  | fend (before : Nat)
  deriving DecidableEq, Repr

/-- A transfer instruction of a scalar core's queue (R157 to R162). -/
inductive XKind where
  | xfMove (dst src len : Nat)
  | stSend (src xfer : Nat)
  | stRecv (dst xfer : Nat)
  | fyRd (dst addr lines : Nat)
  | fyWr (src addr lines : Nat)
  | fbRd (line node off : Nat)
  | fbWr (line node off : Nat) (mask : BitVec 128)
  | fbAtom (rd : Reg) (node off aop : Nat) (opnd cmp : Word)
  deriving DecidableEq, Repr

/-- A transfer not yet completed: lines (or legs) still outstanding, its status, an atomic's old value. -/
structure Xfer where
  no : Nat
  pc : Word
  kind : XKind
  cnt : Nat
  left : Nat
  status : Nat := 0
  /-- Address of the first poisoned word, for the event's DETAIL. -/
  detail : Nat := 0
  val : Word := 0
  deriving DecidableEq, Repr

/-- A release whose signal has not been sent (R173). `kind`: 0 FLAG.SET, 1 FLAG.ADD. -/
structure Release where
  no : Nat
  kind : Nat
  addr : Nat
  val : Word
  deriving DecidableEq, Repr

/-- A scalar core (R109, R110, R112, R113, R130, R155, R156). -/
structure Core where
  g : Tbl Word := []
  f : Tbl Word := []
  /-- Poison marks of the g and f registers and of control words (R110, R165). -/
  pg : BitVec 32 := 0
  pf : BitVec 32 := 0
  pcw : Tbl Bool := []
  pc : Word := 0
  /-- Control words by number (R130, R155, R156), those the scalar core holds. -/
  cw : Tbl Word := []
  /-- The loaded image holds a program section for the core, and the section's bytes (R56, R111). -/
  prog : Bool := false
  sect : Nat := 0
  wait : Wait := .none
  xfers : List Xfer := []
  rels : List Release := []
  issueNo : Nat := 0
  /-- Instruction-cache lines present, `true` when marked bad (R113, R114). -/
  icache : Tbl Bool := []
  /-- A deferred trap that waits for a BARRIER's release (R117). -/
  pend : Option DTrap := none
  deriving DecidableEq, Repr

/-- A route of a mesh schedule (R197). -/
structure MeshRoute where
  arrays : Nat
  vcores : Nat
  sectors : Nat
  groups : Nat
  write : Bool
  deriving DecidableEq, Repr

/-- A window of a mesh schedule (R197). -/
structure MeshWin where
  start : Nat
  len : Nat
  route : Nat
  op : Nat
  deriving DecidableEq, Repr

/-- An island's mesh: its schedule, schedule time, the windows started or skipped in the frame (R196 to R202). -/
structure Mesh where
  routes : List MeshRoute := []
  wins : List MeshWin := []
  t : Nat := 0
  done : Tbl Bool := []
  /-- Cycles held since the plan slot began, less the 800 of each stall slot: how far t is behind its slot (R196, R201). -/
  lag : Int := 0
  /-- Words that a window of several units has read, by window and then by offset: the value, and whether it was bad (R199). -/
  shared : Tbl (Tbl (BitVec 64 × Bool)) := []
  deriving DecidableEq, Repr

/-- A pattern of flipped bits a stored word carries (R296): data bits and check bits. -/
structure Flip where
  data : BitVec 64
  check : BitVec 8
  deriving DecidableEq, Repr

/-- Four 64-bit words: an event record (R541) or an error-log record (R299). -/
structure Rec4 where
  w0 : Word := 0
  w1 : Word := 0
  w2 : Word := 0
  w3 : Word := 0
  deriving DecidableEq, Repr

/-- An event that has arisen and is not yet sampled (R49, R52). -/
structure Ev where
  code : Nat
  isl : Nat
  src : Nat
  detail : Nat
  count : Nat := 1
  /-- Tenancies it acts on beyond the island's own (R542). -/
  tens : List Nat := []
  deriving DecidableEq, Repr

/-- Bits of an HBM page that have changed since it was stored: the patterns on its code symbols (0 to 2,047 data, then parity) and
on the line CRCs that its record holds (R282, R283, R286). -/
structure Damage where
  syms : Tbl (BitVec 16) := []
  crcs : Tbl (BitVec 32) := []
  deriving DecidableEq, Repr

/-- A line of a memory-side cache: dirty or clean, and its way in the set (R279, R280). -/
structure MscLine where
  dirty : Bool
  way : Nat
  deriving DecidableEq, Repr

/-- A host command taken from a ring or the management path (R427, R431, R436). `key`: 0–15 a tenancy's queue, 16–19 a
port's, 20 the management path's own; `mgmt`: answered by a message; `ops`: bytes 0x10–0x3F of the record. -/
structure HCmd where
  key : Nat
  mgmt : Bool := false
  cnt : Nat := 0
  op : Nat
  flags : Nat := 0
  ten : Nat
  seq : Nat := 0
  ops : Nat := 0
  /-- The record was uncorrectable or poisoned (R429). -/
  bad : Bool := false
  /-- Bytes 0x03–0x07 of the record were zero. -/
  tidy : Bool := true
  deriving DecidableEq, Repr

/-- A command queue (R427 to R430): counts, commands taken and not begun, the one under way, islands it waits for. -/
structure HRing where
  cons : Nat := 0
  cpl : Nat := 0
  /-- Completions not yet written. -/
  pend : Nat := 0
  q : List HCmd := []
  cur : Option HCmd := none
  /-- Islands whose fill or zeroing the command under way waits for. -/
  wait : Nat := 0
  /-- EV_CMD_RING_FAULT was raised and the difference has not been valid since (R428). -/
  fault : Bool := false
  /-- The tick of the last sampling. -/
  last : Option Nat := none
  deriving DecidableEq, Repr

/-- What software may set in a port's configuration space (R414): the bases of BAR0 and BAR2, the size of BAR2 as log2 of GiB,
the power state (D3hot), Max Payload Size as log2 of 128-byte units, whether the completion timeout is disabled. -/
structure Pcie where
  bar0 : Nat := 0
  bar2 : Nat := 0
  bar2Size : Nat := 6
  d3hot : Bool := false
  maxPayload : Nat := 0
  timeoutOff : Bool := false
  deriving DecidableEq, Repr
/-- A ferry packet (R246, R247). `data`: line data, or operand + 2^64 × compare, flag value, barrier count;
`tile`: ORIGIN. -/
structure Pkt where
  typ : Nat
  vc : Nat
  src : Nat
  dst : Nat
  tile : Bool
  tag : Nat := 0
  pseq : Nat := 0
  status : Nat := 0
  addr : Nat := 0
  aop : Nat := 0
  poison : Nat := 0
  mask : Nat := 0
  data : Nat := 0
  deriving DecidableEq, Repr

/-- Who waits for the response to a ferry or fabric request. -/
inductive Waiter where
  /-- Line `line` of transfer `no` of a scalar core. -/
  | xfer (core no line : Nat)
  /-- A line of a DMA channel's stream: channel key, line number; a read or a write. -/
  | dmaRead (ch seq : Nat)
  | dmaWrite (ch seq : Nat)
  /-- A DMA SIGNAL or descriptor word write. -/
  | dmaSignal (ch : Nat)
  /-- A line of a BAR2 read of a host port: request number, line. -/
  | host (port req line : Nat)
  /-- A posted BAR2 write of a host port. -/
  | hostWrite (port : Nat)
  /-- A repair write of a strait segment. -/
  | repair (ten leg seg lane off : Nat)
  /-- Line `seq` of the walker of base tile `b`. -/
  | kv (b seq : Nat)
  /-- A mailbox access on VC3. -/
  | mbox
  /-- A core's transfer that the reset of its island ended: the response is taken and dropped. -/
  | gone (isl : Nat)
  deriving DecidableEq, Repr

/-- A record a base tile has chosen an arbiter for (R255): its packets, how many were sent. -/
structure Post where
  rid : Nat
  pkts : List Pkt
  sent : Nat := 0
  acked : Bool := false
  /-- Windows left before the packets of a finished record may go (R263). -/
  final : Option Nat := none
  /-- An island-origin record of an island that has fallen (R265): what is not sent is dropped. -/
  dead : Bool := false
  deriving DecidableEq, Repr

/-- A grant held for the next window. -/
structure Grant where
  rid : Nat
  dest : Nat
  lines : Nat
  guarded : Bool
  deriving DecidableEq, Repr

/-- A packet held for PSEQ order, with the plane whose credit it holds (R249, R260). -/
structure Held where
  plane : Nat
  pkt : Pkt
  deriving DecidableEq, Repr

/-- A repair notice as REPAIR_A and REPAIR_B carry it (R226, R252): the physical island that sends the leg, the leg, logical plane and
lane, SEG and XFER. -/
structure Notice where
  sender : Nat
  leg : Nat
  plane : Nat
  lane : Nat
  seg : Nat
  xfer : Nat
  deriving DecidableEq, Repr

/-- A request-frame entry (R252). -/
inductive ReqEntry where
  | request (dest vc : Nat) (tile : Bool) (size count rid : Nat)
  | credit (vc freed : Nat)
  | status (sender : Nat) (failed : Bool) (firstBad : Nat) (follow : Bool)
  | release (word : Nat)
  | repair (n : Notice)
  deriving DecidableEq, Repr

/-- A grant-frame entry (R253). -/
inductive GrantEntry where
  | grant (dest : Nat) (guarded : Bool) (rid lines : Nat) (final : Bool)
  | parked (rid : Nat)
  | preempted (rid done : Nat)
  | rollback (rid done : Nat)
  | rx (sender : Nat) (guarded : Bool)
  | release (isl word : Nat) (again : Bool)
  | repair (n : Notice) (receiver : Nat)
  | returned (rid done : Nat)
  deriving DecidableEq, Repr

/-- A strait segment the sender has been asked to resend: who asked. -/
structure Resend where
  recv : Nat
  n : Notice
  deriving DecidableEq, Repr

/-- The ferry side of a base tile. -/
structure Tile where
  /-- Accepted work that has no record yet, each a run of packets of one stream and size. -/
  work : List (List Pkt) := []
  /-- Records per arbiter. -/
  posts : Tbl (List Post) := []
  /-- Next PSEQ to issue, and next expected, by stream (R249). -/
  issued : Tbl Nat := []
  expect : Tbl Nat := []
  /-- Held packets, oldest first. -/
  hold : List Held := []
  /-- Same-tile traffic waiting to be served (R566). -/
  here : List Pkt := []
  /-- Outstanding transaction tags. -/
  tags : Tbl Waiter := []
  /-- STATUS entries to send, by plane; LOST flags; the failing sender of the window before (R262). -/
  stat : Tbl ReqEntry := []
  lost : Tbl Bool := []
  failedFrom : Tbl Nat := []
  /-- Cells freed since start-up, by plane × 4 + VC (R252). -/
  freed : Tbl Nat := []
  /-- Releases and repair notices posted and not yet acknowledged. -/
  rels : List Nat := []
  notices : List Notice := []
  /-- Repair notices received and not yet resent. -/
  repairs : List Resend := []
  grants : Tbl (List Grant) := []
  rx : Tbl (Nat × Bool) := []
  /-- Barrier words released at the start of the next window: island × 2^17 + word. -/
  released : List Nat := []
  /-- Words whose first broadcast copy (REPEAT 0) arrived, with the window of its frame (R254). -/
  seen : List (Nat × Nat) := []
  /-- The last PSEQ that the island had issued on each of its streams when it fell, until the stream's SKIP is sent (R265). -/
  fallen : Tbl Nat := []
  /-- PSEQ values of a stream discarded under SKIP: the first, and how many (R266). -/
  skipped : Tbl (Nat × Nat) := []
  deriving DecidableEq, Repr

/-- A record in an arbiter's queue (R255), oldest first in the list. `last`: packets granted for the present window. -/
structure ARec where
  src : Nat
  rid : Nat
  dest : Nat
  vc : Nat
  tile : Bool
  size : Nat
  count : Nat
  done : Nat := 0
  fresh : Bool := true
  last : Nat := 0
  /-- A completed record is kept two windows (R262). -/
  age : Nat := 0
  deriving DecidableEq, Repr

/-- What a connection carried in a window, for rollback (R262): record, first packet, packets, first cell. -/
structure Sent where
  src : Nat
  dst : Nat
  rid : Nat
  first : Nat
  count : Nat
  size : Nat
  vc : Nat
  cell : Nat
  deriving DecidableEq, Repr

/-- An arbiter FY0–FY3 (R255 to R262). -/
structure Arbiter where
  recs : List ARec := []
  /-- Destination of each matched source in the present window. -/
  perm : Tbl Nat := []
  hold : Tbl Nat := []
  /-- Cells granted, freed, rolled back by destination × 4 + VC (R260). -/
  granted : Tbl Nat := []
  freed : Tbl Nat := []
  rolled : Tbl Nat := []
  /-- Records rolled back since the last arbitration, by source × 64 + RID: packets done after it (R262). -/
  backs : Tbl Nat := []
  /-- What was granted for the window before (w − 1) and for the present window (w). -/
  prev : List Sent := []
  cur : List Sent := []
  inbox : Tbl (List ReqEntry) := []
  inLost : Tbl Bool := []
  /-- Releases to repeat in the next grant frames (R254). -/
  again : List (Nat × Nat) := []
  frames : Tbl (List GrantEntry) := []
  /-- Releases taken and not yet broadcast: island, word (R270). -/
  rels : List (Nat × Nat) := []
  /-- Entries that found no room in the grant frame before. -/
  owed : Tbl (List GrantEntry) := []
  /-- ROLLBACK and RETURNED entries of grant frames that a base tile lost (R254). -/
  unsure : Tbl (List GrantEntry) := []
  /-- Window whose arbitration was made. -/
  arbDone : Nat := 0
  /-- The present window is a quiet window; lane changes waiting for one (R242): port, lane, present, or a spare. -/
  quiet : Bool := false
  laneChanges : List (Nat × Nat × Nat) := []
  /-- Lane changes that take force as the quiet window granted for them begins. -/
  due : List (Nat × Nat × Nat) := []
  deriving DecidableEq, Repr

/-- What a receiver hears on a plane in the present window. -/
structure Wire where
  src : Nat
  guarded : Bool
  /-- Cells sent, and those accepted that complete no packet yet. -/
  cells : List Nat
  rest : List Nat := []
  /-- Next flit index; the index of the first failed flit; rejecting after a failure in the window before. -/
  next : Nat := 0
  bad : Option Nat := none
  follow : Bool := false
  deriving DecidableEq, Repr

/-- A fabric packet (R354). `data`: line data, or operand + 2^64 × compare, old value, NACK code, ASTAT answer;
`odd`: some zero field was nonzero. -/
structure FPkt where
  typ : Nat
  vc : Nat
  haldula : Bool := false
  mark : Bool := false
  echo : Bool := false
  retry : Bool := false
  syn : Bool := false
  phase : Bool := false
  epoch : Nat := 0
  poison : Bool := false
  srcNode : Nat := 0
  dstNode : Nat := 0
  srcUnit : Nat := 0
  hops : Nat := 0
  tag : Nat := 0
  eseq : Nat := 0
  incarn : Nat := 0
  life : Nat := 0
  hop : Nat := 0
  offset : Nat := 0
  path : Nat := 0
  aop : Nat := 0
  mask : Nat := 0
  data : Nat := 0
  odd : Bool := false
  deriving DecidableEq, Repr

/-- A fabric packet a link has handed to the fabric engine: the packet, when it came. -/
structure FIn where
  pkt : FPkt
  at_ : Nat
  /-- Received before the link last went DOWN: its cells are no longer counted (R337). -/
  old : Bool := false
  deriving DecidableEq, Repr

/-- A received codeword that waits for the other lanes of its round (R331): codeword count, position, the flit when it decoded where it belongs. -/
structure RxCw where
  count : Nat
  pos : Nat
  flit : Option Nat
  deriving DecidableEq, Repr

/-- A DATA flit kept for retry (R335): LSEQ, its cells, how often it was sent. -/
structure Kept where
  seq : Nat
  cells : List Nat
  sends : Nat
  deriving DecidableEq, Repr

/-- A link engine (R326 to R349), beside its registers. Times are module slot ticks. -/
structure Lk where
  /-- Packets waiting to be sent, and the cells of the one being cut into flits. -/
  txq : List FPkt := []
  part : List Nat := []
  /-- Packets sent and not yet acknowledged, with the LSEQ of their last flit. -/
  flight : List (FPkt × Nat) := []
  kept : List Kept := []
  nextSeq : Nat := 0
  /-- Next kept flit to resend, after a NAK. -/
  resend : Option Nat := none
  expect : Nat := 0
  /-- NAK goes in the next flit; when NAK was first and last set for the expected flit. -/
  nak : Bool := false
  nakFirst : Option Nat := none
  nakLast : Nat := 0
  /-- Cells sent, freed by the peer, freed here, by channel (R337). -/
  sent : Tbl Nat := []
  peerFreed : Tbl Nat := []
  freed : Tbl Nat := []
  rxCells : List Nat := []
  inq : List FIn := []
  /-- The next round to take; the count of a position's next codeword; codewords that wait for other lanes (R331). -/
  rxAt : Nat := 0
  rxCnt : Tbl Nat := []
  rxWait : List RxCw := []
  /-- Codeword count, flits since the last MARKER, the STATE of a MARKER that is due. -/
  round : Nat := 0
  sinceMark : Nat := 0
  marker : Option Nat := none
  /-- When the present state began, when a flit was last accepted, when training failed. -/
  since : Nat := 0
  lastRx : Nat := 0
  failedAt : Option Nat := none
  trainAt : Nat := 0
  /-- QUIET was asked by either side (R342); when the MARKER in state QUIET was sent; the peer's has come. -/
  quieting : Bool := false
  quietSent : Option Nat := none
  peerQuiet : Bool := false
  /-- Back from RETRAIN: the next accepted flit's ACK says where resending begins (R340). -/
  fromAck : Bool := false
  /-- Pending lane-map changes: the map and the count at which it takes force (R345). -/
  swTx : Option (Nat × Nat) := none
  swRx : Option (Nat × Nat) := none
  /-- Lane named in REQ, 15 none; a spare that waits for the change under way. -/
  req : Nat := 15
  waiting : List Nat := []
  /-- Mislocked positions and when their re-lock began (R344). -/
  relock : Tbl Nat := []
  /-- Uncorrectable codewords of a position in the present second, and symbol corrections in the present 2^20 codewords. -/
  unc : Tbl Nat := []
  uncFrom : Nat := 0
  sym : Tbl Nat := []
  symFrom : Nat := 0
  /-- Scrambler state and half block by position (R329). -/
  scr : Tbl Nat := []
  half : Tbl (List Bool) := []
  /-- One-way delay in 100 ns, measured at IDENTIFY (R358). -/
  delay : Nat := 0
  deriving DecidableEq, Repr

/-- The mailbox's request (R374): a write, 8 bytes wide, node, offset, data; it waits at a bound. -/
structure Mbox where
  write : Bool
  wide : Bool
  node : Nat
  off : Nat
  data : Nat
  held : Bool := true
  deriving DecidableEq, Repr

/-- What a fabric packet that crosses the base as ferry traffic is for (R241, R357). -/
inductive CrossKind where
  /-- To the link engine it leaves by: a packet of this module, or one on its way through. -/
  | out | transit
  /-- To its target island: a request that the link brought, a response for a unit of this module. -/
  | request | answer
  deriving DecidableEq, Repr

/-- A fabric packet crossing the base (R13, R241): what for, the link, when it set out. -/
structure Cross where
  kind : CrossKind
  link : Nat
  pkt : FPkt
  at_ : Nat
  deriving DecidableEq, Repr

/-- A request this module has originated (R355 to R363). -/
structure FReq where
  pkt : FPkt
  unit : Nat
  dunit : Nat
  ten : Nat
  who : Waiter
  first : Nat
  lastTx : Nat
  retries : Nat := 0
  resends : Nat := 0
  /-- Waits 10 µs after NACK BUSY, from this time. -/
  busy : Option Nat := none
  /-- Link it last left by. -/
  link : Nat := 32
  /-- An atomic that exhausted its retries (R363); the ATOMIC_STATUS commands that ask its outcome; when the query was last sent. -/
  unknown : Bool := false
  query : List HCmd := []
  queryAt : Option Nat := none
  deriving DecidableEq, Repr

/-- A source stream context (R359, R363). -/
structure SCtx where
  unit : Nat
  node : Nat
  dunit : Nat
  vc : Nat
  eseq : Nat := 0
  syn : Bool := true
  /-- Nothing new until every outstanding request has completed. -/
  blocked : Bool := false
  lastAt : Nat := 0
  deriving DecidableEq, Repr

/-- A destination stream context (R359, R360). -/
structure DCtx where
  node : Nat
  unit : Nat
  dunit : Nat
  vc : Nat
  incarn : Nat
  expect : Nat
  /-- Held early packets with the link they arrived on. -/
  held : List (FPkt × Nat) := []
  lastAt : Nat := 0
  deriving DecidableEq, Repr

/-- A result-cache entry (R365). `code`: 0 applied, else the NACK code of a refusal. -/
structure RCache where
  tile : Nat
  node : Nat
  unit : Nat
  incarn : Nat
  tag : Nat
  eseq : Nat
  old : Nat
  code : Nat
  at_ : Nat
  deriving DecidableEq, Repr

/-- A send window in 1/256 of a request (R369). -/
structure SWin where
  unit : Nat
  node : Nat
  w : Nat
  sinceCut : Nat := 0
  lastAt : Nat := 0
  deriving DecidableEq, Repr

/-- A change entry of the crossing plan (R216). -/
structure Change where
  slot : Nat
  plane : Nat
  perm : Nat
  deriving DecidableEq, Repr

/-- A transfer entry (R216). `src`: 0 shoal, 1 sender's HBM. -/
structure XferEnt where
  kind : Nat
  src : Nat
  bytes : Nat
  srcAddr : Nat
  legFirst : Nat
  legCount : Nat
  sum : Nat
  deriving DecidableEq, Repr

/-- A leg entry (R216). -/
structure LegEnt where
  snd : Nat
  rcv : Nat
  plane0 : Nat
  planes : Nat
  slot0 : Nat
  slots : Nat
  deriving DecidableEq, Repr

structure Plan where
  changes : List Change := []
  xfers : List XferEnt := []
  legs : List LegEnt := []
  deriving DecidableEq, Repr

/-- A sum program entry (R233). -/
structure SumEnt where
  mode : Nat
  inFmt : Nat
  outFmt : Nat
  loc : Nat
  anchor : Int
  locAddr : Nat
  deriving DecidableEq, Repr

/-- A LINK_MAP entry (R347), with the physical link it is bound to. -/
structure LinkEnt where
  phys : Nat
  peerNode : Nat
  peerLink : Nat
  bound : Nat
  deriving DecidableEq, Repr

/-- A scalar core's ST.SEND or ST.RECV: core key, transfer number, local-view address. -/
structure Posted where
  core : Nat
  no : Nat
  addr : Nat
  deriving DecidableEq, Repr

/-- A leg in the present frame (R221 to R232). -/
structure LegRun where
  /-- Slots of the leg read into the transmit buffer, and slots served. -/
  filled : Nat := 0
  served : Nat := 0
  /-- Buffered slots by SEG: the bits and the poisoned words. -/
  tx : Tbl (Nat × List Nat) := []
  /-- Segments landed, and segments failed with the tick of the failure, by SEG × 1024 + lane. -/
  landed : Tbl Bool := []
  failed : Tbl Nat := []
  /-- Lines of a repair still unacknowledged, by segment; segments deferred to an extension slot (R228). -/
  repairing : Tbl Nat := []
  deferred : List Nat := []
  dark : Bool := false
  /-- Dark segments received, by SEG × 1024 + lane (R232). -/
  darkRx : List Nat := []
  poison : Bool := false
  /-- Lanes that stayed unlit, by SEG × 64 + plane (R232). -/
  unlit : Tbl Nat := []
  /-- A REDUCE's leaf bytes and its poisoned words. -/
  buf : Nat := 0
  bufBad : List Nat := []
  /-- Tenancy slot ticks of the frame when its last slot was served. -/
  lastTick : Option Nat := none
  deriving DecidableEq, Repr

/-- A transfer in the present frame (R158, R223, R224). -/
structure XferRun where
  /-- By logical island. -/
  send : Tbl Posted := []
  recv : Tbl Posted := []
  sendDone : Tbl Bool := []
  recvDone : Tbl Bool := []
  deriving DecidableEq, Repr

/-- A halt that waits for its tick (R50, R539): 1 after commit (HC), 2 at the frame boundary without commit (HB, HI, HS),
3 at the next tenancy slot tick (HT); the event's code, 0 for a command. -/
structure PHalt where
  kind : Nat
  code : Nat
  deriving DecidableEq, Repr

/-- A tenancy's run (R36 to R50), beside its TN_ registers. -/
structure TenRun where
  halts : List PHalt := []
  /-- START has placed the first frame tick at the next module slot tick (R27). -/
  fresh : Bool := false
  /-- Slots counted against the overrun allowance in the frame (R42). -/
  counted : Nat := 0
  /-- A lowering of the operating point is due at the next slot tick (R46). -/
  lower : Bool := false
  /-- Frames to commit before a raise (R448). -/
  hold : Nat := 0
  /-- Step 6 of R36 is deferred, and by what: bit 0 R48, bit 1 R398, bit 2 R410, bit 3 R531; slots of the pause. -/
  await : Bool := false
  pause : Nat := 0
  pauseSlots : Nat := 0
  /-- Tenancy slots since the frame started, cw.seed of the program cores then, a throttle was in force at some tick. -/
  slots : Nat := 0
  seeds : List Nat := []
  throttled : Bool := false
  /-- INPUT_DIGEST of the frame under way, once complete (R408). -/
  input : Option (Nat × Bool) := none
  /-- Slot 0 of the frame has not begun: its legs are not ready (R221). -/
  pend0 : Bool := false
  /-- EV_TIMING_DEGRADED is in force (R494). -/
  degraded : Bool := false
  /-- Islands to power down at the frame tick (R479). -/
  down : Nat := 0
  /-- CORE current summed over the frame's module slot ticks, by island, and the ticks (R484). -/
  amps : Tbl Nat := []
  ampTicks : Nat := 0
  deriving DecidableEq, Repr

/-- A repair decided and not yet in force (R491, R447). -/
inductive RepKind where
  | bond (i g : Nat)
  | half (i g : Nat)
  | lane (plane lane spare : Nat)
  | plane (plane n : Nat)
  | absent (plane lane isl : Nat)
  | withdraw (plane isl : Nat)
  | comb (i c : Nat)
  | vstep (i r : Nat)
  deriving DecidableEq, Repr

/-- A repair with the islands at which it has still to take force, and the module slot tick at which it is decided (R491). -/
structure Rep where
  kind : RepKind
  isls : Nat
  at_ : Nat
  deriving DecidableEq, Repr

/-- What makes a repair necessary, until the module slot tick that samples it (R491, R492): a lane of a plane port fails at receiver
b; an element of a physical plane cannot hold its bias; a comb chiplet fails, with the lanes that its line fed. -/
inductive Cause where
  | lane (b sender plane lane : Nat)
  | element (phys : Nat)
  | comb (i chip : Nat) (lanes : List (Nat × Nat))
  deriving DecidableEq, Repr

/-- A rejoin under way (R453, R481, R513): when it began, attempts failed, waiting 1 s to try again; powered down until
cool, and since when its sensors have been cool. -/
structure Rejoin where
  since : Nat
  tries : Nat := 0
  retry : Bool := false
  thermal : Bool := false
  cool : Option Nat := none
  deriving DecidableEq, Repr

/-- Error counts of a strait or ferry lane at a receiving port (R500). -/
structure LaneCnt where
  cw : Nat := 0
  sym : Nat := 0
  unc : Nat := 0
  since : Nat := 0
  deriving DecidableEq, Repr

/-- A lane failure reported: sender, plane, lane, receiver, when (R500). -/
structure LaneRep where
  sender : Nat
  plane : Nat
  lane : Nat
  recv : Nat
  at_ : Nat
  deriving DecidableEq, Repr

/-- An island's thermal history (R477, R482, R487 to R489): compute-die governing temperatures by tick (0.1 °C), the last
tick at which fast sampling had cause, layers that throttle, ticks of the last limit step and of the last rise or activity,
bond-wear direction, extreme and half cycles, erosion events raised, when each shoal sensor began to differ; corrected shoal words counted
at the samples of the last millisecond, the estimator's coefficients where it has refined them. -/
structure Therm where
  hist : List (Nat × Int) := []
  fastAt : Nat := 0
  layers : Nat := 0
  episode : Bool := false
  stepAt : Option Nat := none
  calmAt : Nat := 0
  up : Bool := true
  ext : Int := 0
  half : Nat := 0
  eroded : Nat := 0
  offSince : Tbl Nat := []
  load : Nat := 0
  fixes : List (Nat × Nat) := []
  coef : Option (Int × Int × Int) := none
  gated : Nat := 0
  deriving DecidableEq, Repr

/-- The supply monitor (R470): last measurements (10 mV), and since when the mean has stood under 46 V, above 58 V, or at
49.5 V or more with PWR_MARGIN. -/
structure Supply where
  meas : List Nat := []
  under : Option Nat := none
  above : Option Nat := none
  good : Option Nat := none
  high : Bool := false
  deriving DecidableEq, Repr

/-- A bond flit (R185): FSEQ, KIND, the words w0 to w3, POISON. -/
structure BondFlit where
  fseq : Nat
  kind : Nat
  words : BitVec 256
  poison : BitVec 4
  deriving DecidableEq, Repr

/-- A bond group (R185 to R187): FSEQ of its next flit and the last 16 flits that its sender keeps; the FSEQ of which a replay is asked and
how often that flit has failed in succession; the flit that its receiver took in last. -/
structure Bond where
  next : Nat := 0
  sent : List BondFlit := []
  again : Option Nat := none
  run : Nat := 0
  got : Option BondFlit := none
  deriving DecidableEq, Repr
/-- A scrub lap of a stack (R298): the tick it began, whether it is partial, whether its slow event was raised. -/
structure Lap where
  since : Nat := 0
  part : Bool := true
  slow : Bool := false
  deriving DecidableEq, Repr
/-- A run of a DMA stream (R310): first stream byte, bytes, target code, offset. -/
structure DRun where
  pos : Nat
  len : Nat
  tgt : Nat
  off : Nat
  deriving DecidableEq, Repr

/-- Bytes a read returned: stream position, length, value. -/
structure DBytes where
  pos : Nat
  len : Nat
  val : Nat
  deriving DecidableEq, Repr

/-- Where a halt was found (R319). -/
structure DFault where
  reason : Nat
  tgt : Nat := 0
  off : Nat := 0
  deriving DecidableEq, Repr

/-- A MOVE, GATHER or SCATTER under way (R310 to R312). `kind`: 1, 2, 3. -/
structure DMove where
  kind : Nat
  src : List DRun
  dst : List DRun
  /-- Stream bytes known so far, and whether the whole stream is known. -/
  known : Nat
  final : Bool
  /-- The list (R309): target, offset, entries; next list line to ask for, entries taken, lines read. -/
  listTgt : Nat := 0
  listOff : Nat := 0
  count : Nat := 0
  asked : Nat := 0
  taken : Nat := 0
  lines : Tbl Nat := []
  /-- Next stream byte to read, and to write; bytes read and not yet written. -/
  rd : Nat := 0
  wr : Nat := 0
  buf : List DBytes := []
  /-- First byte of the first refused write; a list entry that may not be carried out (R309). -/
  refused : Option Nat := none
  bad : Option DFault := none
  /-- Window values captured at the start (R324): node and base. -/
  win : List (Nat × Nat) := []
  deriving DecidableEq, Repr

/-- An open loop (R314): first index of its body, COUNT, iteration, strides. -/
structure DLoop where
  start : Nat
  count : Nat
  iter : Nat
  sstride : Nat
  dstride : Nat
  deriving DecidableEq, Repr

/-- What an instruction of a channel program is doing. -/
inductive DOp where
  | move (m : DMove)
  /-- LOOP: enters a level. -/
  | loop (f : DLoop)
  /-- ENDLOOP: goes round again, or leaves the level. -/
  | endloop (again : Bool)
  /-- WAIT: kind, relation, flag address, VALUE, committed frames seen, the condition has held. -/
  | wait (kind rel addr val seen : Nat) (ok : Bool)
  /-- SIGNAL: kind, flag address, VALUE, sent, complete. -/
  | signal (kind addr val : Nat) (sent done : Bool)
  | fence
  | stop
  deriving DecidableEq, Repr

/-- An instruction begun and not yet complete: its number, its index, the index that follows it. -/
structure DAct where
  no : Nat
  idx : Nat
  next : Nat
  op : DOp
  deriving DecidableEq, Repr

/-- An outstanding line request of a channel: its instruction, 0 read, 1 write, 2 list line; stream position and length;
target and line offset; whether it waits for host memory. -/
structure DReq where
  act : Nat
  kind : Nat
  pos : Nat
  len : Nat
  tgt : Nat
  off : Nat
  /-- Byte of the line at which the stream's bytes start. -/
  skip : Nat := 0
  host : Bool := false
  /-- A line of a full-page write (R289, R311). -/
  page : Bool := false
  deriving DecidableEq, Repr

/-- A response a channel has not yet taken up: request, halt reason (0 good), line data. -/
structure DBack where
  no : Nat
  reason : Nat
  data : Nat
  deriving DecidableEq, Repr

/-- A DMA channel (R303 to R325), beside its registers: 32 × island + c, or 512 + 8 × port + c. -/
structure DCh where
  acts : List DAct := []
  actNo : Nat := 0
  /-- Index of the next instruction to fetch, and the loops open there. -/
  fetch : Nat := 0
  loops : List DLoop := []
  /-- The loops open at PROGRESS.INSTR (R318). -/
  at_ : List DLoop := []
  reqs : Tbl DReq := []
  reqNo : Nat := 0
  back : List DBack := []
  fault : Option DFault := none
  /-- Halting for TENANCY (7) or SOFTWARE (8): nothing new is issued. -/
  stop : Nat := 0
  /-- Issues nothing new until its requests have completed (R323). -/
  quiet : Bool := false
  /-- CTL bits written, sampled at the next module slot tick (R305). -/
  ctl : Nat := 0
  /-- Stalled at issue (R313). -/
  stalled : Bool := false
  /-- Restored, and not yet at the first frame tick of its tenancy (R304). -/
  held : Bool := false
  deriving DecidableEq, Repr

/-- A line of a key-value walk, in stream order (R383): position, physical island, HBM offset, shoal offset. -/
structure KvLine where
  pos : Nat
  isl : Nat
  off : Nat
  dst : Nat
  deriving DecidableEq, Repr

/-- A key-value page walker (R379 to R386), beside its registers. -/
structure Kv where
  consumed : Nat := 0
  /-- Writes of BT_DM_KV_CFG and BT_DM_KV_DONE held for the next frame tick. -/
  cfg : Option Nat := none
  done : Option Nat := none
  slot : Nat := 0
  /-- Lines still to read; lines asked for, with what came back (halt reason or data), oldest first. -/
  todo : List KvLine := []
  flight : List (Nat × KvLine × Option (Nat × Nat)) := []
  reqNo : Nat := 0
  /-- Fault to raise when the lines before it have landed: code and position. -/
  ends : Option (Nat × Nat) := none
  /-- Starts no descriptor until the checkpoint has been taken (R386). -/
  quiet : Bool := false
  /-- Stalled at issue (R386). -/
  stalled : Bool := false
  deriving DecidableEq, Repr
/-- A copy of the security record (R520). `lifecycle`: 0 MANUFACTURING, 1 SHIPPED; `mono`: the value of its device's monotonic counter that its
MAC covers. -/
structure SecRec where
  gen : Nat := 0
  mono : Nat := 0
  select : Nat := 0
  counter : Nat := 0
  revoked : Nat := 0
  lifecycle : Nat := 1
  lock : Bool := false
  holder : Nat := 0
  deriving DecidableEq, Repr

/-- A record of a calibration copy (R456, R458): kind, instance, whether its check word passes, what it says. Retirements:
page addresses, then banks as 2^63 + stack 2^32 + channel 2^24 + pseudo-channel 2^16 + bank; wear: half cycles, 1 while the
direction is up, extreme + 2^15; incarnation: its value. -/
structure CalRec where
  kind : Nat
  inst : Nat
  good : Bool := true
  val : List Nat := []
  deriving DecidableEq, Repr

/-- A copy of the calibration store (R458). `good`: its header passes. -/
structure CalCopy where
  gen : Nat := 0
  good : Bool := false
  recs : List CalRec := []
  deriving DecidableEq, Repr

/-- The two flash devices (R519): security-record copies by device, the devices' monotonic counters, firmware slots, the staged mark,
calibration copies. -/
structure Flash where
  sec : Tbl SecRec := []
  mono : Tbl Nat := []
  slots : Tbl (List Byte) := []
  staged : Bool := false
  cal : Tbl CalCopy := []
  deriving DecidableEq, Repr

/-- The staging or activation under way (R529 to R533), beside SEC_STAT.ACTIVITY: its command, the package read, when the
switch began, whether the targets have switched, whether the commit was stored, the reason of a failure. -/
structure Upd where
  cmd : Option HCmd := none
  pkg : List Byte := []
  since : Nat := 0
  switched : Bool := false
  committed : Bool := false
  fail : Nat := 0
  deriving DecidableEq, Repr
/-- An entry of a REGION_DECL section (R395). -/
structure Region where
  kind : Nat
  isl : Nat
  buffers : Nat
  addr : Nat
  size : Nat
  stride : Nat
  deriving DecidableEq, Repr

/-- What a loaded image leaves with the tenancy beside its sections: IMAGE_DIGEST, whether TIME_DET is set, cores with a
program by logical island × 8 + core, the declared regions. -/
structure Image where
  digest : Nat := 0
  timeDet : Bool := false
  progs : List Nat := []
  regions : List Region := []
  deriving DecidableEq, Repr

/-- A run record of a committed frame that is not yet written (R409, R410). -/
structure RunRec where
  step : Nat
  flags : Nat
  op : Nat
  tick : Nat
  slots : Nat
  seeds : List Nat
  /-- INPUT_DIGEST and whether it is poisoned, once complete. -/
  digest : Option (Nat × Bool) := none
  deriving DecidableEq, Repr

/-- A checkpoint capture under way (R398): its command, whether the tenancy halts clean when it ends. -/
structure Cap where
  cmd : HCmd
  hold : Bool
  deriving DecidableEq, Repr

/-- What leaves the module (the environment's side of an effect). -/
inductive Output where
  /-- MSI-X vector of a port (R434, R546). -/
  | msix (port vec : Nat)
  /-- An I3C In-Band Interrupt with its mandatory data byte (R547). -/
  | ibi (cls : Nat)
  /-- An EVENT message to a VDM endpoint (R547). -/
  | vdm (eid : Nat) (r : Rec4)
  /-- The response to a management COMMAND: a completion record, and what follows it (R435, R526). -/
  | mgmtReply (rec : Nat)
  /-- VerifyComplete of a PLDM component: 0, or the reason of its failure (R525). -/
  | pldmVerify (reason : Nat)
  /-- Data or refusal of one line of a BAR2 read: port, the host's request, line, ferry status, data. -/
  | barData (port req line status data : Nat)
  /-- AER reports Poisoned TLP Received, with advisory severity (R417). -/
  | aerPoisoned (port : Nat)
  /-- A BAR2 access ends with Unsupported Request (R22, R417). -/
  | barRefused (port req : Nat)
  /-- What a register read returns: requester (port 0–3, 4 management), offset, size, value. -/
  | regData (src off size value : Nat)
  /-- A BAR0 access ends with Unsupported Request (R10). -/
  | regRefused (port off : Nat)
  /-- The status of a REG_READ or REG_WRITE message (R10, R435): 0, or 0x10 BAD_ACCESS. -/
  | mgmtStatus (off status : Nat)
  /-- What a link sends in one codeword time: link, codeword count; by position, the PAM4 levels, two bits each, the first in bits [1:0] (R328
  to R331). -/
  | light (link count : Nat) (lanes : List (Nat × Nat))
  /-- A non-posted read or a posted write of a host port (R306, R415): address of the line, mask and data. -/
  | hostRead (port addr : Nat)
  | hostWrite (port addr mask data : Nat)
  deriving DecidableEq, Repr

/-- The state of the module. -/
structure State where
  /-- Commands waiting, first in, first out. -/
  pending : List Instr := []
  /-- What has left the module, oldest first. -/
  out : List Output := []
  /-- Events arisen and not yet sampled. -/
  arisen : List Ev := []
  /-- Open choices made so far: the index of the next free value. -/
  freeCtr : Nat := 0
  /-- Module slot ticks since the keeper vote. -/
  now : Nat := 0
  /-- Register fields, by Fld.key; unlisted fields hold their reset value. -/
  regs : Tbl Nat := []
  /-- Memory by module physical address; unlisted bytes read as zero. -/
  mem : List Host.Cell := []
  /-- 64-bit words carrying the poison marking (R190; in HBM a poisoned line marks its 16 words, R286). -/
  poison : Tbl Bool := []
  /-- What has changed in HBM pages and their records since they were stored, by physical page address (R286, R288). -/
  damage : Tbl Damage := []
  /-- Flipped words by place (R296). -/
  flips : Tbl Flip := []
  /-- Memory-side cache lines by physical line address (R279, R280). -/
  msc : Tbl MscLine := []
  /-- The pseudo-LRU tree of each set of the caches, island × 32768 + set (R279). -/
  mscTree : Tbl Nat := []
  /-- Error-log records, base tile × 1024 + index (R299). -/
  elog : Tbl Rec4 := []
  /-- Base tiles whose overflow event was raised since TAIL last moved (R299). -/
  elogOvf : Tbl Bool := []
  /-- Retired pages by physical page address, and retired banks (island, stack, channel, pch, bank) (R300). -/
  retPages : List Nat := []
  retBanks : List (List Nat) := []
  cores : Tbl Core := []
  arrays : Tbl MatArray := []
  vcores : Tbl VecCore := []
  meshes : Tbl Mesh := []
  /-- Command queues by key (HCmd); commands handed to a tenancy's next frame tick (R430). -/
  rings : Tbl HRing := []
  bounds : Tbl (List HCmd) := []
  /-- Management commands that wait for a sampling, LAST_SEQ and count of the management path (R436). -/
  mgmtQ : List HCmd := []
  mgmtSeq : Nat := 0
  mgmtCnt : Nat := 0
  /-- MSI-X Enable by port (R416); table words and pending bits, by port × 8192 + 32-bit word, port × 2048 + vector (R414);
  the tick a vector last sent in (R434). -/
  msixOn : Tbl Bool := []
  msixTbl : Tbl Nat := []
  msixPba : Tbl Bool := []
  msixSent : Tbl Nat := []
  /-- Vectors that send again at the next module slot tick (port × 2048 + vector, R434). -/
  msixNext : List Nat := []
  /-- The configuration space of each port (R414), but for MSI-X Enable. -/
  pcie : Tbl Pcie := []
  /-- Ferry window (R240): index of the present window. -/
  fwin : Nat := 0
  tiles : Tbl Tile := []
  arbiters : Tbl Arbiter := []
  /-- The data phase of the present window, by plane × 16 + receiver. -/
  wires : Tbl Wire := []
  /-- Logical lanes present at a ferry port, by plane × 16 + base tile (R242); 16 bits. -/
  fyLanes : Tbl Nat := []
  /-- Wavelength of a logical lane of a ferry plane, by physical plane × 16 + lane; a lane not listed is carried on its own number (R210). -/
  lambdas : Tbl Nat := []
  /-- Fabric packets crossing the base, by stream × 65,536 + PSEQ of the ferry packet that carries each. -/
  crossing : Tbl Cross := []
  lks : Tbl Lk := []
  freqs : Tbl FReq := []
  sctxs : List SCtx := []
  /-- The next ESEQ of every stream that has sent, by unit, node, destination unit and channel (R359). -/
  eseqs : Tbl Nat := []
  dctxs : List DCtx := []
  rcache : List RCache := []
  swins : List SWin := []
  /-- Route entries cached, by table (tenancy, or 16 for management) × 65536 + node (R356). -/
  rtCache : Tbl (BitVec 128) := []
  /-- When the Haldula drain began (R371). -/
  htSwitchAt : Nat := 0
  mbox : Option Mbox := none
  /-- Packets a link lost when it went DOWN, handed back to the fabric engine (R341). -/
  lostPkts : List (Nat × FPkt) := []
  /-- Loaded plans, sum programs (tenancy × 16 + logical island) and link maps. -/
  plans : Tbl Plan := []
  sums : Tbl (List SumEnt) := []
  linkMaps : Tbl (List LinkEnt) := []
  /-- Legs (tenancy × 16384 + leg) and transfers (tenancy × 4096 + transfer) of the frames under way. -/
  legs : Tbl LegRun := []
  xruns : Tbl XferRun := []
  /-- Codewords received on a lane since its markers were last compared, and lanes marked mislocked, by
  (tile × 68 + logical plane) × 16 + lane (R231, R264). Of these, the lanes whose ring has found a peak and waits for its first check (R506). -/
  laneCw : Tbl Nat := []
  mislocked : Tbl Bool := []
  trials : List Nat := []
  /-- Lanes on which a segment has been received in the tenancy slot under way (R212). -/
  segRx : List Nat := []
  /-- The present tenancy slot is a stall slot, by tenancy; it carries extension segments (R222, R229). -/
  stallNow : Tbl Bool := []
  extNow : Tbl Bool := []
  runs : Tbl TenRun := []
  repairs : List Rep := []
  /-- Failures that the next module slot tick samples (R491). -/
  causes : List Cause := []
  /-- Lanes on the spare wavelengths of a physical plane, decided: plane × 2 + spare, lane + 1 (R501). -/
  spareUse : Tbl Nat := []
  laneCnt : Tbl LaneCnt := []
  laneReps : List LaneRep := []
  /-- Directed sweep attempts that failed, by (tile × 68 + plane) × 16 + lane (R506). -/
  sweeps : Tbl Nat := []
  /-- Failed bonds by island × 4096 + group, what its flits carry, groups whose health is not zero (R185 to R187, R495). -/
  bondDead : Tbl Nat := []
  bonds : Tbl Bond := []
  bondHot : List Nat := []
  /-- Control, clock and sense pairs on one copy: island, kind, pair (R496). -/
  singles : List (Nat × Nat × Nat) := []
  rejoins : Tbl Rejoin := []
  /-- Ticks of clock losses and drifts, by island (R513). -/
  losses : Tbl (List Nat) := []
  /-- Keepers that withdraw at the next module slot tick, with their causes (R509). -/
  keeperOut : List (Nat × Nat) := []
  therms : Tbl Therm := []
  supply : Supply := {}
  /-- Converters failed (R469); the power cap in force, W (R485). -/
  convDown : Nat := 0
  /-- Sensor offsets (R442), by island × 32 + sensor, 0.1 °C; corrected words of each shoal since power-up (R487); the training of each
  island's bonds and queues that is in force (R445, R446). -/
  tempOff : Tbl Int := []
  shoalFixes : Tbl Nat := []
  trained : Tbl Nat := []
  capNow : Nat := 21500
  /-- When the wake began (R474). -/
  wakeAt : Nat := 0
  /-- STOPPING follows SHUTDOWN, whose frames commit (R475). -/
  softStop : Bool := false
  /-- Scrub laps under way, by island × 8 + stack. -/
  laps : Tbl Lap := []
  /-- Throttle steps of a stack when it last read 94 °C or more (R278). -/
  hbmPeak : Tbl Nat := []
  dch : Tbl DCh := []
  /-- Program bytes of base-tile channels (R303). -/
  dmaLen : Tbl Nat := []
  kvs : Tbl Kv := []
  flash : Flash := {}
  /-- A flash store is under way (R450, R459); a reset that waits for it (`true`: cold), when it was last refused. -/
  storing : Bool := false
  resetHeld : Option Bool := none
  storeTried : Nat := 0
  /-- The start-up under way and what happens in it (R462); islands it has left out. -/
  start : Option StartPlan := none
  leftOut : Nat := 0
  upd : Upd := {}
  /-- Event records (R542): the module ring by index, tenancy rings by tenancy × 1024 + index. -/
  modRing : Tbl Rec4 := []
  tnRings : Tbl Rec4 := []
  /-- Tick at which a source last wrote a class 7 record (R544): code, island, source, tick. -/
  evLast : List (Nat × Nat × Nat × Nat) := []
  /-- The In-Band Interrupt pending, by its data byte; MGMT_ALERT_N asserted (R547). -/
  ibiPending : Option Nat := none
  alertN : Bool := false
  /-- The module's static address on the management bus, as its straps stood at 52 V valid (R559); 0 without power. -/
  mgmtAddr : Nat := 0
  /-- ISLANDS_AVAIL and LINKS_UP before the changes of a tick, with the tick (R15). -/
  availWas : Option (Nat × Nat) := none
  linksWas : Option (Nat × Nat) := none
  /-- Islands outside running tenancies to power down at the next module slot tick (R479). -/
  downNext : Nat := 0
  /-- Change of an island's CORE current since its rings were locked, in A (R486). -/
  coreMoved : Tbl Int := []
  /-- Trims made in service (R508): of a ring, by island × 2,592 + ring, in steps of 1 GHz; of a Mach–Zehnder element, by physical plane × 56 +
  element, in codes; those of elements that wait for a frame tick: tenancy, element, up (R460). -/
  ringTrim : Tbl Int := []
  mzTrim : Tbl Int := []
  mzPend : List (Nat × Nat × Bool) := []
  /-- Rings whose heater is clamped (R507). -/
  clamped : List Nat := []
  /-- A repair selection has taken force that is not yet in the calibration store (R493); when the last store of values calibrated in service
  began (R460). -/
  selNew : Bool := false
  storedAt : Option Nat := none
  /-- The stand-alone test mode entered at the last cold reset (R465). -/
  testMode : Option TestMode := none
  /-- Loaded images by tenancy; where LOAD_IMAGE placed the program section of a scalar core, and the DMA program of a
  base-tile channel (R112, R303). -/
  images : Tbl Image := []
  progAt : Tbl Nat := []
  dmaAt : Tbl Nat := []
  /-- Run records not yet written, by tenancy, oldest first; captures under way by tenancy. -/
  recs : Tbl (List RunRec) := []
  caps : Tbl Cap := []
  /-- The open banks of each checkpoint taken, with the rows then cleared (R69, R87), which the named bytes of R401 do not hold: by
  `ckKey`, then array × 4 + bank. -/
  ckBanks : Tbl (List (Nat × BitVec 128)) := []
  /-- Islands being zeroed for the free set (R426), and islands being zero-filled under a new level (R292). -/
  zeroing : Nat := 0
  filling : Nat := 0
  /-- The 64-bit read latch of each requester (R9): port 0–3, management 4, fabric mailbox 5: register offset and upper half. -/
  latch : Tbl (Nat × Nat) := []
  deriving DecidableEq, Repr

/-- Why the machine stops. No meaning raises it: the manual gives every access of this block an outcome. Safe. -/
inductive Fault where
  | unreachable
  deriving DecidableEq, Repr

/-- Why a command has no meaning here. `notModelled` is raised by an arm of Dispatch.lean alone. Safe. -/
inductive Refusal where
  | notModelled (mnemonic : String)
  deriving DecidableEq, Repr

/-- The module before power is applied: registers at their reset values, nothing listed in memory, no command waiting. -/
def State.reset : State := {}

end Sys2Proof.Machine
end

