-- ==== Sys2Proof/Machine/Ops.lean ====
section
/-!
DEFINITION. The named operations every command is written with: register fields, parts, events, memory with its
poison marks, flipped words and the memory-side cache, and the taking of a trap.
-/
namespace Sys2Proof.Machine

open Sys2Proof

/-- The outcome of a command's meaning. -/
abbrev Out := Host.Outcome State Fault Refusal

/-! ### Register fields -/

/-- The value of a register field. -/
def State.fld (s : State) (f : Fld) : Nat := s.regs.get f.rst f.key
/-- A register field set by hardware or by an accepted write, cut to its width. -/
def State.setFld (s : State) (f : Fld) (v : Nat) : State := { s with regs := s.regs.set f.key (v % 2 ^ f.w) }
/-- A saturating counter advanced by `n`. -/
def State.bump (s : State) (f : Fld) (n : Nat) : State := s.setFld f (min (s.fld f + n) (2 ^ f.w - 1))
/-- Bits set in a sticky field (R5). -/
def State.orFld (s : State) (f : Fld) (v : Nat) : State := s.setFld f (s.fld f ||| v)
/-- A counter modulo its width. -/
def State.incFld (s : State) (f : Fld) (n : Nat) : State := s.setFld f (s.fld f + n)
/-- Bit `i` of a field. -/
def State.fldBit (s : State) (f : Fld) (i : Nat) : Bool := bitOf (s.fld f) i
/-- Bit `i` of a field set to `b`. -/
def State.setFldBit (s : State) (f : Fld) (i : Nat) (b : Bool) : State :=
  s.setFld f (putBits (s.fld f) i 1 (if b then 1 else 0))

def State.emit (s : State) (o : Output) : State := { s with out := s.out ++ [o] }

/-- The next free value, and the state with the choice counted. -/
def State.free (s : State) : Word × State := (Config.freeValue s.freeCtr, { s with freeCtr := s.freeCtr + 1 })

/-! ### Parts -/

def coreKey (c : CoreId) : Nat := c.isl.val * 8 + c.sc.val
def State.core (s : State) (c : CoreId) : Core := s.cores.get {} (coreKey c)
def State.setCore (s : State) (c : CoreId) (x : Core) : State := { s with cores := s.cores.set (coreKey c) x }
def State.arr (s : State) (i j : Nat) : MatArray := s.arrays.get {} (i * 64 + j)
def State.setArr (s : State) (i j : Nat) (x : MatArray) : State := { s with arrays := s.arrays.set (i * 64 + j) x }
def State.vc (s : State) (i j : Nat) : VecCore := s.vcores.get {} (i * 32 + j)
def State.setVc (s : State) (i j : Nat) (x : VecCore) : State := { s with vcores := s.vcores.set (i * 32 + j) x }
def State.mesh (s : State) (i : Nat) : Mesh := s.meshes.get {} i
def State.setMesh (s : State) (i : Nat) (x : Mesh) : State := { s with meshes := s.meshes.set i x }

/-- The island holds for `n` cycles: its schedule time stands (R196, R200). -/
def State.holdIsland (s : State) (i n : Nat) : State :=
  let m := s.mesh i
  (s.setMesh i { m with lag := m.lag + n }).bump (IS_MESH_STAT_HOLD_CYCLES i) n

/-- The issue side of a unit. -/
def State.issue (s : State) (i : Nat) : UnitId → Issue
  | .array j => (s.arr i j).iss
  | .vec j => (s.vc i j).iss
def State.setIssue (s : State) (i : Nat) (u : UnitId) (q : Issue) : State :=
  match u with
  | .array j => s.setArr i j { s.arr i j with iss := q }
  | .vec j => s.setVc i j { s.vc i j with iss := q }

/-- The command group of scalar core n (R107): arrays 8n–8n+7 and vector cores 4n–4n+3. -/
def groupArrays (n : Nat) (mask : Nat) : List (Fin 64) :=
  (bitList 8 mask).map (fun b => Fin.ofNat 64 (n * 8 + b))
def groupVecs (n : Nat) (mask : Nat) : List (Fin 32) :=
  (bitList 4 mask).map (fun b => Fin.ofNat 32 (n * 4 + b))
def unitOwner : UnitId → Nat
  | .array j => j.val / 8
  | .vec j => j.val / 4

/-- Island i is in service (R15). -/
def State.avail (s : State) (i : Nat) : Bool := s.fldBit LH_CAP_ISLANDS_AVAIL i

/-- ISLANDS_AVAIL is about to change: a read in this tick returns the value before the tick's first change (R15). -/
def State.noteAvail (s : State) : State :=
  if s.availWas.any (fun (w : Nat × Nat) => w.1 == s.now) then s else { s with availWas := some (s.now, s.fld LH_CAP_ISLANDS_AVAIL) }
/-- Island i comes into service or leaves it (R15). -/
def State.setAvail (s : State) (i : Nat) (v : Bool) : State := s.noteAvail.setFldBit LH_CAP_ISLANDS_AVAIL i v

/-- Link k begins or ceases to carry traffic (R15). -/
def State.setLinkUp (s : State) (k : Nat) (v : Bool) : State :=
  { s with linksWas := if s.linksWas.any (fun (w : Nat × Nat) => w.1 == s.now) then s.linksWas else some (s.now, s.fld LH_LINKS_LINKS_UP) }.setFldBit
    LH_LINKS_LINKS_UP k v

/-- Tenancy states of TN_STATE.STATE. -/
def tnFree : Nat := 0

/-- The tenancy that holds island i. -/
def State.tenOf (s : State) (i : Nat) : Option Nat :=
  (List.range 16).find? (fun t => s.fld (TN_STATE_STATE t) != tnFree && s.fldBit (TN_ISLANDS_ISLANDS t) i)

/-- The islands of a tenancy, ascending. -/
def State.tnIslands (s : State) (t : Nat) : List Nat := bitList 16 (s.fld (TN_ISLANDS_ISLANDS t))

/-- Physical island of logical island j under the image binding. -/
def State.physOf (s : State) (t j : Nat) : Nat := s.fld (TN_BIND_MAP t) / 16 ^ j % 16

/-- Logical index of island i in tenancy t. -/
def State.logicalOf (s : State) (t i : Nat) : Nat :=
  ((List.range (s.tnIslands t).length).find? (fun j => s.physOf t j == i)).getD 0

/-! ### Events (R49, R52) -/

def Ev.same (a b : Ev) : Bool := a.code == b.code && a.isl == b.isl && a.src == b.src

/-- An event arises; repeats before the next sampling merge, the count saturating at 255 (R52). -/
def addEv (e : Ev) : List Ev → List Ev
  | [] => [e]
  | x :: r =>
    if x.same e then { x with count := min (x.count + 1) 255, tens := x.tens ++ e.tens.filter (fun t => !x.tens.contains t) } :: r
    else x :: addEv e r

def State.raise (s : State) (code isl src detail : Nat) (tens : List Nat := []) : State :=
  { s with arisen := addEv { code := code, isl := isl, src := src, detail := detail, tens := tens } s.arisen }

/-- Source index of R538. -/
def srcIx (kind unit : Nat) : Nat := kind * 4096 + unit

/-! ### Addresses (R19, R20, R203) -/

def hbmBase (i : Nat) : Nat := i * 0x6000000000
def shoalBase (i : Nat) : Nat := 0x80000000000 + i * 0x80000000
def flagBase (i : Nat) : Nat := 0xA0000000000 + i * 0x100000
def shoalSize : Nat := 0x80000000
def gib : Nat := 0x40000000

/-- Mapped HBM extent of island i: the usable part less the program region of 1 GiB (R20). -/
def State.extent (s : State) (i : Nat) : Nat := s.fld (BT_MC_EXTENT_USABLE i) - gib

/-- What a module physical address names (R19, R20). -/
inductive Place where
  | hbm (i o : Nat)
  | shoal (i o : Nat)
  | flag (i o : Nat)
  | regs (o : Nat)
  | none
  deriving DecidableEq, Repr

def place (a : Nat) : Place :=
  if a < 0x60000000000 then .hbm (a / 0x6000000000) (a % 0x6000000000)
  else if 0x80000000000 ≤ a ∧ a < 0x80800000000 then
    .shoal ((a - 0x80000000000) / 0x80000000) ((a - 0x80000000000) % 0x80000000)
  else if 0xA0000000000 ≤ a ∧ a < 0xA0001000000 then
    .flag ((a - 0xA0000000000) / 0x100000) ((a - 0xA0000000000) % 0x100000)
  else if 0xC0000000000 ≤ a ∧ a < 0xC0004000000 then .regs (a - 0xC0000000000)
  else .none

/-- Stack and stack page of an island HBM offset (R274). -/
def stackOf (o : Nat) : Nat := o / 4096 % 8
def stackPage (o : Nat) : Nat := o / 32768
def stackAddr (o : Nat) : Nat := stackPage o * 4096 + o % 4096

/-- Record bytes of a page-code level (R284). -/
def recordBytes (level : Nat) : Nat :=
  if level = 1 then 160 else if level = 2 then 192 else if level = 3 then 256 else 384
/-- Parity symbols 2t of a level (R284). -/
def paritySyms (level : Nat) : Nat :=
  if level = 1 then 16 else if level = 2 then 32 else if level = 3 then 64 else 128

/-- The code region that holds an island offset: the last valid one that starts at or below it (R285). -/
def State.regionOf (s : State) (i o : Nat) : Nat :=
  ((List.range 4).reverse.find? (fun k =>
    s.fld (BT_MC_REGION_VALID i k) == 1 && s.fld (BT_MC_REGION_START_GIB i k) * gib ≤ o)).getD 0

/-- Stack pages before region k in each stack (R285: a region starts on whole GiB, 32,768 stack pages a GiB). -/
def State.regionFirst (s : State) (i k : Nat) : Nat := s.fld (BT_MC_REGION_START_GIB i k) * 32768

/-- Stack pages of region k (R285). -/
def State.regionPages (s : State) (i k : Nat) : Nat :=
  if k + 1 < 4 ∧ s.fld (BT_MC_REGION_VALID i (k + 1)) = 1 then s.regionFirst i (k + 1) - s.regionFirst i k
  else s.fld (BT_MC_LAYOUT_STACK_PAGES i) - s.regionFirst i k

/-- Stack address of byte b of the record of stack page q (R286). -/
def State.recordAddr (s : State) (i q b : Nat) : Nat :=
  let k := s.regionOf i (q * 32768)
  let before := ((List.range k).map (fun j => s.regionPages i j * recordBytes (s.fld (BT_MC_REGION_LEVEL i j)))).foldl (· + ·) 0
  s.fld (BT_MC_LAYOUT_META_BASE i) * 32 + before + (q - s.regionFirst i k) * recordBytes (s.fld (BT_MC_REGION_LEVEL i k)) + b

/-- Channel of a stack address (R275). -/
def channelOf (a : Nat) : Nat := a / 128 % 32

/-- Pseudo-channel and bank of a stack address under the controller's map (R275). -/
def pchOf (a : Nat) : Nat := bits (Config.xlate a).toNat 0 1
def bankOf (a : Nat) : Nat := bits (Config.xlate a).toNat 1 6
def rowOf (a : Nat) : Nat := bits (Config.xlate a).toNat 7 18
def colOf (a : Nat) : Nat := bits (Config.xlate a).toNat 25 6

/-- Page at island offset o is retired: by an entry of its own, or by a bank that holds one of its lines or record
bytes (R300). -/
def State.retired (s : State) (i o : Nat) : Bool :=
  s.retPages.contains (hbmBase i + o / 4096 * 4096) ||
  s.retBanks.any (fun b =>
    b.getD 0 0 == i && b.getD 1 0 == stackOf o &&
    ((List.range 32).any (fun j =>
        let a := stackPage o * 4096 + j * 128
        channelOf a == b.getD 2 0 && pchOf a == b.getD 3 0 && bankOf a == b.getD 4 0) ||
     (List.range (recordBytes (s.fld (BT_MC_REGION_LEVEL i (s.regionOf i o))))).any (fun k =>
        let a := s.recordAddr i (stackPage o) k
        channelOf a == b.getD 2 0 && pchOf a == b.getD 3 0 && bankOf a == b.getD 4 0)))

/-- Offset o of island i's HBM is mapped and its page in service (R20, R22). -/
def State.hbmOk (s : State) (i o : Nat) : Bool := decide (o < s.extent i) && !s.retired i o

/-- The module physical address of a local-view address (R203). -/
def State.localPhys (s : State) (i a : Nat) : Option Nat :=
  if a < shoalSize then some (shoalBase i + a)
  else if 0x10000000000 ≤ a ∧ s.hbmOk i (a - 0x10000000000) ∧ a - 0x10000000000 < 0x6000000000 then
    some (hbmBase i + (a - 0x10000000000))
  else none

/-! ### Memory as bytes -/

/-- What a byte that memory does not list reads as (R294: zero-filled HBM; shoal and flag space by design choice). -/
def unlisted : Byte := 0

/-- One byte of memory. -/
def readByte (m : List Host.Cell) (a : Nat) : Byte :=
  match m with
  | [] => unlisted
  | (b, v) :: r => if b = a then v else readByte r a

/-- Puts a cell in its place in rising order. -/
def insertCell (a : Nat) (v : Byte) : List Host.Cell → List Host.Cell
  | [] => [(a, v)]
  | (b, w) :: r => if a < b then (a, v) :: (b, w) :: r else (b, w) :: insertCell a v r

/-- Writes one byte, keeping the canonical form. -/
def writeByte (m : List Host.Cell) (a : Nat) (v : Byte) : List Host.Cell :=
  let e := m.filter (fun c => c.1 != a)
  if v = unlisted then e else insertCell a v e

/-- The canonical form: addresses strictly rising, no entry equal to an unlisted byte. -/
def Memory.wf : List Host.Cell → Bool
  | [] => true
  | [(_, v)] => v != unlisted
  | (a, v) :: (b, w) :: r => decide (a < b) && v != unlisted && Memory.wf ((b, w) :: r)

def State.byte (s : State) (a : Nat) : Byte := readByte s.mem a
def State.setByte (s : State) (a : Nat) (v : Byte) : State := { s with mem := writeByte s.mem a v }

/-- The little-endian number of the `n` bytes at `a` (R3). -/
def State.peek (s : State) (a : Nat) : Nat → Nat
  | 0 => 0
  | n + 1 => (s.byte a).toNat + 256 * s.peek (a + 1) n

/-- Stores bytes at rising addresses. -/
def State.pokes (s : State) (a : Nat) : List Byte → State
  | [] => s
  | b :: r => (s.setByte a b).pokes (a + 1) r

/-- Stores the `n` little-endian bytes of a number (R3). -/
def State.poke (s : State) (a n v : Nat) : State := s.pokes a (leBytes n v)

/-- The 8-byte words that bytes [a, a + n) touch. -/
def wordsOf (a n : Nat) : List Nat :=
  if n = 0 then [] else (List.range ((a + n - 1) / 8 - a / 8 + 1)).map (fun k => (a / 8 + k) * 8)

def State.poisoned (s : State) (w : Nat) : Bool := s.poison.get false w
def State.setPoison (s : State) (w : Nat) (b : Bool) : State :=
  { s with poison := if b then s.poison.set w true else s.poison.erase w }

/-! ### Flipped words (R296) -/

/-- Where a flipped word stands: a memory word by address, or a word of a register file. -/
inductive FlipAt where
  | mem (a : Nat)
  | acc (i j bank el : Nat)
  | vec (i j r pair : Nat)
  | sreg (i n kind r : Nat)
  deriving DecidableEq, Repr

def FlipAt.key : FlipAt → Nat
  | .mem a => a
  | .acc i j bank el => 2 ^ 50 + ((i * 64 + j) * 4 + bank) * 32768 + el
  | .vec i j r pair => 2 ^ 51 + ((i * 32 + j) * 32 + r) * 64 + pair
  | .sreg i n kind r => 2 ^ 52 + ((i * 8 + n) * 4 + kind) * 4096 + r

/-- How a checker reports a stored word (R189, R190). -/
inductive Check where
  | good | corrected | uncorrectable | poisoned
  | wrong (x : BitVec 64)
  deriving DecidableEq, Repr

/-- The report for a flip pattern: one bit corrected, check bits 0 and 1 poison, two bits uncorrectable; three or more
are left open by R296. `marking`: whether this memory uses the poison marking of R190. -/
def Flip.report (f : Flip) (marking : Bool) : Check :=
  let n := popc 64 f.data.toNat + popc 8 f.check.toNat
  if n = 0 then .good
  else if n = 1 then .corrected
  else if marking && f.data == 0 && f.check == 3 then .poisoned
  else if n = 2 then .uncorrectable
  else
    let o := Config.flipOutcome f.data.toNat f.check.toNat
    if o % 4 = 0 then .uncorrectable else if o % 4 = 1 then .poisoned
    else if o % 4 = 2 then .wrong (BitVec.ofNat 64 (o / 4)) else .good

def State.check (s : State) (p : FlipAt) (marking : Bool) : Check :=
  (s.flips.get ⟨0, 0⟩ p.key).report marking
def State.unflip (s : State) (p : FlipAt) : State := { s with flips := s.flips.erase p.key }

/-- The armed pattern strikes the word just written at `p` (R296). In a memory word with the poison marking the check bits of the
mark and of the pattern combine, so that the word is judged by its syndrome: the pattern of check bits 0 and 1 is the mark (R190). -/
def State.plant (s : State) (p : FlipAt) (f : Flip) : State :=
  match p with
  | .mem a =>
    let f : Flip := if s.poisoned a then ⟨f.data, f.check ^^^ 3⟩ else f
    if f.data = 0 ∧ f.check = 3 then (s.setPoison a true).unflip p
    else if f.data = 0 ∧ f.check = 0 then (s.setPoison a false).unflip p
    else { s.setPoison a false with flips := s.flips.set p.key f }
  | _ => { s with flips := s.flips.set p.key f }

/-- A word written to the selected memory and unit takes the armed pattern, once (R296). -/
def State.armIs (s : State) (i mem unit : Nat) (p : FlipAt) : State :=
  if s.fld (IS_FLIP_CTL_ARM i) = 1 ∧ s.fld (IS_FLIP_CTL_MEM i) = mem ∧ s.fld (IS_FLIP_CTL_UNIT i) = unit then
    ((s.plant p ⟨BitVec.ofNat 64 (s.fld (IS_FLIP_DATA_FLIP_DATA i)), BitVec.ofNat 8 (s.fld (IS_FLIP_CTL_CHECK i))⟩).setFld
      (IS_FLIP_CTL_ARM i) 0).setFld (IS_FLIP_CTL_DONE i) 1
  else s
def State.armMsc (s : State) (i a : Nat) : State :=
  if s.fld (BT_MSC_FLIP_CTL_ARM i) = 1 then
    ((s.plant (.mem a) ⟨BitVec.ofNat 64 (s.fld (BT_MSC_FLIP_DATA_FLIP_DATA i)), BitVec.ofNat 8 (s.fld (BT_MSC_FLIP_CTL_CHECK i))⟩).setFld
      (BT_MSC_FLIP_CTL_ARM i) 0).setFld (BT_MSC_FLIP_CTL_DONE i) 1
  else s

/-! ### Shoal (R180, R189 to R191) -/

def sectorOf (o : Nat) : Nat := o / 128 % 16

/-- Records the first uncorrectable or poisoned read (R191, R204). -/
def State.recordErr (s : State) (i o : Nat) (poisoned : Bool) : State :=
  if s.fld (IS_SHOAL_ERRADDR_VALID i) = 1 then s
  else ((s.setFld (IS_SHOAL_ERRADDR_OFFSET i) o).setFld (IS_SHOAL_ERRADDR_VALID i) 1).setFld
    (IS_SHOAL_ERRADDR_POISONED i) (if poisoned then 1 else 0)

/-- A word of the shoal has been corrected (R190, R487). -/
def State.shoalFixed (s : State) (i : Nat) : State :=
  { s with shoalFixes := s.shoalFixes.set i (s.shoalFixes.get 0 i + 1) }.bump (IS_SHOAL_ECC_CORRECTED i) 1

/-- Reads the shoal word at offset `o` (a multiple of 8): its value, whether it is delivered bad, the counters. -/
def State.shoalWord (s : State) (i o : Nat) : Nat × Bool × State :=
  let w := shoalBase i + o
  let v := s.peek w 8
  match s.check (.mem w) true with
  | .poisoned => (v, true, (s.bump (IS_SHOAL_ECC_POISON_READS i) 1).recordErr i o true)
  | .uncorrectable => (v, true, (s.bump (IS_SHOAL_ECC_UNCORRECTABLE i) 1).recordErr i o false)
  | .corrected => (v, false, s.shoalFixed i)
  | .wrong x => (x.toNat, false, s.shoalFixed i)
  | .good => if s.poisoned w then (v, true, (s.bump (IS_SHOAL_ECC_POISON_READS i) 1).recordErr i o true) else (v, false, s)

/-- Reads consecutive shoal words, low word first: the bits, and the list of bad word offsets. -/
def State.shoalWords (s : State) (i o : Nat) : Nat → Nat × List Nat × State
  | 0 => (0, [], s)
  | n + 1 =>
    let (v, bad, s) := s.shoalWord i o
    let (r, bs, s) := s.shoalWords i (o + 8) n
    (v + 2 ^ 64 * r, if bad then o :: bs else bs, s)

/-- Reads `n` bytes at shoal offset `o`: the number, the bad word offsets among them. -/
def State.shoalRead (s : State) (i o n : Nat) : Nat × List Nat × State :=
  let o8 := o / 8 * 8
  let (v, bad, s) := s.shoalWords i o8 ((o + n + 7) / 8 - o / 8)
  (v / 2 ^ (8 * (o - o8)) % 2 ^ (8 * n), bad, s)

/-- The words that a write covers in part are read before it, with the read's counts, and hold what they read as (R191); answers
those that were bad. -/
def State.shoalOpen (s : State) (i : Nat) : List Nat → List Nat × State
  | [] => ([], s)
  | o :: r =>
    let (v, bad, s) := s.shoalWord i o
    let (bs, s) := (s.poke (shoalBase i + o) 8 v).shoalOpen i r
    (if bad then o :: bs else bs, s)

/-- The word at `o` has been written: its mark, and the armed pattern if it takes it (R191, R296). -/
def State.shoalMark (s : State) (i o : Nat) (bad : Bool) : State :=
  ((s.setPoison (shoalBase i + o) bad).unflip (.mem (shoalBase i + o))).armIs i 1 (sectorOf o) (.mem (shoalBase i + o))

/-- Stores bytes at shoal offset `o`; the words they touch are marked by `bad`, which says whether the bytes of the
word at an offset are poisoned. A word covered in part merges, and keeps an old mark or error as poison (R191). -/
def State.shoalWrite (s : State) (i o : Nat) (bs : List Byte) (bad : Nat → Bool := fun _ => false) : State :=
  let ws := wordsOf o bs.length
  let (old, s) := s.shoalOpen i (ws.filter (fun w => !(decide (o ≤ w) && decide (w + 8 ≤ o + bs.length))))
  ws.foldl (fun s w => s.shoalMark i w (bad w || old.contains w)) (s.pokes (shoalBase i + o) bs)

/-- Stores the bytes whose mask bit is set, byte j at offset `o + j`. -/
def State.shoalWriteMask (s : State) (i o n v mask : Nat) (bad : Nat → Bool) : State :=
  let hits (w : Nat) : Nat := ((List.range 8).filter (fun k => o ≤ w + k && w + k < o + n && bitOf mask (w + k - o))).length
  let ws := (wordsOf o n).filter (fun w => hits w != 0)
  let (old, s) := s.shoalOpen i (ws.filter (fun w => hits w != 8))
  let s := (List.range n).foldl
    (fun s j => if bitOf mask j then s.setByte (shoalBase i + o + j) (BitVec.ofNat 8 (v / 256 ^ j)) else s) s
  ws.foldl (fun s w => s.shoalMark i w (bad w || old.contains w)) s

/-! ### Error log (R299) -/

/-- Requester codes of the error log (R299). -/
def reqScrub : Nat := 0
def reqCore : Nat := 1
def reqDma : Nat := 2
def reqMove : Nat := 3
def reqStrait : Nat := 4
def reqFerry : Nat := 5
def reqFabric : Nat := 6
def reqHost : Nat := 7
def reqCache : Nat := 8
def reqSelfTest : Nat := 9

def elogRec (kind stack a req page syms eras lines tick : Nat) : Rec4 :=
  { w0 := BitVec.ofNat 64 (kind + stack * 2 ^ 8 + channelOf a * 2 ^ 11 + pchOf a * 2 ^ 16 + bankOf a * 2 ^ 17 + req * 2 ^ 23
      + (rowOf a + colOf a * 2 ^ 18) * 2 ^ 32),
    w1 := BitVec.ofNat 64 page,
    w2 := BitVec.ofNat 64 (syms + eras * 2 ^ 16 + lines * 2 ^ 32),
    w3 := BitVec.ofNat 64 (tick % 2 ^ 48 + 2 ^ 48) }

/-- The same record but for its COUNT. -/
def Rec4.sameBut (a b : Rec4) : Bool :=
  a.w0 == b.w0 && a.w1 == b.w1 && a.w2 == b.w2 && a.w3.toNat % 2 ^ 48 == b.w3.toNat % 2 ^ 48

/-- Logs a record at HEAD; a repeat in the same tick counts in COUNT (R52); a full ring drops it, counts LOST and raises
the overflow event once until TAIL moves (R299). -/
def State.logMem (s : State) (i : Nat) (r : Rec4) : State :=
  let head := s.fld (BT_MC_ELOG_HEAD i)
  let tail := s.fld (BT_MC_ELOG_TAIL i)
  let last := (head + 1023) % 1024
  let old := s.elog.get {} (i * 1024 + last)
  if head ≠ tail ∧ old.sameBut r then
    let n := old.w3.toNat / 2 ^ 48
    { s with elog := s.elog.set (i * 1024 + last) { old with w3 := BitVec.ofNat 64 (old.w3.toNat % 2 ^ 48 + min (n + 1) 255 * 2 ^ 48) } }
  else if (head + 1) % 1024 = tail then
    let s' := s.bump (BT_MC_ELOG_LOST i) 1
    if s.elogOvf.get false i then s'
    else { s'.raise 0x7005 i (srcIx 0 0) 0 with elogOvf := s'.elogOvf.set i true }
  else ({ s with elog := s.elog.set (i * 1024 + head) r }).setFld (BT_MC_ELOG_HEAD i) ((head + 1) % 1024)

/-- Logs what a read of the line at island offset `o` found. -/
def State.logLine (s : State) (i kind o req syms eras lines : Nat) : State :=
  s.logMem i (elogRec kind (stackOf o) (stackAddr o) req (hbmBase i + o / 4096 * 4096) syms eras lines
    (s.fld LH_SLOT_COUNT_COUNT))

/-! ### HBM: the line CRC, the page code and the memory-side cache (R279 to R292, R301) -/

/-- Set of an island line number (R279). -/
def mscSet (line : Nat) : Nat := (line % 32768) ^^^ (line / 32768 % 32768)

def lineWords (a : Nat) : List Nat := (List.range 16).map (fun k => a + 8 * k)

def State.linePoisoned (s : State) (a : Nat) : Bool := (lineWords a).any s.poisoned
def State.poisonLine (s : State) (a : Nat) : State := (lineWords a).foldl (fun s w => s.setPoison w true) s
def State.cleanLine (s : State) (a : Nat) : State := (lineWords a).foldl (fun s w => s.setPoison w false) s
def State.dropFlips (s : State) (a : Nat) : State := (lineWords a).foldl (fun s w => s.unflip (.mem w)) s

/-- The page of an address, and the line within it. -/
def pageOf (a : Nat) : Nat := a / 4096 * 4096
def lineIx (a : Nat) : Nat := a / 128 % 32

/-- What has changed in a page and its record since they were stored (R288). -/
def State.pageDamage (s : State) (a : Nat) : Damage := s.damage.get {} (pageOf a)
def State.setDamage (s : State) (a : Nat) (d : Damage) : State :=
  { s with damage := if d.syms.isEmpty && d.crcs.isEmpty then s.damage.erase (pageOf a) else s.damage.set (pageOf a) d }

/-- A pattern added to an entry of a table of patterns. -/
def xorEntry {n : Nat} (t : Tbl (BitVec n)) (k : Nat) (v : BitVec n) : Tbl (BitVec n) :=
  if t.get 0 k ^^^ v = 0 then t.erase k else t.set k (t.get 0 k ^^^ v)
/-- Further symbols and stored CRCs change. -/
def Damage.add (d : Damage) (e : PageErr) : Damage :=
  { syms := e.syms.foldl (fun t y => xorEntry t y.1.val y.2) d.syms, crcs := e.crcs.foldl (fun t y => xorEntry t y.1.val y.2) d.crcs }
/-- The bits of line j that have changed: symbol k of the line at bits [16k + 15 : 16k] (R283). -/
def Damage.line (d : Damage) (j : Nat) : Nat :=
  (d.syms.filter (fun y => decide (y.1 < 2048) && y.1 / 64 == j)).foldl (fun n y => n ^^^ (y.2.toNat * 2 ^ (16 * (y.1 % 64)))) 0
/-- Line j is written anew. -/
def Damage.mend (d : Damage) (j : Nat) : Damage :=
  { syms := d.syms.filter (fun y => !(decide (y.1 < 2048) && y.1 / 64 == j)), crcs := d.crcs.erase j }
/-- The parity is written anew. -/
def Damage.mendParity (d : Damage) : Damage := { d with syms := d.syms.filter (fun y => decide (y.1 < 2048)) }

/-- The line at `a` as HBM holds it. -/
def State.lineRaw (s : State) (a : Nat) : Nat := s.peek a 128 ^^^ (s.pageDamage a).line (lineIx a)
/-- The CRC of 128 bytes at a module physical address (R282). -/
def crcAt (v a : Nat) : Nat := lineCrc (leBytes 128 v) a
/-- The CRC that the record holds for the line at `a`: inverted when the line was stored poisoned (R282, R286). -/
def State.lineStored (s : State) (a : Nat) : Nat :=
  (crcAt (s.peek a 128) a ^^^ (if s.linePoisoned a then 0xFFFFFFFF else 0)) ^^^ ((s.pageDamage a).crcs.get 0 (lineIx a)).toNat

/-- What the CRC says of a line (R286, R288). -/
inductive LineRes where
  | good | poisoned | uncorrectable
  deriving DecidableEq, Repr

def LineRes.bad : LineRes → Bool
  | .good => false
  | _ => true

/-- The check of a line read: its CRC matches, matches inverted, or fails (R286, R288). -/
def State.lineCheck (s : State) (a : Nat) : LineRes :=
  if crcAt (s.lineRaw a) a = s.lineStored a then .good
  else if crcAt (s.lineRaw a) a ^^^ 0xFFFFFFFF = s.lineStored a then .poisoned
  else .uncorrectable

/-- Symbols of 128 bytes: symbol k is bytes 2k and 2k + 1 (R283). -/
def lineSyms (v : Nat) : List Nat := (List.range 64).map (fun k => bits v (16 * k) 16)
/-- Lines 0 to 31 of the page of address `a`. -/
def pageLines (a : Nat) : List Nat := (List.range 32).map (fun j => pageOf a + 128 * j)
/-- The parity symbols of the page's data (R283). -/
def State.pageCode (s : State) (a par : Nat) : List Nat := gf16.parity par ((pageLines a).flatMap (fun l => lineSyms (s.peek l 128)))
/-- The page's record (R286): the 32 stored CRCs, then the parity symbols, as they stand in HBM. -/
def State.pageRecord (s : State) (a par : Nat) : List Nat × List Nat :=
  ((pageLines a).map s.lineStored,
   (List.range par).map (fun i => (s.pageCode a par).getD i 0 ^^^ ((s.pageDamage a).syms.get 0 (2048 + i)).toNat))
/-- The word the page decoder receives, highest power first: the data symbols, then the parity (R283). -/
def State.pageWord (s : State) (a par : Nat) : List Nat := (pageLines a).flatMap (fun l => lineSyms (s.lineRaw l)) ++ (s.pageRecord a par).2

/-- First byte of page p's line j: module physical address. -/
def pageLine (i o j : Nat) : Nat := hbmBase i + o / 4096 * 4096 + 128 * j
def stkSrc (n : Nat) : Nat := srcIx 5 n

/-- The page of offset o is in detection-only mode (R292). -/
def State.detectOnly (s : State) (i o : Nat) : Bool :=
  s.fld (BT_MC_REGION_DETECT_ONLY i (s.regionOf i o)) == 1 ||
  (s.fld (BT_MC_STK_STAT_RECOVERY i (stackOf o)) == 1 && decide (s.fld (BT_MC_STK_STAT_REBUILD_PTR i (stackOf o)) ≤ stackPage o))

/-- Lines of the page of offset o whose check answers `r`. -/
def State.linesThat (s : State) (i o : Nat) (r : LineRes) : List Nat := (List.range 32).filter (fun j => s.lineCheck (pageLine i o j) == r)

/-- What the page decode answers. -/
inductive Decoded where
  /-- Accepted: the codeword, the symbols corrected, the erasures used. -/
  | ok (cw : List Nat) (syms eras : Nat)
  | failed
  deriving DecidableEq, Repr

/-- The symbols that a page's erased channels lose (R275, R288). -/
def State.lostSyms (s : State) (i o par : Nat) : List Nat :=
  let ch := s.fld (BT_MC_STK_ERASE_CHANNELS i (stackOf o)) ||| s.fld (BT_MC_STK_ERASE_FAILED i (stackOf o))
  (List.range (2048 + par)).filter (fun y =>
    if y < 2048 then bitOf ch (y / 64) else bitOf ch (channelOf (s.recordAddr i (stackPage o) (128 + 2 * (y - 2048)))))

/-- The two tries of the page decode (R288): a try is accepted when the decoder succeeds and changes no line whose CRC matched. -/
def State.pageDecode (s : State) (i o : Nat) : Decoded :=
  let par := paritySyms (s.fld (BT_MC_REGION_LEVEL i (s.regionOf i o)))
  let rx := s.pageWord (hbmBase i + o) par
  let matched := s.linesThat i o .good
  let failing := s.linesThat i o .uncorrectable
  let lost := s.lostSyms i o par
  let try_ (er : List Nat) : Option (List Nat × Nat) :=
    match gf16.decodeErase par rx er with
    | none => none
    | some (cw, n) => if matched.all (fun j => (cw.drop (64 * j)).take 64 == (rx.drop (64 * j)).take 64) then some (cw, n) else none
  let second := (List.range (2048 + par)).filter (fun y => lost.contains y || (decide (y < 2048) && failing.contains (y / 64)))
  match try_ lost with
  | some (cw, n) => .ok cw n lost.length
  | none =>
    if par < second.length then .failed
    else
      match try_ second with
      | some (cw, n) => .ok cw n second.length
      | none => .failed

/-- The 128 bytes of line j of a codeword. -/
def cwLine (cw : List Nat) (j : Nat) : Nat := ((cw.drop (64 * j)).take 64).foldr (fun y n => y + 65536 * n) 0

/-- The corrected lines are written back with fresh CRCs (R288); the scrubber writes the parity back too (R297). -/
def State.settle (s : State) (i o : Nat) (cw : List Nat) (parity : Bool) : State :=
  let par := paritySyms (s.fld (BT_MC_REGION_LEVEL i (s.regionOf i o)))
  let rec_ := (s.pageRecord (hbmBase i + o) par).2
  let failing := s.linesThat i o .uncorrectable
  let s := (List.range 32).foldl (fun s j => s.pokes (pageLine i o j) (leBytes 128 (cwLine cw j))) s
  let s := failing.foldl (fun s j => s.cleanLine (pageLine i o j)) s
  let left : Tbl (BitVec 16) := if parity then [] else
    (List.range par).foldl (fun t k => xorEntry t (2048 + k) (BitVec.ofNat 16 (rec_.getD k 0 ^^^ cw.getD (2048 + k) 0))) []
  s.setDamage (hbmBase i + o) { syms := left, crcs := [] }

/-- A page is logged (R299), at its first failing line or at the record. -/
def State.logPage (s : State) (i kind o req : Nat) (failing poisoned : List Nat) (syms eras : Nat) : State :=
  let a := match failing with
    | j :: _ => stackPage o * 4096 + 128 * j
    | [] => s.recordAddr i (stackPage o) 0
  s.logMem i (elogRec kind (stackOf o) a req (hbmBase i + o / 4096 * 4096) syms eras (ofBitList (failing ++ poisoned)) (s.fld LH_SLOT_COUNT_COUNT))

def evMemCorrected : Nat := 0x7001
def evMemUncorrectable : Nat := 0x3006

/-- A line that a controller reads from HBM for requester `req`: checked by its CRC, and by the page decode when it fails, with
the log, counters and events (R288, R292, R301). -/
def State.lineFix (s : State) (i a req : Nat) : LineRes × State :=
  let o := a - hbmBase i
  let n := stackOf o
  match s.lineCheck a with
  | .good => (.good, s)
  | .poisoned => (.poisoned, (s.logLine i 3 o req 0 0 (2 ^ lineIx a)).bump (BT_MC_STK_ECC_POISON_READS i n) 1)
  | .uncorrectable =>
    if s.detectOnly i o then
      (.uncorrectable, ((s.logLine i 2 o req 0 0 (2 ^ lineIx a)).bump (BT_MC_STK_ECC_UNCORRECTABLE i n) 1).raise evMemUncorrectable i (stkSrc n) (pageOf a))
    else
      let failing := s.linesThat i o .uncorrectable
      let marked := s.linesThat i o .poisoned
      match s.pageDecode i o with
      | .ok cw syms eras =>
        (.good, (((s.settle i o cw false).logPage i 1 o req failing marked syms eras).bump (BT_MC_STK_ECC_CORRECTED i n) 1).raise
          evMemCorrected i (stkSrc n) (pageOf a))
      | .failed =>
        (.uncorrectable, ((s.logMem i (elogRec 2 n (stackAddr o) req (pageOf a) 0 0 (ofBitList (failing ++ marked)) (s.fld LH_SLOT_COUNT_COUNT))).bump
          (BT_MC_STK_ECC_UNCORRECTABLE i n) failing.length).raise evMemUncorrectable i (stkSrc n) (pageOf a))

/-- The line at `a` is stored in HBM, with a fresh CRC and the page's parity by the code of the change, or recomputed where the
old line was uncorrectable (R289, R290). -/
def State.landLine (s : State) (a v : Nat) (bad : Bool) : State :=
  let s := s.pokes a (leBytes 128 v)
  let s := if bad then s.poisonLine a else s.cleanLine a
  s.setDamage a ((s.pageDamage a).mend (lineIx a))

/-- A read-modify-write of a whole line: the old line is checked first, and what the check found is logged (R289, R290). -/
def State.rewriteLine (s : State) (i a v req : Nat) (bad : Bool) : State :=
  (if s.lineCheck a == .uncorrectable then (s.lineFix i a req).2 else s).landLine a v bad

/-- Checks the cached words `ws` of a line as a read, a merge or a write-back does (R281); answers whether an uncorrectable word
was found. Corrected words are counted; a poison reading is counted. -/
def State.mscCheck (s : State) (i : Nat) (ws : List Nat) : Bool × State :=
  ws.foldl (fun (r : Bool × State) w =>
    match r.2.check (.mem w) true with
    | .corrected => (r.1, r.2.bump (BT_MSC_ECC_CORRECTED i) 1)
    | .wrong x => (r.1, ((r.2.poke w 8 x.toNat).unflip (.mem w)).bump (BT_MSC_ECC_CORRECTED i) 1)
    | .uncorrectable => (true, r.2.bump (BT_MSC_ECC_UNCORRECTABLE i) 1)
    | .poisoned => (r.1, ((r.2.setPoison w true).unflip (.mem w)).bump (BT_MSC_ECC_POISON_READS i) 1)
    | .good => if r.2.poisoned w then (r.1, r.2.bump (BT_MSC_ECC_POISON_READS i) 1) else r) (false, s)

/-- An uncorrectable word in a dirty line poisons the line, logged KIND 8 with EV_MEM_UNCORRECTABLE (R281). -/
def State.mscPoison (s : State) (i a req : Nat) : State :=
  (((s.poisonLine a).dropFlips a).logLine i 8 (a - hbmBase i) req 0 0 (2 ^ lineIx a)).raise evMemUncorrectable i (srcIx 0 0) (pageOf a)

def State.mscHas (s : State) (a : Nat) : Bool := s.msc.any (fun p => p.1 == a)
def State.mscDirty (s : State) (a : Nat) : Bool := (s.msc.get ⟨false, 0⟩ a).dirty

/-- Takes a line out of the cache: a dirty one is checked and written back, any poisoned word making the stored line poisoned
(R280, R281, R289). -/
def State.evict (s : State) (i a : Nat) : State :=
  let s1 :=
    if s.mscDirty a then
      let (bad, s') := s.mscCheck i (lineWords a)
      let s' := if bad then s'.mscPoison i a reqCache else s'
      s'.rewriteLine i a (s'.peek a 128) reqCache (s'.linePoisoned a)
    else s
  let s2 := s1.dropFlips a
  { s2 with msc := s2.msc.erase a }

/-- The cache of island i writes back its dirty lines and is empty (R280). -/
def State.writeBack (s : State) (i : Nat) : State :=
  (s.msc.filter (fun e => decide (hbmBase i ≤ e.1) && decide (e.1 < hbmBase (i + 1)))).foldl (fun (s : State) e => s.evict i e.1) s

/-- Pseudo-LRU over 16 ways (R279): a tree of 15 bits, bit k of node k (1 to 15); the path to a way turns away from it when it is
used. -/
def plruTouch (tree way : Nat) : Nat :=
  ((List.range 4).foldl (fun (r : Nat × Nat) k =>
    let b := way / 2 ^ (3 - k) % 2
    (putBits r.1 r.2 1 (1 - b), 2 * r.2 + b)) (tree, 1)).1
/-- The way that the tree points to. -/
def plruVictim (tree : Nat) : Nat := ((List.range 4).foldl (fun n _ => 2 * n + (if bitOf tree n then 1 else 0)) 1) - 16

def mscKey (i a : Nat) : Nat := i * 32768 + mscSet ((a - hbmBase i) / 128)
/-- The line's way has been used (R279). -/
def State.mscTouch (s : State) (i a way : Nat) : State :=
  { s with mscTree := s.mscTree.set (mscKey i a) (plruTouch (s.mscTree.get 0 (mscKey i a)) way) }

/-- Brings a line into the cache, in a free way or in that of the pseudo-LRU victim (R279). -/
def State.mscAlloc (s : State) (i a : Nat) (dirty : Bool) : State :=
  if s.mscHas a then
    let x := s.msc.get ⟨false, 0⟩ a
    { s with msc := s.msc.set a ⟨dirty || x.dirty, x.way⟩ }.mscTouch i a x.way
  else
    let ways := s.msc.filter (fun p => hbmBase i ≤ p.1 && p.1 < hbmBase (i + 1) && mscKey i p.1 == mscKey i a)
    let at_ (w : Nat) := ways.find? (fun p => p.2.way == w)
    match (List.range 16).find? (fun w => (at_ w).isNone) with
    | some w => { s with msc := s.msc.set a ⟨dirty, w⟩ }.mscTouch i a w
    | none =>
      let w := plruVictim (s.mscTree.get 0 (mscKey i a))
      let s := s.evict i (((at_ w).map (·.1)).getD a)
      { s with msc := s.msc.set a ⟨dirty, w⟩ }.mscTouch i a w

/-- The line is read from HBM into the cache (R279); an uncorrectable line is not kept. -/
def State.lineFetch (s : State) (i a req : Nat) : LineRes × State :=
  let (r, s) := s.lineFix i a req
  (r, if r == .uncorrectable then s else s.mscAlloc i a false)

/-- Reads words `ws` of the HBM line at physical line address `a` for requester `req` (R299 codes), through the cache. -/
def State.lineRead (s : State) (i a req : Nat) (ws : List Nat) : LineRes × State :=
  if s.mscHas a then
    let (bad, s) := ((s.bump (BT_MSC_STAT_HITS i) 1).mscAlloc i a false).mscCheck i ws
    if bad then
      if s.mscDirty a then (.poisoned, s.mscPoison i a req)
      else { s.dropFlips a with msc := s.msc.erase a }.lineFetch i a req
    else (if s.linePoisoned a then .poisoned else .good, s)
  else (s.bump (BT_MSC_STAT_MISSES i) 1).lineFetch i a req

/-- The words of a line that a byte mask touches, and those it covers in part. -/
def maskWords (a mask : Nat) : List Nat := (lineWords a).filter (fun w => bits mask (w - a) 8 != 0)
def maskParts (a mask : Nat) : List Nat := (lineWords a).filter (fun w => bits mask (w - a) 8 != 0 && bits mask (w - a) 8 != 255)

/-- Bytes of a line stored under a mask. -/
def State.setMasked (s : State) (a v mask : Nat) : State :=
  (List.range 128).foldl (fun s j => if bitOf mask j then s.setByte (a + j) (BitVec.ofNat 8 (v / 256 ^ j)) else s) s

/-- Writes bytes of one HBM line through the cache. `mask`: bit j for byte j. A full mask allocates the line without a read; a
part write merges into the line, keeps old marks, and poisons a line whose old bytes were uncorrectable (R280, R281, R290). -/
def State.lineWrite (s : State) (i a v mask req : Nat) (bad : Nat → Bool) : State :=
  let full := mask % 2 ^ 128 == 2 ^ 128 - 1
  let s :=
    if full then (if s.mscHas a then s.bump (BT_MSC_STAT_HITS i) 1 else s.bump (BT_MSC_STAT_MISSES i) 1).cleanLine a
    else
      let (r, s) := s.lineRead i a req (maskParts a mask)
      if r == .uncorrectable then (s.pokes a (leBytes 128 (s.lineRaw a))).poisonLine a else s
  let s := (maskWords a mask).foldl (fun s w => s.unflip (.mem w)) (s.setMasked a v mask)
  let s := (maskWords a mask).foldl (fun s w => if bad w then s.setPoison w true else s) s
  (s.mscAlloc i a true).armMsc i ((maskWords a mask).headD a)

/-- Reads `n` bytes (within one line) at a mapped physical address: the number, the outcome. -/
def State.physRead (s : State) (a n req : Nat) : Nat × Bool × State :=
  match place a with
  | .shoal i o => let (v, bad, s) := s.shoalRead i o n; (v, !bad.isEmpty, s)
  | .hbm i _ =>
    let (r, s) := s.lineRead i (a / 128 * 128) req (wordsOf a n)
    match r with
    | .uncorrectable => (s.lineRaw (a / 128 * 128) / 2 ^ (8 * (a % 128)) % 2 ^ (8 * n), true, s)
    | .poisoned => (s.peek a n, (wordsOf a n).any s.poisoned, s)
    | .good => (s.peek a n, false, s)
  | _ => (s.peek a n, false, s)

/-- Writes `n` bytes (within one line) at a mapped physical address. -/
def State.physWrite (s : State) (a n v req : Nat) (bad : Bool := false) : State :=
  match place a with
  | .shoal i o => s.shoalWrite i o (leBytes n v) (fun _ => bad)
  | .hbm i _ =>
    s.lineWrite i (a / 128 * 128) (v % 256 ^ n * 256 ^ (a % 128)) ((2 ^ n - 1) * 2 ^ (a % 128)) req (fun _ => bad)
  | _ => s.poke a n v

/-- Reads the whole line at physical line address `a`: its bits, the addresses of its bad words. -/
def State.physLine (s : State) (a req : Nat) : Nat × List Nat × State :=
  match place a with
  | .shoal i o => let (v, bad, s) := s.shoalRead i o 128; (v, bad.map (fun o => shoalBase i + o), s)
  | .hbm i _ =>
    let (r, s) := s.lineRead i a req (lineWords a)
    match r with
    | .uncorrectable => (s.lineRaw a, lineWords a, s)
    | .poisoned => (s.peek a 128, (lineWords a).filter s.poisoned, s)
    | .good => (s.peek a 128, [], s)
  | _ => (s.peek a 128, [], s)

/-- Writes a whole line at `a` under a byte mask; `bad` says of word k whether it is poisoned. -/
def State.physLineWrite (s : State) (a v mask req : Nat) (bad : Nat → Bool := fun _ => false) : State :=
  match place a with
  | .shoal i o => s.shoalWriteMask i o 128 v mask (fun w => bad ((w - o) / 8))
  | .hbm i _ => s.lineWrite i a v mask req (fun w => bad ((w - a) / 8))
  | _ => s.setMasked a v mask

/-- A line of a full-page write goes straight to HBM, the cached copy dropped; the page's parity is computed from the new data
(R279, R289). -/
def State.storeLine (s : State) (a v : Nat) (bad : Bool) : State :=
  let s := (s.dropFlips a).landLine a v bad
  { s with msc := s.msc.erase a }.setDamage a (s.pageDamage a).mendParity

/-- The page of address `l` lies whole in the `n` bytes at `a`. -/
def coversPage (a n l : Nat) : Bool := decide (a ≤ l / 4096 * 4096) && decide (l / 4096 * 4096 + 4096 ≤ a + n)

/-- A line of a full-page write goes straight to HBM (R289); any other line, and one of the shoal, as `physLineWrite` has it. -/
def State.physLineStore (s : State) (page : Bool) (a v mask req : Nat) (bad : Nat → Bool := fun _ => false) : State :=
  match page, place a with
  | true, .hbm _ _ => s.storeLine a v ((List.range 16).any bad)
  | _, _ => s.physLineWrite a v mask req bad

/-- A request refused because its page is retired is logged KIND 5 (R22, R300); `o`: an HBM offset of island i. -/
def State.noteRetired (s : State) (i o req : Nat) : State := if s.retired i o then s.logLine i 5 (o / 128 * 128) req 0 0 0 else s

/-- A request refused because its page is retired is logged KIND 5 (R22, R300); `a`: a local-view address of island i. -/
def State.noteRefused (s : State) (i a req : Nat) : State :=
  let o := a - 0x10000000000
  if 0x10000000000 ≤ a ∧ o < s.extent i ∧ s.retired i o then s.logLine i 5 (o / 128 * 128) req 0 0 0 else s

def fullMask : Nat := 2 ^ 128 - 1

/-! ### Scalar core: control words, traps (R116, R118) -/

def cwFrnd : Nat := 0x001
def cwFflags : Nat := 0x002
def cwSeed : Nat := 0x008
def cwStream : Nat := 0x009
def cwBase : Nat := 0x00A
def cwTvec : Nat := 0x010
def cwTpc : Nat := 0x011
def cwTcause : Nat := 0x012
def cwTval : Nat := 0x013
def cwTstat : Nat := 0x014
def cwXerr : Nat := 0x050
def cwFenceLimit : Nat := 0x051
def cwCkmark : Nat := 0x052

/-- Bits of a scalar-core control word; 0 for a number that is no word it holds (R130, R155, R156). -/
def cwWidth (n : Nat) : Nat :=
  match n with
  | 0x001 => 2 | 0x002 => 5 | 0x008 => 64 | 0x009 => 32 | 0x00A => 32
  | 0x010 => 64 | 0x011 => 64 | 0x012 => 8 | 0x013 => 64 | 0x014 => 2
  | 0x050 => 64 | 0x051 => 32 | 0x052 => 32
  | _ => if 0x040 ≤ n ∧ n < 0x050 then 32 else 0

def Core.cwGet (x : Core) (n : Nat) : Word := x.cw.get 0 n
def Core.cwSet (x : Core) (n : Nat) (v : Word) : Core :=
  { x with cw := x.cw.set n (BitVec.ofNat 64 (v.toNat % 2 ^ cwWidth n)), pcw := x.pcw.erase n }

/-- FLIP_MASK on the scalar register file: the written word takes the armed pattern (R296). -/
def State.armScalar (s : State) (c : CoreId) (kind r : Nat) : State := s.armIs c.isl 4 c.sc (.sreg c.isl c.sc kind r)

/-- A word of the scalar register file. -/
inductive SReg where
  | g (r : Reg)
  | f (r : Reg)
  | cw (n : Nat)
  deriving DecidableEq, Repr

/-- The poison event of R106, R110, R137: class 3, the unit as source, the address of the word as DETAIL. -/
def State.raisePoison (s : State) (i src addr : Nat) : State := s.raise 0x3001 i src (addr % 2 ^ 48)

def State.poisonG (s : State) (c : CoreId) (r : Reg) : State :=
  if r = 0 then s else let x := s.core c; s.setCore c { x with pg := x.pg ||| (1#32 <<< r.val) }
def State.poisonF (s : State) (c : CoreId) (r : Reg) : State :=
  let x := s.core c; s.setCore c { x with pf := x.pf ||| (1#32 <<< r.val) }

def SReg.at (c : CoreId) : SReg → FlipAt
  | .g r => .sreg c.isl c.sc 0 r
  | .f r => .sreg c.isl c.sc 1 r
  | .cw n => .sreg c.isl c.sc 2 n

def State.marked (s : State) (c : CoreId) : SReg → Bool
  | .g r => r ≠ 0 && (s.core c).pg.getLsbD r
  | .f r => (s.core c).pf.getLsbD r
  | .cw n => (s.core c).pcw.get false n

def State.mark (s : State) (c : CoreId) : SReg → State
  | .g r => s.poisonG c r
  | .f r => s.poisonF c r
  | .cw n => let x := s.core c; s.setCore c { x with pcw := x.pcw.set n true }

/-- The word takes a value, its mark and flip as they are. -/
def State.storeWord (s : State) (c : CoreId) (r : SReg) (v : Word) : State :=
  let x := s.core c
  match r with
  | .g q => if q = 0 then s else s.setCore c { x with g := x.g.set q v }
  | .f q => s.setCore c { x with f := x.f.set q v }
  | .cw n => s.setCore c { x with cw := x.cw.set n (BitVec.ofNat 64 (v.toNat % 2 ^ cwWidth n)) }

/-- The checker on a word an instruction reads (R110): one bit is corrected, written back and counted; an
uncorrectable word is counted, marked poisoned and raises EV_DATA_POISON. -/
def State.sense (s : State) (c : CoreId) (r : SReg) : State :=
  match s.check (r.at c) false with
  | .good => s
  | .corrected => (s.unflip (r.at c)).bump (IS_SC_ECC_CORRECTED c.isl c.sc) 1
  | .wrong v => ((s.unflip (r.at c)).storeWord c r v).bump (IS_SC_ECC_CORRECTED c.isl c.sc) 1
  | _ => (((s.unflip (r.at c)).bump (IS_SC_ECC_UNCORRECTABLE c.isl c.sc) 1).mark c r).raisePoison c.isl (srcIx 1 c.sc) 0

/-- A control word written whole, by CWW or by hardware: its mark and flip are gone, an armed pattern takes it (R110, R296). -/
def State.setCw (s : State) (c : CoreId) (n : Nat) (v : Word) : State :=
  ((s.setCore c ((s.core c).cwSet n v)).unflip (.sreg c.isl c.sc 2 n)).armScalar c 2 n

/-- A control word that the hardware reads on its own, through the checker: what depends on a word that is bad is a free
value (R110). -/
def State.hwRead (s : State) (c : CoreId) (n : Nat) : Word × State :=
  let s := s.sense c (.cw n)
  if s.marked c (.cw n) then s.free else ((s.core c).cwGet n, s)

/-- A control word that the hardware changes: it is read through the checker, and a bad word stays marked (R110). -/
def State.hwUpdate (s : State) (c : CoreId) (n : Nat) (f : Word → Word) : State :=
  let s := s.sense c (.cw n)
  let bad := s.marked c (.cw n)
  let s := s.setCw c n (f ((s.core c).cwGet n))
  if bad then s.mark c (.cw n) else s

def stIdle : Nat := 0
def stRunning : Nat := 1
def stFend : Nat := 2
def stHandler : Nat := 3
def stStopped : Nat := 4

def State.scState (s : State) (c : CoreId) : Nat := s.fld (IS_SC_STATUS_STATE c.isl c.sc)
def State.setScState (s : State) (c : CoreId) (v : Nat) : State := s.setFld (IS_SC_STATUS_STATE c.isl c.sc) v

/-- Trap causes of R115. -/
def trIllegal : Nat := 1
def trOperand : Nat := 2
def trAnchor : Nat := 3
def trAddress : Nat := 4
def trAlign : Nat := 5
def trIfetch : Nat := 6
def trPoison : Nat := 7
def trBreak : Nat := 8
def trFence : Nat := 9

def Core.inTrap (x : Core) : Bool := bitOf (x.cwGet cwTstat).toNat 0

/-- The control words a trap saves (R116), lowest number first. -/
def State.saveTrap (s : State) (c : CoreId) (cause : Nat) (tpc tval : Word) (deferred : Bool) : State :=
  (((s.setCw c cwTpc tpc).setCw c cwTcause (BitVec.ofNat 64 cause)).setCw c cwTval tval).setCw c cwTstat (if deferred then 3 else 1)

/-- A trap counted in IS_SC_TRAP (R118), an instruction-fetch trap with its event (R114). -/
def State.countTrap (s : State) (c : CoreId) (cause : Nat) (tval : Word) : State :=
  let s := s.bump (IS_SC_TRAP_TRAPS c.isl c.sc) 1
  if cause = trIfetch then s.raise 0x3002 c.isl (srcIx 1 c.sc) (tval.toNat % 2 ^ 48) else s

/-- A fatal trap stops the core: IS_SC_TRAP records it and EV_SC_TRAP is raised (R118). -/
def State.fatalTrap (s : State) (c : CoreId) (cause : Nat) (tpc : Word) (deferred : Bool) : State :=
  ((((s.setScState c stStopped).setFld (IS_SC_TRAP_CAUSE c.isl c.sc) cause).setFld (IS_SC_TRAP_DEFERRED c.isl c.sc)
    (if deferred then 1 else 0)).setFld (IS_SC_TRAP_TPC c.isl c.sc) (tpc.toNat % 2 ^ 32)).raise
      0x3003 c.isl (srcIx 1 c.sc) (cause + (if deferred then 256 else 0) + tpc.toNat % 2 ^ 32 * 2 ^ 32)

/-- The core continues at `pc`, waiting for nothing. -/
def State.resumeAt (s : State) (c : CoreId) (pc : Word) : State := let x := s.core c; s.setCore c { x with pc := pc, wait := .none }

/-- A trap (R116): saves cause, pc and value, enters the handler; fatal when already in a trap or with cw.tvec zero
(R118). cw.tstat and cw.tvec are read through the checker (R110). -/
def State.trap (s : State) (c : CoreId) (cause : Nat) (tpc tval : Word) (deferred : Bool) : State :=
  let (st, s) := s.hwRead c cwTstat
  let (tv, s) := s.hwRead c cwTvec
  let s := (s.saveTrap c cause tpc tval deferred).countTrap c cause tval
  if bitOf st.toNat 0 || tv == 0 then (s.resumeAt c (s.core c).pc).fatalTrap c cause tpc deferred
  else (s.resumeAt c (BitVec.ofNat 64 (tv.toNat / 8 * 8))).setScState c stHandler

/-- A precise trap of the instruction at issue. -/
def State.preciseTrap (s : State) (c : CoreId) (cause : Nat) (tval : Word := 0) : State :=
  s.trap c cause (s.core c).pc tval false

/-! ### The calibration store (R458, R459) -/

def Flash.copy (f : Flash) (k : Nat) : CalCopy := f.cal.get {} k
/-- The copy in use: a passing header with the later generation modulo 2^32. -/
def Flash.inUse (f : Flash) : Option Nat :=
  match (f.copy 0).good, (f.copy 1).good with
  | true, true => if 0 < ((f.copy 1).gen + 2 ^ 32 - (f.copy 0).gen) % 2 ^ 32 ∧ ((f.copy 1).gen + 2 ^ 32 - (f.copy 0).gen) % 2 ^ 32 < 2 ^ 31 then some 1 else some 0
  | true, false => some 0
  | false, true => some 1
  | false, false => none

def CalCopy.find (c : CalCopy) (kind inst : Nat) : Option CalRec := c.recs.find? (fun r => r.kind == kind && r.inst == inst && r.good)
/-- A record from the copy in use, or from the other where it passes there; else it is missing. -/
def Flash.calRec (f : Flash) (kind inst : Nat) : Option CalRec :=
  match f.inUse with
  | none => none
  | some k => match (f.copy k).find kind inst with
    | some r => some r
    | none => (f.copy (1 - k)).find kind inst

end Sys2Proof.Machine
end

