-- ==== Sys2Proof/Machine/Flags.lean ====
section
/-!
DEFINITION. Sticky flags: the scalar core's cw.fflags (R109), a vector core's cw.vflags with the island's register
(R95, R121), and a bank's flags with the island's registers (R73, R88).
-/
namespace Sys2Proof.Machine

open Sys2Proof

/-- Sets bits of cw.fflags (R109); the word is read through the checker, and written (R110, R296). -/
def State.setFflags (s : State) (c : CoreId) (fl : Nat) : State :=
  if fl % 32 = 0 then s else s.hwUpdate c cwFflags (fun v => BitVec.ofNat 64 ((v.toNat ||| fl) % 32))

/-- Sets bits of a vector core's cw.vflags, and with them IS_VEC_FLAGS (R121). -/
def State.setVflags (s : State) (i j fl : Nat) : State :=
  if fl % 32 = 0 then s
  else
    let x := s.vc i j
    ((s.setVc i j { x with vflags := x.vflags ||| BitVec.ofNat 5 fl }).orFld (IS_VEC_FLAGS_FLAGS i) (fl % 32)).orFld
      (IS_VEC_FLAGS_CORES i) (2 ^ j)

/-- Bank flags of R73. -/
def bfInexact : Nat := 1
def bfOverflow : Nat := 2
def bfInvalid : Nat := 4
def bfInfinite : Nat := 8
def bfAnchorLow : Nat := 16
def bfHeadroom : Nat := 32
def bfDrainOvf : Nat := 64
def bfPoison : Nat := 128

/-- IS_ARITH_FLAGS and IS_ARITH_ARRAYS follow a bank flag in the same cycle (R88). -/
def State.setArith (s : State) (i j fl : Nat) : State :=
  if fl % 256 = 0 then s
  else (s.orFld (IS_ARITH_FLAGS_FLAGS i) (fl % 256)).orFld (IS_ARITH_ARRAYS_ARRAYS i) (2 ^ j)

end Sys2Proof.Machine
end

