-- ==== Sys2Proof/Machine/Operands.lean ====
section
/-!
DEFINITION. How a scalar core issues an instruction and reads and writes its operands: the registers with their poison
marks and SECDED words (R110, R129, R165), the control words (R130, R131), the local address view (R203).
-/
namespace Sys2Proof.Machine

open Sys2Proof

/-! ### Registers -/

/-- g[r]; g0 reads zero (R129). -/
def Core.gGet (x : Core) (r : Reg) : Word := if r = 0 then 0 else x.g.get 0 r
def Core.fGet (x : Core) (r : Reg) : Word := x.f.get 0 r

/-- A later write to a register that an FB.ATOM is to write stands: the atomic's result, which the scoreboard holds before
it, is not seen again (R155). -/
def Core.overtake (x : Core) (r : Reg) : Core :=
  { x with xfers := x.xfers.map (fun y => match y.kind with
      | .fbAtom rd node off aop opnd cmp => if rd = r then { y with kind := .fbAtom 0 node off aop opnd cmp } else y
      | _ => y) }

/-- An FB.ATOM outstanding is to write g[r] (R155). -/
def Core.awaits (x : Core) (r : Reg) : Bool :=
  r != 0 && x.xfers.any (fun y => match y.kind with
    | .fbAtom rd _ _ _ _ _ => rd == r
    | _ => false)

/-- A source register that an FB.ATOM is still to write (R155). -/
def Core.waitsFor (x : Core) : SReg → Bool
  | .g r => x.awaits r
  | _ => false

/-- g[r] := v; a write to g0 is discarded; a write clears the poison mark (R110, R129, R165). `late`: an FB.ATOM's result that is still
to come to g[r] will not be seen. -/
def State.putG (s : State) (c : CoreId) (r : Reg) (v : Word) (late : Bool) : State :=
  if r = 0 then s
  else
    let x := if late then (s.core c).overtake r else s.core c
    ((s.setCore c { x with g := x.g.set r v, pg := x.pg &&& ~~~(1#32 <<< r.val) }).unflip (.sreg c.isl c.sc 0 r)).armScalar c 0 r
/-- g[r] := v, by an instruction. -/
def State.setG (s : State) (c : CoreId) (r : Reg) (v : Word) : State := s.putG c r v true

/-- f[r] := v. -/
def State.setF (s : State) (c : CoreId) (r : Reg) (v : Word) : State :=
  let x := s.core c
  ((s.setCore c { x with f := x.f.set r v, pf := x.pf &&& ~~~(1#32 <<< r.val) }).unflip (.sreg c.isl c.sc 1 r)).armScalar c 1 r

/-- Reads through the checker; answers whether some word is poisoned. -/
def State.senseAll (s : State) (c : CoreId) : List SReg → Bool × State
  | [] => (false, s)
  | r :: rs =>
    let s1 := match r with
      | .g q => if q = 0 then s else s.sense c r
      | _ => s.sense c r
    let (b, s2) := s1.senseAll c rs
    (s1.marked c r || b, s2)

/-! ### Issue -/

/-- What the body of an instruction does at issue. -/
inductive Act where
  /-- Its effect, then pc + 8. -/
  | done (s : State)
  /-- Its effect, then a jump. -/
  | jump (s : State) (pc : Word)
  /-- A precise trap in the state given. -/
  | trap (s : State) (cause : Nat) (tval : Word)
  /-- Not issued yet: it stalls, or waits on its operands. -/
  | stall (s : State)

/-- The island's tenancy runs (R44). -/
def State.isleRuns (s : State) (i : Nat) : Bool := (s.tenOf i).any (fun t => s.fld (TN_STATE_STATE t) == 3)

/-- A unit of the core's command group has found a deferred trap that the core has not yet taken (R117). -/
def State.faulted (s : State) (c : CoreId) : Bool :=
  (groupArrays c.sc 255).any (fun j => (s.issue c.isl (.array j)).fault.isSome) || (groupVecs c.sc 15).any (fun j => (s.issue c.isl (.vec j)).fault.isSome)

/-- Scalar core c may issue: its island in service and its tenancy running, itself running or in a handler, not waiting, with no
deferred trap to take first (R33, R44, R108, R111, R117, R118). -/
def State.canIssue (s : State) (c : CoreId) : Bool :=
  s.avail c.isl && s.isleRuns c.isl && (s.scState c == stRunning || s.scState c == stHandler) && (s.core c).wait == .none && !s.faulted c

/-- Instruction-cache line of a pc: 16 instructions (R113). -/
def lineOf (pc : Word) : Nat := pc.toNat / 128

def State.advance (s : State) (c : CoreId) (pc : Word) : State := let x := s.core c; s.setCore c { x with pc := pc }

/-- Where LOAD_IMAGE places the section of scalar core n (R112). -/
def State.progAddr (s : State) (c : CoreId) : Nat := s.progAt.get 0 (coreKey c)

/-- The page of HBM that holds line `line` of the core's section is retired: the fetch is refused (R22, R300). -/
def State.fetchRefused (s : State) (c : CoreId) (line : Nat) : Bool :=
  match place (s.progAddr c + 128 * line) with
  | .hbm i o => s.retired i o
  | _ => false
def State.noteFetch (s : State) (c : CoreId) (line : Nat) : State :=
  s.logLine c.isl 5 ((s.progAddr c + 128 * line) % 0x6000000000 / 128 * 128) reqCore 0 0 0

/-- Issues one instruction that reads the words `srcs` (R22, R108, R112, R114, R120, R165): a fetch outside the section
traps ADDRESS, as does one that a retired page refuses, one in a bad line IFETCH; of several precise causes the lowest code is taken; a poisoned source traps
POISON; a source that an FB.ATOM is still to write stalls the instruction (R155). A core that cannot issue leaves the command without effect. -/
def issueWith (c : CoreId) (srcs : List SReg) (body : State → Act) (s : State) : State :=
  if s.canIssue c = false then s
  else
    let pc := (s.core c).pc
    if (s.core c).sect < pc.toNat + 8 then s.preciseTrap c trAddress pc
    else if !((s.core c).icache.any (fun e => e.1 == lineOf pc)) && s.fetchRefused c (lineOf pc) then (s.noteFetch c (lineOf pc)).preciseTrap c trAddress pc
    else if (s.core c).icache.get false (lineOf pc) then s.preciseTrap c trIfetch pc
    else if srcs.any (s.core c).waitsFor then s
    else
      let (bad, s1) := s.senseAll c srcs
      match body s1 with
      | .trap s2 cause tval => if bad && decide (trPoison < cause) then s1.preciseTrap c trPoison else s2.preciseTrap c cause tval
      | .stall s2 => s2
      | .jump s2 t => if bad then s1.preciseTrap c trPoison else s2.advance c t
      | .done s2 => if bad then s1.preciseTrap c trPoison else s2.advance c (pc + 8)

/-! ### Values -/

/-- imm40 sign-extended to 64 bits (R125). -/
def sext40 (v : BitVec 40) : Word := v.signExtend 64

/-- The second operand of an integer instruction (R133). -/
def opdVal (x : Core) : Opd → Word
  | .reg r => x.gGet r
  | .imm v => sext40 v
def opdSrcs : Opd → List SReg
  | .reg r => [.g r]
  | .imm _ => []

/-- The value of a control word as a scalar core reads it: its own words, and those the tenancy, the island and the
core's place hold (R130). None for an undefined number or a vector-core word. -/
def State.cwRead (s : State) (c : CoreId) (n : Nat) : Option Word :=
  if cwWidth n ≠ 0 then some ((s.core c).cwGet n)
  else if n = 0x020 then some (BitVec.ofNat 64 (s.fld (TN_STEP_STEP ((s.tenOf c.isl).getD 0))))
  else if n = 0x021 then some (BitVec.ofNat 64 (s.logicalOf ((s.tenOf c.isl).getD 0) c.isl))
  else if n = 0x022 then some (BitVec.ofNat 64 c.sc.val)
  else if n = 0x023 then some (BitVec.ofNat 64 (s.fld (TN_FRAME_CFG_FRAME_SLOTS ((s.tenOf c.isl).getD 0))))
  else none

/-- A word CWW may write: the core's own but cw.tstat (R130, R131). -/
def cwWritable (n : Nat) : Bool := cwWidth n != 0 && n != cwTstat

/-- TN_STEP as cw.step. -/
def State.stepWord (s : State) (i : Nat) : Word := BitVec.ofNat 64 (s.fld (TN_STEP_STEP ((s.tenOf i).getD 0)))

end Sys2Proof.Machine
end

