-- ==== Sys2Proof/Machine/Units.lean ====
section
/-!
DEFINITION. The issue queues of arrays and vector cores (R107, R108, R117): issuing to the units of a command group,
the deferred trap a unit finds.
-/
namespace Sys2Proof.Machine

open Sys2Proof

/-- Instructions a queue holds (R108). -/
def queueSize : Nat := 16

/-- Puts a captured instruction in the queue of each unit named; a discarding unit drops it (R117). -/
def State.enqueue (s : State) (c : CoreId) (us : List UnitId) (op : UnitId → UnitOp) : State :=
  let x := s.core c
  let s := us.foldl (fun s u =>
    let q := s.issue c.isl u
    if q.discard then s
    else s.setIssue c.isl u { q with queue := q.queue ++ [⟨x.issueNo, c.sc, x.pc, op u⟩] }) s
  s.setCore c { s.core c with issueNo := x.issueNo + 1 }

/-- Some target's queue is full (R108). -/
def State.anyFull (s : State) (i : Nat) (us : List UnitId) : Bool :=
  us.any (fun u => decide (queueSize ≤ (s.issue i u).queue.length))

/-- Issue to the named units, or a stall counted in ISSUE_STALLS when a queue is full (R108). -/
def State.issueTo (s : State) (c : CoreId) (us : List UnitId) (op : UnitId → UnitOp) : Act :=
  if s.anyFull c.isl us then .stall (s.bump (IS_SC_STATUS_ISSUE_STALLS c.isl c.sc) 1)
  else .done (s.enqueue c us op)

/-- The unit finds a deferred trap: it drops what its core has queued and waits to report (R117). -/
def State.unitFault (s : State) (i : Nat) (u : UnitId) (q : QOp) (cause : Nat) (addr : Option Word) : State :=
  let iss := s.issue i u
  s.setIssue i u { iss with queue := [], discard := true, fault := some ⟨q.sc, cause, addr.getD q.pc⟩, granted := false }

/-- A queue holds nothing of its scalar core issued before `before`, and no deferred trap that the core has still to take (R117, R166). -/
def Issue.clearBefore (q : Issue) (before : Nat) : Bool := q.fault.isNone && q.queue.all (fun o => decide (before ≤ o.no))

/-! ### Reads in a window (R150, R199) -/

/-- Another unit of the island is to execute in the unit's window. -/
def State.winPeers (s : State) (i : Nat) (u : UnitId) : Bool :=
  let q := s.issue i u
  (((List.finRange 64).map UnitId.array) ++ ((List.finRange 32).map UnitId.vec)).any (fun v => v != u && (s.issue i v).granted && (s.issue i v).wpos == q.wpos)

/-- A word of the shoal as a unit of window `w` reads it: a word that another unit of the window has read is not read again. -/
def State.winWord (s : State) (i w o : Nat) : Nat × Bool × State :=
  match (((s.mesh i).shared.get [] w).find? (fun p => p.1 == o)) with
  | some (_, v, b) => (v.toNat, b, s)
  | none =>
    let (v, b, s) := s.shoalWord i o
    let m := s.mesh i
    (v, b, s.setMesh i { m with shared := m.shared.set w ((m.shared.get [] w).set o (BitVec.ofNat 64 v, b)) })
def State.winWords (s : State) (i w o : Nat) : Nat → Nat × List Nat × State
  | 0 => (0, [], s)
  | n + 1 =>
    let (v, bad, s) := s.winWord i w o
    let (r, bs, s) := s.winWords i w (o + 8) n
    (v + 2 ^ 64 * r, if bad then o :: bs else bs, s)

/-- A unit reads `n` bytes at shoal offset `o` in its window. In a window of several units a word is read once and broadcast (R150,
R199). -/
def State.unitRead (s : State) (i : Nat) (u : UnitId) (o n : Nat) : Nat × List Nat × State :=
  if (s.issue i u).granted && (s.winPeers i u || (s.mesh i).shared.any (fun p => p.1 == (s.issue i u).wpos)) then
    let o8 := o / 8 * 8
    let (v, bad, s) := s.winWords i (s.issue i u).wpos o8 ((o + n + 7) / 8 - o / 8)
    (v / 2 ^ (8 * (o - o8)) % 2 ^ (8 * n), bad, s)
  else s.shoalRead i o n

/-- The unit's instruction has run: what its window read is kept while another of its units is to execute. -/
def State.leaveWin (s : State) (i : Nat) (u : UnitId) : State :=
  let m := s.mesh i
  let q := s.issue i u
  if q.granted && !m.shared.isEmpty && !s.winPeers i u then s.setMesh i { m with shared := m.shared.erase q.wpos } else s

/-- DEFERRED_TRAP (R115 to R117): the report of a unit's deferred trap. The core takes it before its next instruction;
a wait is abandoned and counts as not issued; a BARRIER whose arrival was sent waits on, and the trap is taken at its
release. -/
def execDeferredTrap (isl : Fin 16) (u : UnitId) (s : State) : Out :=
  let q := s.issue isl u
  match q.fault with
  | none => .next s
  | some t =>
    let c : CoreId := ⟨isl, Fin.ofNat 8 t.sc⟩
    let s := s.setIssue isl u { q with fault := none }
    let x := s.core c
    match x.wait with
    | .barrier _ _ _ true => .next (s.setCore c { x with pend := some t })
    | _ =>
      if s.scState c = stRunning ∨ s.scState c = stHandler then .next (s.trap c t.cause x.pc t.tval true)
      else .next s

end Sys2Proof.Machine
end

