-- ==== Sys2Proof/Machine/Vector.lean ====
section
/-!
DEFINITION. Vector instructions (R89 to R106, R139 to R146): their legality, what a vector core does with one at the
head of its queue, and the issue of each.
-/
namespace Sys2Proof.Machine

open Sys2Proof

/-! ### Legality (R125, R127, R128, R139 to R146) -/

/-- Which fields an instruction uses: registers, mask, rounding, S2, the bits of imm16, the formats accepted
(bit f for fmt f; 0: fmt must be zero). -/
structure VSpec where
  vd : Bool := true
  vs1 : Bool := true
  vs2 : Bool := false
  vs3 : Bool := false
  mask : Bool := true
  rnd : Bool := false
  s2 : Bool := false
  imm : Nat := 0
  fmts : Nat := 7

def VOp.spec : VOp → VSpec
  | .vadd | .vsub | .vmul | .vdiv => { vs2 := true, rnd := true, s2 := true }
  | .vsqrt => { rnd := true }
  | .vmin | .vmax => { vs2 := true, s2 := true }
  | .vfma | .vfms | .vfnma => { vs2 := true, vs3 := true, rnd := true, s2 := true }
  | .vabs | .vneg => {}
  | .viadd | .visub | .vimul | .vimulh | .vand | .vor | .vxor | .vsll | .vsrl | .vsra | .vimin | .vimax =>
    { vs2 := true, s2 := true, fmts := 24 }
  | .vcmp => { vs2 := true, s2 := true, imm := 7, fmts := 31 }
  | .mand | .mor | .mxor | .mandn => { vs2 := true, mask := false, fmts := 0 }
  | .vcvt => { rnd := true, imm := 15, fmts := 63 }
  | .vmov | .vbcast => { fmts := 63 }
  | .vsel => { vs2 := true, fmts := 63 }
  | .vexp2 | .vlog2 | .vrcp | .vrsq | .vsin | .vcos => { fmts := 3 }
  | .vrsum => { rnd := true, fmts := 31 }
  | .vrmax | .vrmin => { fmts := 31 }
  | .smxInit => { vd := false, vs1 := false, imm := 3, fmts := 1 }
  | .smxStep => { imm := 63, fmts := 1 }
  | .smxMerge => { vs1 := false, imm := 15, fmts := 1 }
  | .smxRead => { vs1 := false, imm := 3, fmts := 1 }
  | .smxWrite => { vd := false, imm := 3, fmts := 1 }
  | .vld | .vst => { vs2 := true, imm := 65535, fmts := 63 }
  | .vcg => { vs2 := true, fmts := 16 }
  | .vperm => { vs2 := true, fmts := 24 }
  | .vrot => { imm := 127, fmts := 24 }
  | .vcwr | .vcwrc => { vs1 := false, mask := false, imm := 4095, fmts := 0 }
  | .vcww => { vd := false, mask := false, imm := 4095, fmts := 0 }

def VOp.isMask : VOp → Bool
  | .mand | .mor | .mxor | .mandn => true
  | _ => false

/-- The destination format of VCVT (R141). -/
def cvtDst (a : VArgs) : Nat := a.imm.toNat % 8

/-- Not ILLEGAL under R127: unused fields zero, mask registers in range, a word of the vector core's own. -/
def vLegal (op : VOp) (a : VArgs) : Bool :=
  let p := op.spec
  (p.vd || a.vd == 0) && (p.vs1 || a.vs1 == 0) && (p.vs2 || a.vs2 == 0) && (p.vs3 || a.vs3 == 0) &&
  (p.mask || a.mask == 0) && (p.rnd || (!a.rmEn && a.rm == 0)) && (p.s2 || !a.s2) &&
  decide (a.imm.toNat &&& p.imm = a.imm.toNat) && (p.fmts != 0 || a.fmt == 0) &&
  (match op with
   | .vcmp => decide (a.vd.val < 8)
   | .mand | .mor | .mxor | .mandn => decide (a.vd.val < 8) && decide (a.vs1.val < 8) && decide (a.vs2.val < 8)
   | .vcvt => a.fmt.toNat == 2 || cvtDst a == 2 || a.imm.toNat < 8
   | .vcwr | .vcww => a.imm.toNat == 0x030 || a.imm.toNat == 0x031
   | .vcwrc => a.imm.toNat == 0x031
   | _ => true)

/-- Slot fields of the softmax instructions (R143). -/
def smxA (a : VArgs) : Nat := a.imm.toNat % 4
def smxB (a : VArgs) : Nat := a.imm.toNat / 4 % 4
def smxC (a : VArgs) : Nat := a.imm.toNat / 4 % 16 + 1

/-- Address of a VLD or VST at core position c (R144). -/
def vAddr (a : VArgs) (x y : Word) (pos : Nat) : Word :=
  x + BitVec.ofInt 64 (a.imm.toInt * 64) + BitVec.ofNat 64 pos * y
/-- Bytes of the access (R144). -/
def vBytes (a : VArgs) : Nat := if a.fmt.toNat = 1 ∨ a.fmt.toNat = 5 then 256 else 512

/-- Not OPERAND at issue under R128 and R140 to R146; `x`, `y` are the scalar operands. -/
def vOperandOk (op : VOp) (a : VArgs) (x y : Word) : Bool :=
  let p := op.spec
  a.cores != 0 && (p.fmts == 0 || bitOf p.fmts a.fmt.toNat) &&
  (match op with
   | .vcmp => decide (a.imm.toNat < 7) && (decide (a.imm.toNat < 6) || decide (a.fmt.toNat < 3))
   | .vcvt => decide (cvtDst a < 6) && cvtDst a != a.fmt.toNat
   | .smxStep => decide (a.vs1.val + smxC a ≤ 32)
   | .smxMerge => decide (a.vd.val < 31) && smxA a != smxB a
   | .smxRead => decide (a.vd.val < 31)
   | .smxWrite => decide (a.vs1.val < 31)
   | .vld | .vst => (bitList 4 a.cores.toNat).all (fun c => (vAddr a x y c).toNat % 64 == 0)
   | .vcwr | .vcwrc => popc 4 a.cores.toNat == 1
   | _ => true)

/-! ### Lanes -/

/-- The number whose field j of `w` bits is `f j`, for j below n. -/
def packL (w : Nat) (f : Nat → Nat) : Nat → Nat
  | 0 => 0
  | n + 1 => packL w f n + f n % 2 ^ w * 2 ^ (w * n)

def VecCore.reg (x : VecCore) (r : Nat) : BitVec 4096 := x.v.get 0 r
def VecCore.poi (x : VecCore) (r : Nat) : BitVec 128 := x.vp.get 0 r
/-- A mask register; m0 reads as all ones (R90). -/
def VecCore.mask (x : VecCore) (r : Nat) : BitVec 128 := if r = 0 then BitVec.allOnes 128 else x.m.get 0 r
/-- A write to m0 is discarded (R90). -/
def VecCore.setMask (x : VecCore) (r : Nat) (v : BitVec 128) : VecCore :=
  if r = 0 then x else { x with m := x.m.set r v }

/-- Lane j of a register. -/
def lane (v : BitVec 4096) (j : Nat) : Nat := (v.extractLsb' (32 * j) 32).toNat
def ofLanes (f : Nat → Nat) : BitVec 4096 := BitVec.ofNat 4096 (packL 32 f 128)

/-- Elements of a format (R91, R126). -/
def fmtCount (fmt : Nat) : Nat := if fmt = 2 then 64 else 128
/-- Lane of the mask bit and first lane of element j. -/
def fmtLane (fmt j : Nat) : Nat := if fmt = 2 then 2 * j else j
def fmtWidth (fmt : Nat) : Nat := if fmt = 2 then 64 else if fmt = 1 ∨ fmt = 5 then 16 else 32

/-- Element j of a register under a format (R91). -/
def elemOf (fmt : Nat) (v : BitVec 4096) (j : Nat) : Nat :=
  if fmt = 2 then (v.extractLsb' (64 * j) 64).toNat else lane v j % 2 ^ fmtWidth fmt

def fmtOf (fmt : Nat) : FFmt := if fmt = 1 then fp16 else if fmt = 2 then fp64 else if fmt = 5 then bf16 else fp32

/-- A register whose active elements are `f j`, the others as in `old`. -/
def writeElems (fmt : Nat) (act : Nat → Bool) (old : BitVec 4096) (f : Nat → Nat) : BitVec 4096 :=
  if fmt = 2 then
    BitVec.ofNat 4096 (packL 64 (fun j => if act j then f j else (old.extractLsb' (64 * j) 64).toNat) 64)
  else ofLanes (fun j => if act j then f j % 2 ^ fmtWidth fmt else lane old j)

/-- The 128-bit number with bit j set where `f j`. -/
def ofBits (f : Nat → Bool) : BitVec 128 := BitVec.ofNat 128 (packL 1 (fun j => if f j then 1 else 0) 128)

/-- Poison of element j: any of its lanes. -/
def elemBad (fmt : Nat) (p : BitVec 128) (j : Nat) : Bool :=
  if fmt = 2 then p.getLsbD (2 * j) || p.getLsbD (2 * j + 1) else p.getLsbD j

/-- The poison bits of a register after its active elements were written with poison `f j`. -/
def writeBad (fmt : Nat) (act : Nat → Bool) (old : BitVec 128) (f : Nat → Bool) : BitVec 128 :=
  ofBits (fun l => let j := if fmt = 2 then l / 2 else l; if act j then f j else old.getLsbD l)

/-- OR of flags over the active elements. -/
def orFlags (act : Nat → Bool) (f : Nat → Nat) : Nat → Nat
  | 0 => 0
  | n + 1 => orFlags act f n ||| (if act n then f n else 0)

/-! ### Element operations (R139) -/

def two32 : Nat := 2 ^ 32
def asInt (fmt x : Nat) : Int := if fmt = 3 then sext 32 x else (x : Int)

/-- One element of an arithmetic instruction: operands, rounding mode; result and flags. -/
def elemOp (op : VOp) (fmt : Nat) (rm : Rm) (a b c : Nat) : Nat × Nat :=
  let f := fmtOf fmt
  match op with
  | .vadd => fAdd f rm a b
  | .vsub => fSub f rm a b
  | .vmul => fMul f rm a b
  | .vdiv => fDiv f rm a b
  | .vsqrt => fSqrt f rm a
  | .vmin => fMin f a b
  | .vmax => fMax f a b
  | .vfma => fFma f rm a b c
  | .vfms => fFms f rm a b c
  | .vfnma => fFnma f rm a b c
  | .vabs => (fAbs f a, 0)
  | .vneg => (fNeg f a, 0)
  | .viadd => ((a + b) % two32, 0)
  | .visub => ((a + two32 - b % two32) % two32, 0)
  | .vimul => (a * b % two32, 0)
  | .vimulh => (wrap 32 (asInt fmt a * asInt fmt b / 2 ^ 32), 0)
  | .vand => (a &&& b, 0)
  | .vor => (a ||| b, 0)
  | .vxor => (a ^^^ b, 0)
  | .vsll => (a * 2 ^ (b % 32) % two32, 0)
  | .vsrl => (a / 2 ^ (b % 32), 0)
  | .vsra => (wrap 32 (sext 32 a / 2 ^ (b % 32)), 0)
  | .vimin => (if asInt fmt b < asInt fmt a then b else a, 0)
  | .vimax => (if asInt fmt a < asInt fmt b then b else a, 0)
  | .vexp2 => sfu f .exp2 a
  | .vlog2 => sfu f .log2 a
  | .vrcp => sfu f .rcp a
  | .vrsq => sfu f .rsq a
  | .vsin => sfu f .sin a
  | .vcos => sfu f .cos a
  | _ => (a, 0)

/-- The predicate of VCMP: truth and flags (R140). -/
def vpred (fmt p a b : Nat) : Bool × Nat :=
  if fmt = 3 ∨ fmt = 4 then
    let x := asInt fmt a
    let y := asInt fmt b
    (match p with
     | 0 => x == y | 1 => x != y | 2 => decide (x < y) | 3 => decide (x ≤ y) | 4 => decide (y < x) | _ => decide (y ≤ x), 0)
  else
    let f := fmtOf fmt
    let x := decodeF f a
    let y := decodeF f b
    let un := x.isNan || y.isNan
    match p with
    | 0 => (x.eqv y, nanFlags [x, y])
    | 1 => (!x.eqv y, nanFlags [x, y])
    | 2 => (!un && x.lt y, if un then flNV else 0)
    | 3 => (!un && !y.lt x, if un then flNV else 0)
    | 4 => (!un && y.lt x, if un then flNV else 0)
    | 5 => (!un && !x.lt y, if un then flNV else 0)
    | _ => (un, nanFlags [x, y])

/-- One conversion between element formats (R141). -/
def elemCvt (src dst : Nat) (rm : Rm) (x : Nat) : Nat × Nat :=
  if src = 3 ∨ src = 4 then
    if dst = 3 ∨ dst = 4 then
      -- between the integer formats: out of range saturates and signals invalid (R94)
      let v := asInt src x
      let hi : Int := if dst = 3 then 2 ^ 31 - 1 else 2 ^ 32 - 1
      let lo : Int := if dst = 3 then -(2 ^ 31) else 0
      if hi < v then (wrap 32 hi, flNV) else if v < lo then (wrap 32 lo, flNV) else (wrap 32 v, 0)
    else fOfInt (fmtOf dst) rm (asInt src x)
  else if dst = 3 ∨ dst = 4 then fToInt (fmtOf src) rm (dst == 3) 32 x
  else fCvt (fmtOf src) (fmtOf dst) rm x

/-! ### Reductions (R96, R97, R142) -/

/-- One level of the tree. -/
def pairUp (f : Nat → Nat → Nat × Nat) : List (Option Nat) → List (Option Nat) × Nat
  | a :: b :: r =>
    let (t, fl) := pairUp f r
    match a, b with
    | some x, some y => let (z, g) := f x y; (some z :: t, fl ||| g)
    | some x, none => (some x :: t, fl)
    | none, y => (y :: t, fl)
  | l => (l, 0)

/-- The tree over 2^k leaves. -/
def treeUp (f : Nat → Nat → Nat × Nat) : Nat → List (Option Nat) → Option Nat × Nat
  | 0, l => (l.headD none, 0)
  | k + 1, l =>
    let (l', fl) := pairUp f l
    let (r, g) := treeUp f k l'
    (r, fl ||| g)

def redOp (op : VOp) (fmt : Nat) (rm : Rm) (a b : Nat) : Nat × Nat :=
  if fmt = 3 ∨ fmt = 4 then
    match op with
    | .vrsum => ((a + b) % two32, 0)
    | .vrmax => (if asInt fmt a < asInt fmt b then b else a, 0)
    | _ => (if asInt fmt b < asInt fmt a then b else a, 0)
  else
    match op with
    | .vrsum => fAdd (fmtOf fmt) rm a b
    | .vrmax => fMax (fmtOf fmt) a b
    | _ => fMin (fmtOf fmt) a b

/-- The result with every lane inactive (R97); none where the rule gives no value (integer maximum and minimum). -/
def redEmpty (op : VOp) (fmt : Nat) : Option Nat :=
  match op with
  | .vrsum => some 0
  | .vrmax => if fmt = 3 ∨ fmt = 4 then none else some (withSign (fmtOf fmt) true (fmtOf fmt).infBits)
  | _ => if fmt = 3 ∨ fmt = 4 then none else some (fmtOf fmt).infBits

/-! ### Streaming softmax (R101 to R103), one lane, FP32 with round-to-nearest-even -/

def negInf32 : Nat := 0xFF800000
def one32 : Nat := 0x3F800000
def add32 := fAdd fp32 .rne
def sub32 := fSub fp32 .rne
def mul32 := fMul fp32 .rne
def exp32 := sfu fp32 .exp2

/-- Maximum of a list of scores, starting from its first. -/
def maxList : Nat → List Nat → Nat × Nat
  | m, [] => (m, 0)
  | m, x :: r => let (y, fl) := fMax fp32 m x; let (z, g) := maxList y r; (z, fl ||| g)

structure SmxStep where
  alpha : Nat
  p : List Nat
  mx : Nat
  sm : Nat
  fl : Nat

/-- Folds the scores `xs` into (mx, sm). -/
def smxLane (mx sm : Nat) (xs : List Nat) : SmxStep :=
  let (bmax, f0) := maxList (xs.headD 0) xs.tail
  let (mnew, f1) := fMax fp32 mx bmax
  let es := xs.map (fun x => let (d, g) := sub32 x mnew; let (e, h) := exp32 d; (e, g ||| h))
  let (al, f2) := if mnew = negInf32 then (one32, 0) else (let (d, g) := sub32 mx mnew; let (e, h) := exp32 d; (e, g ||| h))
  let p := if mnew = negInf32 then xs.map (fun _ => 0) else es.map (·.1)
  let f3 := if mnew = negInf32 then 0 else es.foldl (fun a e => a ||| e.2) 0
  let leaves := p.map some ++ List.replicate (16 - p.length) none
  let (bs, f4) := treeUp add32 4 leaves
  let (t, f5) := mul32 al sm
  let (sm', f6) := add32 t (bs.getD 0)
  ⟨al, p, mnew, sm', f0 ||| f1 ||| f2 ||| f3 ||| f4 ||| f5 ||| f6⟩

/-- Merges (mx_b, sm_b) into (mx_a, sm_a): factors, new maximum and sum, flags. -/
def smxMergeLane (mxa sma mxb smb : Nat) : Nat × Nat × Nat × Nat × Nat :=
  let (mnew, f0) := fMax fp32 mxa mxb
  let e (m : Nat) : Nat × Nat := let (d, g) := sub32 m mnew; let (r, h) := exp32 d; (r, g ||| h)
  let (fa, f1) := if mnew = negInf32 then (one32, 0) else e mxa
  let (fb, f2) := if mnew = negInf32 then (one32, 0) else e mxb
  let (x, f3) := mul32 fa sma
  let (y, f4) := mul32 fb smb
  let (sm, f5) := add32 x y
  (fa, fb, mnew, sm, f0 ||| f1 ||| f2 ||| f3 ||| f4 ||| f5)

/-! ### Counter generator (R82, R83, R145) -/

def rotl32 (x n : Nat) : Nat := (x * 2 ^ n + x / 2 ^ (32 - n)) % two32
def cgRot (r : Nat) : Nat := [8, 20, 12, 24, 16, 4, 28, 8, 20, 12].getD r 0

/-- Rounds r, r + 1, … of the generator, `n` of them. -/
def cgRounds (k : Nat → Nat) : Nat → Nat → Nat → Nat → Nat × Nat
  | 0, _, x0, x1 => (x0, x1)
  | n + 1, r, x0, x1 =>
    let y0 := (x0 + x1 + k (r % 4) + (r + 1) * 0x11111111) % two32
    cgRounds k n (r + 1) y0 (rotl32 x1 (cgRot r) ^^^ y0)

def cgKey (seed step : Nat) (j : Nat) : Nat :=
  [seed % two32, seed / two32 % two32, step % two32, step / two32 % 65536].getD j 0

/-- cg(seed, step, stream, index), 64 bits (R82). -/
def cg (seed step stream index : Nat) : Nat :=
  let (x0, x1) := cgRounds (cgKey seed step) 10 0 index stream
  x1 * two32 + x0

/-- The 32-bit word for element number q (R83). -/
def cgWord (seed step stream q : Nat) : Nat :=
  let v := cg seed step stream (q % two32 / 2)
  if q % 2 = 0 then v % two32 else v / two32

/-! ### Register reads and writes with the checker (R105, R296) -/

/-- The registers an instruction reads. -/
def vReads (op : VOp) (a : VArgs) : List Nat :=
  match op with
  | .smxStep => (List.range (smxC a)).map (fun i => a.vs1.val + i)
  | .smxWrite => [a.vs1.val, a.vs1.val + 1]
  | .vst => [a.vd.val]
  | .vbcast | .vld | .vcg | .vcwr | .vcww | .vcwrc | .smxInit | .smxMerge | .smxRead => []
  | .mand | .mor | .mxor | .mandn => []
  | _ =>
    let p := op.spec
    a.vs1.val :: (if p.vs2 && !a.s2 then [a.vs2.val] else []) ++ (if p.vs3 then [a.vs3.val] else [])

/-- A lane pair reads as another value from now on (R296). -/
def State.setPair (s : State) (i j r p : Nat) (v : BitVec 64) : State :=
  let x := s.vc i j
  let old := x.reg r
  s.setVc i j { x with v := x.v.set r (ofLanes (fun l => if l / 2 = p then bits v.toNat (32 * (l % 2)) 32 else lane old l)) }

/-- Checks the 64 lane pairs of a register before it is read: corrected pairs are counted, an uncorrectable pair is
counted and its lanes become poisoned (R105). -/
def State.senseVec (s : State) (i j r : Nat) : State :=
  (List.range 64).foldl (fun s p =>
    match s.check (.vec i j r p) false with
    | .good => s
    | .corrected => s.bump (IS_VEC_ECC_CORRECTED i) 1
    | .wrong v => ((s.unflip (.vec i j r p)).setPair i j r p v).bump (IS_VEC_ECC_CORRECTED i) 1
    | _ =>
      let s := (s.unflip (.vec i j r p)).bump (IS_VEC_ECC_UNCORRECTABLE i) 1
      let x := s.vc i j
      (s.setVc i j { x with vp := x.vp.set r (x.poi r ||| BitVec.ofNat 128 (3 * 4 ^ p)) }).raisePoison i (srcIx 3 j) 0) s

/-- Writes lanes of a register: the value, its poison bits, and which lanes were written. A newly poisoned lane raises
EV_DATA_POISON with `addr` (R106); written pairs lose their flips; an armed pattern takes the lowest pair written. -/
def State.putVec (s : State) (i j r : Nat) (v : BitVec 4096) (p : BitVec 128) (lanes : BitVec 128) (addr : Nat := 0) : State :=
  let x := s.vc i j
  let new := (p &&& ~~~(x.poi r)) != 0
  let s := s.setVc i j { x with v := x.v.set r v, vp := x.vp.set r p }
  let written := (List.range 64).filter (fun q => lanes.getLsbD (2 * q) || lanes.getLsbD (2 * q + 1))
  let s := written.foldl (fun s q => s.unflip (.vec i j r q)) s
  let s := match written with
    | [] => s
    | q :: _ => s.armIs i 3 j (.vec i j r q)
  if new then s.raisePoison i (srcIx 3 j) addr else s

/-- The poison of a softmax slot's lanes; a lane that becomes poisoned raises EV_DATA_POISON (R105, R106). -/
def State.setSmxP (s : State) (i j slot : Nat) (p : BitVec 128) : State :=
  let x := s.vc i j
  let new := (p &&& ~~~(x.smxP.get 0 slot)) != 0
  let s := s.setVc i j { x with smxP := x.smxP.set slot p }
  if new then s.raisePoison i (srcIx 3 j) 0 else s

/-! ### Execution at the head of the queue -/

def VecCore.rmOf (x : VecCore) (a : VArgs) : Rm := Rm.ofCode (if a.rmEn then a.rm.toNat else x.vrnd.toNat)

/-- An elementwise instruction (R139). `f j` gives result, flags and poison of element j. -/
def State.vecElems (s : State) (i j : Nat) (a : VArgs) (dfmt : Nat) (act : Nat → Bool) (f : Nat → Nat × Nat × Bool) : State :=
  let x := s.vc i j
  let v := writeElems dfmt act (x.reg a.vd) (fun k => (f k).1)
  let p := writeBad dfmt act (x.poi a.vd) (fun k => (f k).2.2)
  let lanes := ofBits (fun l => act (if dfmt = 2 then l / 2 else l))
  (s.putVec i j a.vd v p lanes).setVflags i j (orFlags act (fun k => (f k).2.1) (fmtCount dfmt))

/-- Runs a vector instruction on vector core j of island i; a memory access outside the shoal answers the faulting
address instead (R144). -/
def State.runVec (s : State) (i j : Nat) (op : VOp) (a : VArgs) (sx sy seed step : Word) (pos : Nat) (bad : Bool) :
    State × Option Word :=
  let s := (vReads op a).foldl (fun s r => s.senseVec i j r) s
  let x := s.vc i j
  let fmt := a.fmt.toNat
  let m := x.mask a.mask
  let act (k : Nat) : Bool := m.getLsbD (fmtLane fmt k)
  let r1 := x.reg a.vs1
  let p1 := x.poi a.vs1
  let e1 (k : Nat) : Nat := elemOf fmt r1 k
  let e2 (k : Nat) : Nat := if a.s2 then sy.toNat % 2 ^ fmtWidth fmt else elemOf fmt (x.reg a.vs2) k
  let e3 (k : Nat) : Nat := elemOf fmt (x.reg a.vs3) k
  let b1 (k : Nat) : Bool := elemBad fmt p1 k
  let b2 (k : Nat) : Bool := !a.s2 && elemBad fmt (x.poi a.vs2) k
  let b3 (k : Nat) : Bool := elemBad fmt (x.poi a.vs3) k
  let rm := x.rmOf a
  let spec := op.spec
  match op with
  | .vadd | .vsub | .vmul | .vdiv | .vsqrt | .vmin | .vmax | .vfma | .vfms | .vfnma | .vabs | .vneg
  | .viadd | .visub | .vimul | .vimulh | .vand | .vor | .vxor | .vsll | .vsrl | .vsra | .vimin | .vimax
  | .vexp2 | .vlog2 | .vrcp | .vrsq | .vsin | .vcos =>
    (s.vecElems i j a fmt act (fun k =>
      let (r, fl) := elemOp op fmt rm (e1 k) (e2 k) (e3 k)
      (r, fl, b1 k || (spec.vs2 && b2 k) || (spec.vs3 && b3 k))), none)
  | .vmov => (s.vecElems i j a fmt act (fun k => (e1 k, 0, b1 k)), none)
  | .vbcast => (s.vecElems i j a fmt act (fun _ => (sx.toNat % 2 ^ fmtWidth fmt, 0, false)), none)
  | .vsel =>
    (s.vecElems i j a fmt (fun _ => true) (fun k => if act k then (e1 k, 0, b1 k) else (elemOf fmt (x.reg a.vs2) k, 0, elemBad fmt (x.poi a.vs2) k)), none)
  | .vcmp =>
    let res (k : Nat) := vpred fmt a.imm.toNat (e1 k) (e2 k)
    let old := x.mask a.vd
    let v := ofBits (fun l =>
      if fmt = 2 then (if l % 2 = 0 && act (l / 2) then (res (l / 2)).1 else old.getLsbD l)
      else if act l then (res l).1 else old.getLsbD l)
    ((s.setVc i j (x.setMask a.vd v)).setVflags i j (orFlags act (fun k => (res k).2) (fmtCount fmt)), none)
  | .mand => (s.setVc i j (x.setMask a.vd (x.mask a.vs1 &&& x.mask a.vs2)), none)
  | .mor => (s.setVc i j (x.setMask a.vd (x.mask a.vs1 ||| x.mask a.vs2)), none)
  | .mxor => (s.setVc i j (x.setMask a.vd (x.mask a.vs1 ^^^ x.mask a.vs2)), none)
  | .mandn => (s.setVc i j (x.setMask a.vd (x.mask a.vs1 &&& ~~~(x.mask a.vs2))), none)
  | .vcvt =>
    let dst := cvtDst a
    let h := a.imm.toNat / 8 % 2
    if fmt = 2 then
      -- 64 elements into lanes 64h to 64h + 63; the mask governs element k by bit 2k
      (s.vecElems i j a dst (fun l => decide (64 * h ≤ l) && decide (l < 64 * h + 64) && act (l - 64 * h))
        (fun l => let (r, fl) := elemCvt fmt dst rm (e1 (l - 64 * h)); (r, fl, b1 (l - 64 * h))), none)
    else if dst = 2 then
      (s.vecElems i j a dst (fun k => m.getLsbD (2 * k))
        (fun k => let (r, fl) := elemCvt fmt dst rm (e1 (64 * h + k)); (r, fl, b1 (64 * h + k))), none)
    else (s.vecElems i j a dst act (fun k => let (r, fl) := elemCvt fmt dst rm (e1 k); (r, fl, b1 k)), none)
  | .vrsum | .vrmax | .vrmin =>
    let n := fmtCount fmt
    let leaves := (List.range n).map (fun k => if act k then some (e1 k) else none)
    let (r, fl) := treeUp (redOp op fmt rm) (if fmt = 2 then 6 else 7) leaves
    let badIn := (List.range n).any (fun k => act k && b1 k)
    let (v, s) := match r with
      | some v => (v, s)
      | none => match redEmpty op fmt with
        | some v => (v, s)
        | none => let (w, s) := s.free; (w.toNat % two32, s)
    (s.vecElems i j a fmt (fun k => k == 0) (fun k => (v, if k = 0 then fl else 0, badIn)), none)
  | .smxInit =>
    let slot := smxA a
    let put (old : BitVec 4096) (v : Nat) := ofLanes (fun l => if act l then v else lane old l)
    (s.setVc i j { x with
      smxMx := x.smxMx.set slot (put (x.smxMx.get 0 slot) negInf32),
      smxSm := x.smxSm.set slot (put (x.smxSm.get 0 slot) 0),
      smxP := x.smxP.set slot (x.smxP.get 0 slot &&& ~~~m) }, none)
  | .smxStep =>
    let slot := smxA a
    let n := smxC a
    let mx := x.smxMx.get 0 slot
    let sm := x.smxSm.get 0 slot
    let sp := x.smxP.get 0 slot
    let regs := (List.range n).map (fun k => x.reg (a.vs1.val + k))
    let res (l : Nat) : SmxStep := smxLane (lane mx l) (lane sm l) (regs.map (fun r => lane r l))
    let badL := sp ||| ((List.range n).map (fun k => x.poi (a.vs1.val + k))).foldl (· ||| ·) 0
    let put (old : BitVec 4096) (f : Nat → Nat) := ofLanes (fun l => if act l then f l else lane old l)
    let newP (old : BitVec 128) : BitVec 128 := (old &&& ~~~m) ||| (badL &&& m)
    let s := (s.setVc i j { x with
      smxMx := x.smxMx.set slot (put mx (fun l => (res l).mx)),
      smxSm := x.smxSm.set slot (put sm (fun l => (res l).sm)) }).setSmxP i j slot (newP sp)
    let putRegs (s : State) : State := (List.range n).foldl (fun s k =>
      s.putVec i j (a.vs1.val + k) (put (x.reg (a.vs1.val + k)) (fun l => (res l).p.getD k 0)) (newP (x.poi (a.vs1.val + k))) m) s
    let putAlpha (s : State) : State := s.putVec i j a.vd (put ((s.vc i j).reg a.vd) (fun l => (res l).alpha)) (newP ((s.vc i j).poi a.vd)) m
    -- an armed pattern takes the lowest-numbered register written (R296)
    let s := if a.vd < a.vs1 then putRegs (putAlpha s) else putAlpha (putRegs s)
    (s.setVflags i j (orFlags act (fun l => (res l).fl) 128), none)
  | .smxMerge =>
    let sa := smxA a
    let sb := smxB a
    let res (l : Nat) := smxMergeLane (lane (x.smxMx.get 0 sa) l) (lane (x.smxSm.get 0 sa) l) (lane (x.smxMx.get 0 sb) l) (lane (x.smxSm.get 0 sb) l)
    let badL := x.smxP.get 0 sa ||| x.smxP.get 0 sb
    let put (old : BitVec 4096) (f : Nat → Nat) := ofLanes (fun l => if act l then f l else lane old l)
    let newP (old : BitVec 128) : BitVec 128 := (old &&& ~~~m) ||| (badL &&& m)
    let s := (s.setVc i j { x with
      smxMx := x.smxMx.set sa (put (x.smxMx.get 0 sa) (fun l => (res l).2.2.1)),
      smxSm := x.smxSm.set sa (put (x.smxSm.get 0 sa) (fun l => (res l).2.2.2.1)) }).setSmxP i j sa (newP (x.smxP.get 0 sa))
    let s := s.putVec i j a.vd (put (x.reg a.vd) (fun l => (res l).1)) (newP (x.poi a.vd)) m
    let s := s.putVec i j (a.vd.val + 1) (put (x.reg (a.vd.val + 1)) (fun l => (res l).2.1)) (newP (x.poi (a.vd.val + 1))) m
    (s.setVflags i j (orFlags act (fun l => (res l).2.2.2.2) 128), none)
  | .smxRead =>
    let slot := smxA a
    let put (old new : BitVec 4096) := ofLanes (fun l => if act l then lane new l else lane old l)
    let newP (old : BitVec 128) : BitVec 128 := (old &&& ~~~m) ||| (x.smxP.get 0 slot &&& m)
    let s := s.putVec i j a.vd (put (x.reg a.vd) (x.smxMx.get 0 slot)) (newP (x.poi a.vd)) m
    (s.putVec i j (a.vd.val + 1) (put (x.reg (a.vd.val + 1)) (x.smxSm.get 0 slot)) (newP (x.poi (a.vd.val + 1))) m, none)
  | .smxWrite =>
    let slot := smxA a
    let put (old new : BitVec 4096) := ofLanes (fun l => if act l then lane new l else lane old l)
    let bad := x.poi a.vs1 ||| x.poi (a.vs1.val + 1)
    ((s.setVc i j { x with
      smxMx := x.smxMx.set slot (put (x.smxMx.get 0 slot) r1),
      smxSm := x.smxSm.set slot (put (x.smxSm.get 0 slot) (x.reg (a.vs1.val + 1))) }).setSmxP i j slot
        ((x.smxP.get 0 slot &&& ~~~m) ||| (bad &&& m)), none)
  | .vld =>
    let ad := vAddr a sx sy pos
    let n := vBytes a
    if shoalSize < ad.toNat + n then (s, some ad)
    else
      let (v, badW, s) := s.unitRead i (.vec (Fin.ofNat 32 j)) ad.toNat n
      let w := if n = 256 then 16 else 32
      let laneBad (l : Nat) : Bool := badW.contains ((ad.toNat + l * w / 8) / 8 * 8)
      let old := (s.vc i j).reg a.vd
      let actL (l : Nat) : Bool := m.getLsbD (if fmt = 2 then l / 2 * 2 else l)
      let lv := ofLanes (fun l => if actL l then bits v (l * w) w else lane old l)
      let lp := ofBits (fun l => if actL l then laneBad l else ((s.vc i j).poi a.vd).getLsbD l)
      (s.putVec i j a.vd lv lp (ofBits actL) (shoalBase i + badW.headD 0), none)
  | .vst =>
    let ad := vAddr a sx sy pos
    let n := vBytes a
    if shoalSize < ad.toNat + n then (s, some ad)
    else
      let w := if n = 256 then 2 else 4
      let d := x.reg a.vd
      let dp := x.poi a.vd
      let actL (l : Nat) : Bool := m.getLsbD (if fmt = 2 then l / 2 * 2 else l)
      let v := packL (8 * w) (fun l => lane d l) 128
      let mask := packL w (fun l => if actL l then 2 ^ w - 1 else 0) 128
      (s.shoalWriteMask i ad.toNat n v mask (fun wd =>
        (List.range 128).any (fun l => actL l && dp.getLsbD l && (ad.toNat + l * w) / 8 * 8 == wd)), none)
  | .vcg =>
    (s.vecElems i j a 4 act (fun k =>
      (cgWord seed.toNat step.toNat (sy.toNat % two32) ((sx.toNat + pos * 128 + k) % two32), 0, bad)), none)
  | .vperm =>
    (s.vecElems i j a fmt act (fun k => let q := lane (x.reg a.vs2) k % 128; (lane r1 q, 0, p1.getLsbD q || (x.poi a.vs2).getLsbD k)), none)
  | .vrot => (s.vecElems i j a fmt act (fun k => let q := (k + a.imm.toNat % 128) % 128; (lane r1 q, 0, p1.getLsbD q)), none)
  | .vcww =>
    -- a flag that the write sets is set in IS_VEC_FLAGS too (R121)
    (if a.imm.toNat = 0x030 then s.setVc i j { x with vrnd := BitVec.ofNat 2 sx.toNat }
     else (s.setVc i j { x with vflags := BitVec.ofNat 5 sx.toNat }).setVflags i j (sx.toNat % 32), none)
  | .vcwr | .vcwrc => (s, none)

/-! ### Issue -/

/-- The scalar words an instruction reads at issue. -/
def vSrcs (op : VOp) (a : VArgs) : List SReg :=
  let g (r : Reg) : SReg := .g r
  match op with
  | .vbcast => if a.fmt.toNat = 3 ∨ a.fmt.toNat = 4 then [.g a.vs1] else [.f a.vs1]
  | .vld | .vst | .vcg => [g a.vs1, g a.vs2]
  | .vcww => [g a.vs1]
  | _ => if op.spec.s2 && a.s2 then (if a.fmt.toNat = 3 ∨ a.fmt.toNat = 4 then [.g a.vs2] else [.f a.vs2]) else []

def SReg.val (x : Core) : SReg → Word
  | .g r => x.gGet r
  | .f r => x.fGet r
  | .cw n => x.cwGet n

/-- The value captured for vs1 and for vs2 (R132, R139). -/
def vCapture (op : VOp) (a : VArgs) (x : Core) : Word × Word :=
  match vSrcs op a with
  | [p, q] => (p.val x, q.val x)
  | [p] => if op = .vbcast ∨ op = .vcww then (p.val x, 0) else (0, p.val x)
  | _ => (0, 0)

/-- Issues a vector instruction to every core its mask names (R127, R128, R132, R139). -/
def issueVec (op : VOp) (c : CoreId) (a : VArgs) (s : State) : State :=
  issueWith c (vSrcs op a) (fun s =>
    if !vLegal op a then .trap s trIllegal 0
    else
      let (x, y) := vCapture op a (s.core c)
      if !vOperandOk op a x y then .trap s trOperand 0
      else
        let (bad, s) := if op = .vcg then s.senseAll c [.cw cwSeed] else (false, s)
        s.issueTo c ((groupVecs c.sc a.cores.toNat).map .vec) (fun u =>
          .vec op a x y ((s.core c).cwGet cwSeed) (s.stepWord c.isl)
            (match u with | .vec j => j.val % 4 | .array _ => 0) bad)) s

def execVadd (c : CoreId) (a : VArgs) (s : State) : Out := .next (issueVec .vadd c a s)
def execVsub (c : CoreId) (a : VArgs) (s : State) : Out := .next (issueVec .vsub c a s)
def execVmul (c : CoreId) (a : VArgs) (s : State) : Out := .next (issueVec .vmul c a s)
def execVdiv (c : CoreId) (a : VArgs) (s : State) : Out := .next (issueVec .vdiv c a s)
def execVsqrt (c : CoreId) (a : VArgs) (s : State) : Out := .next (issueVec .vsqrt c a s)
def execVmin (c : CoreId) (a : VArgs) (s : State) : Out := .next (issueVec .vmin c a s)
def execVmax (c : CoreId) (a : VArgs) (s : State) : Out := .next (issueVec .vmax c a s)
def execVfma (c : CoreId) (a : VArgs) (s : State) : Out := .next (issueVec .vfma c a s)
def execVfms (c : CoreId) (a : VArgs) (s : State) : Out := .next (issueVec .vfms c a s)
def execVfnma (c : CoreId) (a : VArgs) (s : State) : Out := .next (issueVec .vfnma c a s)
def execVabs (c : CoreId) (a : VArgs) (s : State) : Out := .next (issueVec .vabs c a s)
def execVneg (c : CoreId) (a : VArgs) (s : State) : Out := .next (issueVec .vneg c a s)
def execViadd (c : CoreId) (a : VArgs) (s : State) : Out := .next (issueVec .viadd c a s)
def execVisub (c : CoreId) (a : VArgs) (s : State) : Out := .next (issueVec .visub c a s)
def execVimul (c : CoreId) (a : VArgs) (s : State) : Out := .next (issueVec .vimul c a s)
def execVimulh (c : CoreId) (a : VArgs) (s : State) : Out := .next (issueVec .vimulh c a s)
def execVand (c : CoreId) (a : VArgs) (s : State) : Out := .next (issueVec .vand c a s)
def execVor (c : CoreId) (a : VArgs) (s : State) : Out := .next (issueVec .vor c a s)
def execVxor (c : CoreId) (a : VArgs) (s : State) : Out := .next (issueVec .vxor c a s)
def execVsll (c : CoreId) (a : VArgs) (s : State) : Out := .next (issueVec .vsll c a s)
def execVsrl (c : CoreId) (a : VArgs) (s : State) : Out := .next (issueVec .vsrl c a s)
def execVsra (c : CoreId) (a : VArgs) (s : State) : Out := .next (issueVec .vsra c a s)
def execVimin (c : CoreId) (a : VArgs) (s : State) : Out := .next (issueVec .vimin c a s)
def execVimax (c : CoreId) (a : VArgs) (s : State) : Out := .next (issueVec .vimax c a s)
def execVcmp (c : CoreId) (a : VArgs) (s : State) : Out := .next (issueVec .vcmp c a s)
def execMand (c : CoreId) (a : VArgs) (s : State) : Out := .next (issueVec .mand c a s)
def execMor (c : CoreId) (a : VArgs) (s : State) : Out := .next (issueVec .mor c a s)
def execMxor (c : CoreId) (a : VArgs) (s : State) : Out := .next (issueVec .mxor c a s)
def execMandn (c : CoreId) (a : VArgs) (s : State) : Out := .next (issueVec .mandn c a s)
def execVcvt (c : CoreId) (a : VArgs) (s : State) : Out := .next (issueVec .vcvt c a s)
def execVmov (c : CoreId) (a : VArgs) (s : State) : Out := .next (issueVec .vmov c a s)
def execVsel (c : CoreId) (a : VArgs) (s : State) : Out := .next (issueVec .vsel c a s)
def execVbcast (c : CoreId) (a : VArgs) (s : State) : Out := .next (issueVec .vbcast c a s)
def execVexp2 (c : CoreId) (a : VArgs) (s : State) : Out := .next (issueVec .vexp2 c a s)
def execVlog2 (c : CoreId) (a : VArgs) (s : State) : Out := .next (issueVec .vlog2 c a s)
def execVrcp (c : CoreId) (a : VArgs) (s : State) : Out := .next (issueVec .vrcp c a s)
def execVrsq (c : CoreId) (a : VArgs) (s : State) : Out := .next (issueVec .vrsq c a s)
def execVsin (c : CoreId) (a : VArgs) (s : State) : Out := .next (issueVec .vsin c a s)
def execVcos (c : CoreId) (a : VArgs) (s : State) : Out := .next (issueVec .vcos c a s)
def execVrsum (c : CoreId) (a : VArgs) (s : State) : Out := .next (issueVec .vrsum c a s)
def execVrmax (c : CoreId) (a : VArgs) (s : State) : Out := .next (issueVec .vrmax c a s)
def execVrmin (c : CoreId) (a : VArgs) (s : State) : Out := .next (issueVec .vrmin c a s)
def execVSmxInit (c : CoreId) (a : VArgs) (s : State) : Out := .next (issueVec .smxInit c a s)
def execVSmxStep (c : CoreId) (a : VArgs) (s : State) : Out := .next (issueVec .smxStep c a s)
def execVSmxMerge (c : CoreId) (a : VArgs) (s : State) : Out := .next (issueVec .smxMerge c a s)
def execVSmxRead (c : CoreId) (a : VArgs) (s : State) : Out := .next (issueVec .smxRead c a s)
def execVSmxWrite (c : CoreId) (a : VArgs) (s : State) : Out := .next (issueVec .smxWrite c a s)
def execVld (c : CoreId) (a : VArgs) (s : State) : Out := .next (issueVec .vld c a s)
def execVst (c : CoreId) (a : VArgs) (s : State) : Out := .next (issueVec .vst c a s)
def execVCg (c : CoreId) (a : VArgs) (s : State) : Out := .next (issueVec .vcg c a s)
def execVperm (c : CoreId) (a : VArgs) (s : State) : Out := .next (issueVec .vperm c a s)
def execVrot (c : CoreId) (a : VArgs) (s : State) : Out := .next (issueVec .vrot c a s)
def execVCww (c : CoreId) (a : VArgs) (s : State) : Out := .next (issueVec .vcww c a s)

/-- The vector core at a position of the core's group. -/
def vecAt (c : CoreId) (pos : Nat) : Nat := c.sc.val * 4 + pos % 4

/-- Instructions that wait for a vector core's queue to drain, and read or write it themselves (R137, R146). -/
def drained (c : CoreId) (pos : Nat) (s : State) : Bool :=
  (s.issue c.isl (.vec (Fin.ofNat 32 (vecAt c pos)))).queue.isEmpty

/-- V.CWR and V.CWRC: exactly one core, whose queue has drained; read into g[vd]; V.CWRC clears cw.vflags (R146). -/
def vReadWord (op : VOp) (clear : Bool) (c : CoreId) (a : VArgs) (s : State) : State :=
  issueWith c [] (fun s =>
    if !vLegal op a then .trap s trIllegal 0
    else if !vOperandOk op a 0 0 then .trap s trOperand 0
    else
      let pos := ((bitList 4 a.cores.toNat).headD 0)
      if !drained c pos s then .stall s
      else
        let j := vecAt c pos
        let x := s.vc c.isl j
        let v : Word := if a.imm.toNat = 0x030 then x.vrnd.setWidth 64 else x.vflags.setWidth 64
        let s := if clear then s.setVc c.isl j { x with vflags := 0 } else s
        .done (s.setG c a.vd v)) s
def execVCwr (c : CoreId) (a : VArgs) (s : State) : Out := .next (vReadWord .vcwr false c a s)
def execVCwrc (c : CoreId) (a : VArgs) (s : State) : Out := .next (vReadWord .vcwrc true c a s)

/-- GETV: one lane, zero-extended, after the queue drains; a poisoned lane traps POISON (R135, R137). -/
def execGetv (c : CoreId) (rd rs1 : Reg) (pos : Fin 4) (lane' : Fin 128) (s : State) : Out :=
  .next (issueWith c [] (fun s =>
    if !drained c pos s then .stall s
    else
      let j := vecAt c pos
      let s := s.senseVec c.isl j rs1
      let x := s.vc c.isl j
      if (x.poi rs1).getLsbD lane' then .trap (s.raisePoison c.isl (srcIx 1 c.sc) 0) trPoison 0
      else .done (s.setG c rd (BitVec.ofNat 64 (lane (x.reg rs1) lane')))) s)

/-- PUTV: one lane written from g[rs1][31:0], after the queue drains (R135, R137). -/
def execPutv (c : CoreId) (rd rs1 : Reg) (pos : Fin 4) (lane' : Fin 128) (s : State) : Out :=
  .next (issueWith c [.g rs1] (fun s =>
    if !drained c pos s then .stall s
    else
      let j := vecAt c pos
      let v := ((s.core c).gGet rs1).toNat % two32
      let s := s.senseVec c.isl j rd
      let x := s.vc c.isl j
      .done (s.putVec c.isl j rd (ofLanes (fun l => if l = lane'.val then v else lane (x.reg rd) l))
        (x.poi rd &&& ~~~(1#128 <<< lane'.val)) (1#128 <<< lane'.val))) s)

end Sys2Proof.Machine
end

