-- ==== Sys2Proof/Machine/Array.lean ====
section
/-!
DEFINITION. Array instructions (R58 to R88, R149 to R154): their checks at issue, what an array does with one at the head
of its queue, MA.FLAGS.
-/
namespace Sys2Proof.Machine

open Sys2Proof

def MatArray.bank (x : MatArray) (b : Nat) : Bank := x.banks.get {} b
def MatArray.setBank (x : MatArray) (b : Nat) (k : Bank) : MatArray := { x with banks := x.banks.set b k }
def MatArray.buf (x : MatArray) (b : Bool) : Option WBuf := if b then x.buf1 else x.buf0
def MatArray.setBuf (x : MatArray) (b : Bool) (w : Option WBuf) : MatArray := if b then { x with buf1 := w } else { x with buf0 := w }
def Bank.at (k : Bank) (r n : Nat) : AccEl := k.el.get {} (r * 128 + n)

/-! ### What issue-time checks see: the state after the instructions already queued -/

/-- Format and sparsity of a buffer once the queue has run (R60, R64). -/
def MatArray.bufAhead (x : MatArray) (b : Bool) : Option (BitVec 5 × Bool) :=
  x.iss.queue.foldl (fun r o => match o.op with
    | .wload b' f sp _ => if b' = b then some (f, sp) else r
    | _ => r) ((x.buf b).map (fun w => (w.fmt, w.sparse)))

/-- Whether a bank is open, and whether its anchor is set, once the queue has run (R69, R70). -/
structure BankAhead where
  opened : Bool
  anchored : Bool
  cleared : BitVec 128

/-- Bits [first, first + n) of 128. -/
def rowMask (first n : Nat) : BitVec 128 := ofBits (fun r => decide (first ≤ r) && decide (r < first + n))

def BankAhead.after (k : BankAhead) (b : Nat) (op : UnitOp) : BankAhead :=
  match op with
  | .zero b' => if b'.val = b then ⟨false, false, 0⟩ else k
  | .anchor b' v => if b'.val = b then { k with anchored := v.toNat % 4096 != 2048 } else k
  | .scan b' .. => if b'.val = b then { k with anchored := true } else k
  | .mac b' .. => if b'.val = b then ⟨true, true, if k.opened then k.cleared else 0⟩ else k
  | .drain b' _ first n _ _ clr .. =>
    if b'.val = b ∧ clr ∧ k.opened then
      let c := k.cleared ||| rowMask first n
      if c = BitVec.allOnes 128 then ⟨false, false, 0⟩ else { k with cleared := c }
    else k
  | _ => k

def MatArray.bankAhead (x : MatArray) (b : Nat) : BankAhead :=
  let k := x.bank b
  x.iss.queue.foldl (fun r o => r.after b o.op) ⟨k.opened, k.anchor.isSome, k.cleared⟩

/-! ### Issue -/

/-- Address of array position j (R150). -/
def arrAddr (x y : Word) (pos : Nat) : Word := x + BitVec.ofNat 64 pos * y

/-- The arrays a mask names, by position. -/
def arrPos (mask : BitVec 8) : List Nat := bitList 8 mask.toNat
def arrUnits (c : CoreId) (mask : BitVec 8) : List UnitId := (groupArrays c.sc mask.toNat).map .array
def unitPos : UnitId → Nat
  | .array j => j.val % 8
  | .vec j => j.val % 4

/-- The named arrays. -/
def State.arrsOf (s : State) (c : CoreId) (mask : BitVec 8) : List MatArray :=
  (groupArrays c.sc mask.toNat).map (fun (j : Fin 64) => s.arr c.isl j.val)

def State.mode (s : State) (c : CoreId) (lo w : Nat) : Nat :=
  bits (s.fld (TN_FRAME_CFG_MODES ((s.tenOf c.isl).getD 0))) lo w

/-- MA.WLOAD (R152): the format, the mask and the tile bases are checked at issue (R61, R65, R149, R154). -/
def execMaWload (c : CoreId) (a : WloadArgs) (s : State) : Out :=
  .next (issueWith c [.g a.rs1, .g a.rs2] (fun s =>
    let x := (s.core c).gGet a.rs1
    let y := (s.core c).gGet a.rs2
    if a.arrays = 0 ∨ !inFmtOk a.fmtW ∨ (a.sp ∧ !sparseOk (fmtCode a.fmtW)) ∨
        !(arrPos a.arrays).all (fun p => (arrAddr x y p).toNat % 64 == 0) then .trap s trOperand 0
    else s.issueTo c (arrUnits c a.arrays) (fun u => .wload a.buf a.fmtW a.sp (arrAddr x y (unitPos u)))) s)

/-- MA.MAC (R60, R64, R70, R71, R154). -/
def execMaMac (c : CoreId) (a : MacArgs) (s : State) : Out :=
  .next (issueWith c [.g a.rs1, .g a.rs2, .g a.rs3] (fun s =>
    let x := (s.core c).gGet a.rs1
    let y := (s.core c).gGet a.rs2
    let stride := (s.core c).gGet a.rs3
    let m := a.m1.toNat + 1
    let us := s.arrsOf c a.arrays
    let okArr (u : MatArray) : Bool := match u.bufAhead a.buf with
      | none => false
      | some (fw, sp) => let k := macK a.fmtA fw sp; k != 0 && decide (rowBytes a.fmtA k ≤ stride.toNat)
    let prescan := if a.amEn then a.am else s.mode c 2 2 == 1
    if a.arrays = 0 ∨ !inFmtOk a.fmtA ∨ 128 < a.r0.toNat + m ∨ stride.toNat % 64 ≠ 0 ∨ !us.all okArr ∨
        !(arrPos a.arrays).all (fun p => (arrAddr x y p).toNat % 64 == 0) then .trap s trOperand 0
    else if !prescan ∧ us.any (fun u => !(u.bankAhead a.bank).anchored) then .trap s trAnchor 0
    else s.issueTo c (arrUnits c a.arrays) (fun u => .mac a.bank a.buf a.fmtA m a.r0.toNat (arrAddr x y (unitPos u)) stride prescan)) s)

/-- MA.SCAN (R68, R69, R152). -/
def execMaScan (c : CoreId) (a : ScanArgs) (s : State) : Out :=
  .next (issueWith c ([.g a.rs1, .g a.rs2, .g a.rs3] ++ (if a.ewsrc then [.g a.re] else [])) (fun s =>
    let x := (s.core c).gGet a.rs1
    let y := (s.core c).gGet a.rs2
    let stride := (s.core c).gGet a.rs3
    let m := a.m1.toNat + 1
    let us := s.arrsOf c a.arrays
    let okArr (u : MatArray) : Bool := match u.bufAhead a.buf with
      | none => a.ewsrc && decide (rowBytes a.fmtA (classK (fmtCode a.fmtA)) ≤ stride.toNat)
      | some (fw, sp) => let k := macK a.fmtA fw sp; k != 0 && decide (rowBytes a.fmtA k ≤ stride.toNat)
    if !a.ewsrc ∧ a.re ≠ 0 then .trap s trIllegal 0
    else if a.arrays = 0 ∨ !inFmtOk a.fmtA ∨ stride.toNat % 64 ≠ 0 ∨ !us.all okArr ∨
        !(arrPos a.arrays).all (fun p => (arrAddr x y p).toNat % 64 == 0) then .trap s trOperand 0
    else if us.any (fun u => (u.bankAhead a.bank).opened) then .trap s trAnchor 0
    else
      let ew : Option Int := if a.ewsrc then some (sext 12 ((s.core c).gGet a.re).toNat) else none
      s.issueTo c (arrUnits c a.arrays) (fun u => .scan a.bank a.buf a.fmtA m (arrAddr x y (unitPos u)) stride ew)) s)

/-- MA.ANCHOR (R68, R69). -/
def execMaAnchor (c : CoreId) (arrays : BitVec 8) (bank : Fin 4) (rs1 : Reg) (s : State) : Out :=
  .next (issueWith c [.g rs1] (fun s =>
    if arrays = 0 then .trap s trOperand 0
    else if (s.arrsOf c arrays).any (fun u => (u.bankAhead bank).opened) then .trap s trAnchor 0
    else
      let v := (s.core c).gGet rs1
      s.issueTo c (arrUnits c arrays) (fun _ => .anchor bank v)) s)

/-- MA.ZERO (R67). -/
def execMaZero (c : CoreId) (arrays : BitVec 8) (bank : Fin 4) (s : State) : Out :=
  .next (issueWith c [] (fun s =>
    if arrays = 0 then .trap s trOperand 0 else s.issueTo c (arrUnits c arrays) (fun _ => .zero bank)) s)

/-- A queued instruction on a bank. -/
def UnitOp.onBank (b : Nat) : UnitOp → Bool
  | .mac k .. => k.val == b
  | .scan k .. => k.val == b
  | .anchor k _ => k.val == b
  | .zero k => k.val == b
  | .drain k .. => k.val == b
  | _ => false

/-- MA.FLAGS: exactly one array; after earlier instructions on the bank; the flags to g[rd], cleared on request (R73, R149, R152). -/
def execMaFlags (c : CoreId) (arrays : BitVec 8) (bank : Fin 4) (rd : Reg) (clr : Bool) (s : State) : Out :=
  .next (issueWith c [] (fun s =>
    if popc 8 arrays.toNat ≠ 1 then .trap s trOperand 0
    else
      let j := ((groupArrays c.sc arrays.toNat).headD 0).val
      let x := s.arr c.isl j
      if x.iss.queue.any (fun o => o.op.onBank bank) then .stall s
      else
        let k := x.bank bank
        let s := if clr then s.setArr c.isl j (x.setBank bank { k with flags := 0 }) else s
        .done (s.setG c rd (k.flags.setWidth 64))) s)

/-- MA.DRAIN (R77, R83, R153, R154). -/
def execMaDrain (c : CoreId) (a : DrainArgs) (s : State) : Out :=
  .next (issueWith c [.g a.rs1, .g a.rs2, .g a.rs3] (fun s =>
    let x := (s.core c).gGet a.rs1
    let y := (s.core c).gGet a.rs2
    let stride := (s.core c).gGet a.rs3
    let n := a.count1.toNat + 1
    if a.arrays = 0 ∨ !outFmtOk a.ofmt ∨ 128 < a.first.toNat + n ∨ stride.toNat % 64 ≠ 0 ∨
        stride.toNat < outRowBytes a.ofmt ∨
        !(arrPos a.arrays).all (fun p => (arrAddr x y p).toNat % 64 == 0) then .trap s trOperand 0
    else
      let stoch := if a.rndEn then a.rnd else s.mode c 0 2 == 1
      let rule1 := if a.scEn then a.sc else s.mode c 4 2 == 1
      let (bad, s) := if stoch then s.senseAll c [.cw cwSeed, .cw cwStream, .cw cwBase] else (false, s)
      let k := s.core c
      s.issueTo c (arrUnits c a.arrays) (fun u =>
        .drain a.bank a.ofmt a.first.toNat n (arrAddr x y (unitPos u)) stride a.clr stoch rule1
          (k.cwGet cwSeed) (s.stepWord c.isl) (k.cwGet cwStream) (k.cwGet cwBase) bad)) s)

/-! ### Execution at the head of the queue -/

/-- Sets bank flags and the island's registers with them (R73, R88). -/
def State.setBankFlags (s : State) (i j b fl : Nat) : State :=
  let x := s.arr i j
  let k := x.bank b
  (s.setArr i j (x.setBank b { k with flags := k.flags ||| BitVec.ofNat 8 fl })).setArith i j fl

/-- A word of an element's Q reads as another value from now on (R296). -/
def State.setAccWord (s : State) (i j b w : Nat) (v : BitVec 64) : State :=
  let x := s.arr i j
  let k := x.bank b
  let e := k.el.get {} (w / 2)
  s.setArr i j (x.setBank b { k with el := k.el.set (w / 2) { e with q := BitVec.ofNat 128 (putBits e.q.toNat (64 * (w % 2)) 64 v.toNat) } })

/-- The checker on an element's two words when it is read: counts, and whether it is uncorrectable (R86). -/
def State.senseAcc (s : State) (i j b e : Nat) : Bool × State :=
  [2 * e, 2 * e + 1].foldl (fun (r : Bool × State) w =>
    match r.2.check (.acc i j b w) false with
    | .good => r
    | .corrected => (r.1, r.2.bump (IS_ACC_ECC_CORRECTED i) 1)
    | .wrong v => (r.1, ((r.2.unflip (.acc i j b w)).setAccWord i j b w v).bump (IS_ACC_ECC_CORRECTED i) 1)
    | _ => (true, r.2.bump (IS_ACC_ECC_UNCORRECTABLE i) 1)) (false, s)

/-- An element takes the poison mark: the bank's POISON flag and EV_DATA_POISON (R86). -/
def State.poisonAcc (s : State) (i j b addr : Nat) : State :=
  (s.setBankFlags i j b bfPoison).raisePoison i (srcIx 2 j) addr

/-- Stores an element; its words lose their flips. -/
def State.putAcc (s : State) (i j b e : Nat) (v : AccEl) : State :=
  let x := s.arr i j
  let k := x.bank b
  ((s.setArr i j (x.setBank b { k with el := k.el.set e v })).unflip (.acc i j b (2 * e))).unflip (.acc i j b (2 * e + 1))

/-- An armed accumulator pattern takes the low word of the first element an instruction writes (R296). -/
def State.armAcc (s : State) (i j b e : Nat) : State := s.armIs i 2 j (.acc i j b (2 * e))

/-- Reads `n` A rows of `len` bytes at `addr` with the stride: the bits of each, its first bad word if any. -/
def State.readRows (s : State) (i : Nat) (u : UnitId) (addr stride len : Nat) : Nat → List (Nat × Option Nat) × State
  | 0 => ([], s)
  | n + 1 =>
    let (v, bad, s) := s.unitRead i u addr len
    let (r, s) := s.readRows i u (addr + stride) stride len n
    ((v, bad.head?) :: r, s)

/-- MA.ZERO on a bank: elements, term counters and anchor; the flags stay (R67). -/
def Bank.zeroed (k : Bank) : Bank := { flags := k.flags }

/-- The columns a bad word of a tile serves (R86). -/
def tileCols (fw : BitVec 5) (sp : Bool) (badBytes : List Nat) : BitVec 128 :=
  let w := elBits (fmtCode fw)
  let e := tileElBytes fw
  let sc := tileScBytes fw sp
  ofBits (fun n => badBytes.any (fun b =>
    if b < e then
      -- elements of the stored row that overlap byte b
      (List.range 2).any (fun d => let x := (b * 8 + d * 7) / w; x % 128 == n)
    else if b < e + sc then (b - e) % 128 == n
    else ((b - e - sc) * 2) % 128 == n || ((b - e - sc) * 2 + 1) % 128 == n))

/-- Fills a weight buffer (R64, R65, R86). Answers false when a nibble is invalid: the buffer is left empty. -/
def State.runWload (s : State) (i j : Nat) (b : Bool) (fw : BitVec 5) (sp : Bool) (addr : Nat) : Bool × State :=
  let (t, bad, s) := s.unitRead i (.array (Fin.ofNat 64 j)) addr (tileBytes fw sp)
  if sp ∧ !tileSparseOk fw t then (false, s.setArr i j ((s.arr i j).setBuf b none))
  else
    let bytes := (bad.map (fun w => (List.range 8).map (fun k => w + k))).flatten.filterMap (fun x =>
      if addr ≤ x ∧ x < addr + tileBytes fw sp then some (x - addr) else none)
    let cols := tileCols fw sp bytes
    (true, s.setArr i j ((s.arr i j).setBuf b (some ⟨fw, sp, tileEW fw sp t, t, cols, shoalBase i + bad.headD 0⟩)))

/-- One element of one A row (R71, R72). -/
def macEl (lsb : Int) (as : List FV) (w : WBuf) (n : Nat) (old : AccEl) : AccEl × Nat :=
  let t := (as.zipIdx).foldl (fun t (p : FV × Nat) => rowSumAdd lsb t p.1 (wVal w.fmt w.sparse w.tile p.2 n)) ({} : RowSum)
  let (q, sat) := addSat old.q t.sum
  let spec := specAdd old.spec.toNat t.spec
  ({ old with q := q, spec := BitVec.ofNat 2 spec, sat := old.sat || sat },
    t.fl ||| (if sat then 2 else 0) ||| (if spec = 3 ∧ old.spec.toNat ≠ 3 then 4 else 0))

/-- MA.MAC at the head of the queue (R70 to R74, R86). -/
def State.runMac (s : State) (i j b : Nat) (buf : Bool) (fa : BitVec 5) (rows r0 addr stride : Nat) (prescan : Bool) : State :=
  match (s.arr i j).buf buf with
  | none => s
  | some w =>
    let depth := macK fa w.fmt w.sparse
    let (rs, s) := s.readRows i (.array (Fin.ofNat 64 j)) addr stride (rowBytes fa depth) rows
    let ea := rowsEA fa depth (rs.map (·.1))
    let own := ea + w.ew + 1
    let x := s.arr i j
    let k := x.bank b
    let k := match k.anchor with
      | none => if prescan then { k with anchor := some (scanAnchor ea w.ew) } else k
      | some _ => k
    let anchor := k.anchor.getD 0
    let lsb := anchor - 110
    let k := if k.opened then k else { k with opened := true, cleared := 0 }
    let s := s.setArr i j (x.setBank b k)
    let s := if anchor < own then s.setBankFlags i j b bfAnchorLow else s
    let s := (rs.zipIdx).foldl (fun s (p : (Nat × Option Nat) × Nat) =>
      let r := r0 + p.2
      let as := (List.range depth).map (aVal fa depth p.1.1)
      let s := (List.range 128).foldl (fun s n =>
        let e := r * 128 + n
        let (unc, s) := s.senseAcc i j b e
        let old := ((s.arr i j).bank b).at r n
        let (v, fl) := macEl lsb as w n old
        let bad := old.poison || unc || p.1.2.isSome || w.badCols.getLsbD n
        let s := (s.putAcc i j b e { v with poison := bad }).setBankFlags i j b fl
        if bad && !old.poison then s.poisonAcc i j b (match p.1.2 with | some o => shoalBase i + o | none => if w.badCols.getLsbD n then w.badAt else 0) else s) s
      let x := s.arr i j
      let k := x.bank b
      let t := min (k.terms.get 0 r + (if w.sparse then depth / 2 else depth)) (2 ^ 17 - 1)
      let s := s.setArr i j (x.setBank b { k with terms := k.terms.set r t })
      if 65536 < t then s.setBankFlags i j b bfHeadroom else s) s
    s.armAcc i j b (r0 * 128)

/-- MA.SCAN at the head of the queue (R68). -/
def State.runScan (s : State) (i j b : Nat) (buf : Bool) (fa : BitVec 5) (rows addr stride : Nat) (ew : Option Int) : State :=
  let w := (s.arr i j).buf buf
  let depth := match w with | some w => macK fa w.fmt w.sparse | none => classK (fmtCode fa)
  let (rs, s) := s.readRows i (.array (Fin.ofNat 64 j)) addr stride (rowBytes fa depth) rows
  let ea := rowsEA fa depth (rs.map (·.1))
  let e := ew.getD ((w.map (·.ew)).getD (-2047))
  let x := s.arr i j
  let k := x.bank b
  s.setArr i j (x.setBank b { k with anchor := some (raiseAnchor k.anchor (scanAnchor ea e)) })

/-- The random word of drained row r, column n (R83). -/
def drainWord (seed step stream base : Word) (r n : Nat) : Nat :=
  cgWord seed.toNat step.toNat (stream.toNat % two32) ((base.toNat + r * 128 + n) % two32)

/-- One drained row (R77 to R81): the bits of the row's bytes and the flags. -/
def drainRow (ofmt : BitVec 5) (anchor : Option Int) (els : List AccEl) (rnd : Nat → DrainRnd) (rule1 : Bool) : Nat × Nat :=
  let c := fmtCode ofmt
  let w := elBits c
  match anchor with
  | none => if fmtMx ofmt then (packL 8 (fun _ => 127) 4 * 2 ^ (128 * w), 0) else (0, 0)
  | some a =>
    let lsb := a - 110
    let el (n : Nat) : AccEl := els.getD n {}
    if fmtMx ofmt then
      let blocks := (List.range 4).map (fun b =>
        let vs := (List.range 32).map (fun k => el (b * 32 + k))
        if vs.any (fun v => v.spec != 0) then
          (List.replicate 32 0, 255, if vs.any (fun v => v.spec == 3) then 4 else 0)
        else
          let sh := mxShared c rule1 (vs.map (fun v => v.q.toInt)) lsb
          let es := (List.range 32).map (fun k => drainMx c (rnd (b * 32 + k)) (el (b * 32 + k)).q.toInt (lsb - sh))
          (es.map (·.1), (sh + 127).toNat, es.foldl (fun f e => f ||| e.2) 0))
      let codes := (blocks.map (fun b => b.1)).flatten
      (packL w (fun n => codes.getD n 0) 128 + packL 8 (fun b => (blocks.getD b ([], 0, 0)).2.1) 4 * 2 ^ (128 * w),
        blocks.foldl (fun f b => f ||| b.2.2) 0)
    else
      let es := (List.range 128).map (fun n => drainEl c (rnd n) (el n).spec.toNat (el n).q.toInt lsb)
      (packL w (fun n => (es.getD n (0, 0)).1) 128, es.foldl (fun f e => f ||| e.2) 0)

/-- Whether byte o of an output row belongs to a poisoned element, or to the scale of a block that holds one (R86). -/
def rowByteBad (ofmt : BitVec 5) (bad : Nat → Bool) (o : Nat) : Bool :=
  let w := elBits (fmtCode ofmt)
  let n := 128 * w / 8
  if o < n then (List.range 2).any (fun d => bad ((o * 8 + d * 7) / w))
  else (List.range 32).any (fun k => bad ((o - n) * 32 + k))

/-- MA.DRAIN at the head of the queue. -/
def State.runDrain (s : State) (i j b : Nat) (ofmt : BitVec 5) (first count addr stride : Nat) (clr stoch rule1 : Bool)
    (seed step stream base : Word) (badCw : Bool) : State :=
  let s := (List.range count).foldl (fun s r =>
    let row := first + r
    let (uncs, s) := (List.range 128).foldl (fun (p : List Nat × State) n =>
      let (u, s) := p.2.senseAcc i j b (row * 128 + n)
      (if u then n :: p.1 else p.1, s)) ([], s)
    let k := (s.arr i j).bank b
    let els := (List.range 128).map (fun n => k.at row n)
    let newBad := uncs.filter (fun n => !(k.at row n).poison)
    let s := if newBad.isEmpty then s
      else
        let s := newBad.foldl (fun s n => s.putAcc i j b (row * 128 + n) { ((s.arr i j).bank b).at row n with poison := true }) s
        s.poisonAcc i j b 0
    let bad (n : Nat) : Bool := badCw || (els.getD n {}).poison || uncs.contains n
    let (v, fl) := drainRow ofmt k.anchor els (fun n => if stoch then .stoch (drainWord seed step stream base r n) else .rne) rule1
    let s := s.setBankFlags i j b fl
    let o := addr + r * stride
    let s := s.shoalWrite i o (leBytes (outRowBytes ofmt) v) (fun w =>
      (List.range 8).any (fun q => decide (o ≤ w + q) && decide (w + q < o + outRowBytes ofmt) && rowByteBad ofmt bad (w + q - o)))
    if clr then
      let s := (List.range 128).foldl (fun s n => s.putAcc i j b (row * 128 + n) {}) s
      let x := s.arr i j
      let k := x.bank b
      s.setArr i j (x.setBank b { k with terms := k.terms.set row 0 })
    else s) s
  if clr then
    let x := s.arr i j
    let k := x.bank b
    let c := if k.opened then k.cleared ||| rowMask first count else 0
    let s := if c = BitVec.allOnes 128 then s.setArr i j (x.setBank b k.zeroed) else s.setArr i j (x.setBank b { k with cleared := c })
    s.armAcc i j b (first * 128)
  else s

/-- The shoal ranges a memory instruction reaches: offset and length (R199). None for one that uses no window. -/
def UnitOp.ranges (x : MatArray) : UnitOp → Option (List (Nat × Nat))
  | .vec op a sx sy _ _ pos _ =>
    if op = .vld ∨ op = .vst then some [((vAddr a sx sy pos).toNat, vBytes a)] else none
  | .wload _ f sp ad => some [(ad.toNat, tileBytes f sp)]
  | .mac _ buf fa rows _ ad st _ =>
    let k := match x.buf buf with | some w => macK fa w.fmt w.sparse | none => 0
    some ((List.range rows).map (fun r => (ad.toNat + r * st.toNat, rowBytes fa k)))
  | .scan _ buf fa rows ad st _ =>
    let k := match x.buf buf with | some w => macK fa w.fmt w.sparse | none => classK (fmtCode fa)
    some ((List.range rows).map (fun r => (ad.toNat + r * st.toNat, rowBytes fa k)))
  | .drain _ f _ n ad st .. => some ((List.range n).map (fun r => (ad.toNat + r * st.toNat, outRowBytes f)))
  | _ => none

/-- OP code of a window for an instruction (R197); 0 for one that uses none. -/
def UnitOp.winOp : UnitOp → Nat
  | .wload .. => 1 | .mac .. => 2 | .scan .. => 3 | .drain .. => 4
  | .vec .vld .. => 5 | .vec .vst .. => 6
  | _ => 0

/-- The first address beyond the shoal that an instruction reaches (R154). -/
def outside (rs : List (Nat × Nat)) : Option Nat := (rs.find? (fun r => decide (shoalSize < r.1 + r.2))).map (·.1)

end Sys2Proof.Machine
end

