-- ==== Sys2Proof/Machine/ScalarMem.lean ====
section
/-!
DEFINITION. Scalar loads and stores, integer and floating (R135 to R138): the local view, naturally aligned; an
instruction line fetched into the instruction cache (R113, R114).
-/
namespace Sys2Proof.Machine

open Sys2Proof

def effAddr (x : Core) (rs1 : Reg) (imm : BitVec 40) : Word := x.gGet rs1 + sext40 imm

/-- The first word of an access that is poisoned, for the event's DETAIL. -/
def wordOf (a : Nat) : Nat := a / 8 * 8

/-- A load of `n` bytes: unmapped traps ADDRESS, misaligned ALIGN, a bad word POISON with EV_DATA_POISON (R136, R137). -/
def load (c : CoreId) (rs1 : Reg) (imm : BitVec 40) (n : Nat) (write : State → Nat → State) (s : State) : State :=
  issueWith c [.g rs1] (fun s =>
    let a := effAddr (s.core c) rs1 imm
    match s.localPhys c.isl a.toNat with
    | none => .trap (s.noteRefused c.isl a.toNat reqCore) trAddress a
    | some p =>
      if a.toNat % n ≠ 0 then .trap s trAlign a
      else
        let (v, bad, s) := s.physRead p n reqCore
        if bad then .trap (s.raisePoison c.isl (srcIx 1 c.sc) (wordOf p)) trPoison 0
        else .done (write s v)) s

/-- A store of the low `n` bytes of a register value (R136). -/
def store (c : CoreId) (rt : SReg) (rs1 : Reg) (imm : BitVec 40) (n : Nat) (val : Core → Word) (s : State) : State :=
  issueWith c [.g rs1, rt] (fun s =>
    let a := effAddr (s.core c) rs1 imm
    match s.localPhys c.isl a.toNat with
    | none => .trap (s.noteRefused c.isl a.toNat reqCore) trAddress a
    | some p =>
      if a.toNat % n ≠ 0 then .trap s trAlign a
      else .done (s.physWrite p n ((val (s.core c)).toNat % 256 ^ n) reqCore)) s

def loadG (c : CoreId) (rd rs1 : Reg) (imm : BitVec 40) (n : Nat) (signed : Bool) (s : State) : State :=
  load c rs1 imm n (fun s v => s.setG c rd (if signed then BitVec.ofInt 64 (sext (8 * n) v) else BitVec.ofNat 64 v)) s

def execLd8s (c : CoreId) (rd rs1 : Reg) (imm : BitVec 40) (s : State) : Out := .next (loadG c rd rs1 imm 1 true s)
def execLd8u (c : CoreId) (rd rs1 : Reg) (imm : BitVec 40) (s : State) : Out := .next (loadG c rd rs1 imm 1 false s)
def execLd16s (c : CoreId) (rd rs1 : Reg) (imm : BitVec 40) (s : State) : Out := .next (loadG c rd rs1 imm 2 true s)
def execLd16u (c : CoreId) (rd rs1 : Reg) (imm : BitVec 40) (s : State) : Out := .next (loadG c rd rs1 imm 2 false s)
def execLd32s (c : CoreId) (rd rs1 : Reg) (imm : BitVec 40) (s : State) : Out := .next (loadG c rd rs1 imm 4 true s)
def execLd32u (c : CoreId) (rd rs1 : Reg) (imm : BitVec 40) (s : State) : Out := .next (loadG c rd rs1 imm 4 false s)
def execLd64 (c : CoreId) (rd rs1 : Reg) (imm : BitVec 40) (s : State) : Out := .next (loadG c rd rs1 imm 8 false s)

def storeG (c : CoreId) (rt rs1 : Reg) (imm : BitVec 40) (n : Nat) (s : State) : State :=
  store c (.g rt) rs1 imm n (fun x => x.gGet rt) s
def execSt8 (c : CoreId) (rt rs1 : Reg) (imm : BitVec 40) (s : State) : Out := .next (storeG c rt rs1 imm 1 s)
def execSt16 (c : CoreId) (rt rs1 : Reg) (imm : BitVec 40) (s : State) : Out := .next (storeG c rt rs1 imm 2 s)
def execSt32 (c : CoreId) (rt rs1 : Reg) (imm : BitVec 40) (s : State) : Out := .next (storeG c rt rs1 imm 4 s)
def execSt64 (c : CoreId) (rt rs1 : Reg) (imm : BitVec 40) (s : State) : Out := .next (storeG c rt rs1 imm 8 s)

/-- FLD32 fills bits [31:0] and clears the rest (R129). -/
def execFld32 (c : CoreId) (rd rs1 : Reg) (imm : BitVec 40) (s : State) : Out :=
  .next (load c rs1 imm 4 (fun s v => s.setF c rd (BitVec.ofNat 64 v)) s)
def execFld64 (c : CoreId) (rd rs1 : Reg) (imm : BitVec 40) (s : State) : Out :=
  .next (load c rs1 imm 8 (fun s v => s.setF c rd (BitVec.ofNat 64 v)) s)
def execFst32 (c : CoreId) (rt rs1 : Reg) (imm : BitVec 40) (s : State) : Out :=
  .next (store c (.f rt) rs1 imm 4 (fun x => x.fGet rt) s)
def execFst64 (c : CoreId) (rt rs1 : Reg) (imm : BitVec 40) (s : State) : Out :=
  .next (store c (.f rt) rs1 imm 8 (fun x => x.fGet rt) s)

end Sys2Proof.Machine
end

