-- ==== Sys2Proof/Machine/Ferry.lean ====
section
/-!
DEFINITION. The ferry (R240 to R271): base tiles post records for their packets, an arbiter for each plane matches and
grants, the data phase carries flits, receivers accept them in order. What a delivered packet does stands in
Deliver.lean.
-/
namespace Sys2Proof.Machine

open Sys2Proof

def State.tile (s : State) (b : Nat) : Tile := s.tiles.get {} b
def State.setTile (s : State) (b : Nat) (t : Tile) : State := { s with tiles := s.tiles.set b t }
def State.arb (s : State) (p : Nat) : Arbiter := s.arbiters.get {} p
def State.setArb (s : State) (p : Nat) (a : Arbiter) : State := { s with arbiters := s.arbiters.set p a }

/-- ISLAND_PRESENT of island i, as every arbiter sees it (R265, R271). -/
def State.present (s : State) (i : Nat) : Bool := s.fldBit (FY_PORTS_PRESENT 0) i
def State.setPresent (s : State) (i : Nat) (v : Bool) : State :=
  (List.range 4).foldl (fun s p => s.setFldBit (FY_PORTS_PRESENT p) i v) s

/-! ### Rings (R231, R264, R506) -/

/-- A lane of a base tile's port on a strait or ferry plane. -/
def laneKey (i plane j : Nat) : Nat := (i * 68 + plane) * 16 + j

/-- BT_ST_PORT.MISLOCKED says whether a lane of the port is mislocked now (R239). -/
def State.showMislock (s : State) (i plane : Nat) : State :=
  if 64 ≤ plane ∨ s.fld (BT_ST_PORT_MISLOCKED i plane) = 0 ∨ (List.range 16).any (fun j => s.mislocked.get false (laneKey i plane j)) then s
  else s.setFld (BT_ST_PORT_MISLOCKED i plane) 0

/-- The ring of a lane is locked on its wavelength: no sweep is left to make. -/
def State.ringLocked (s : State) (i plane j : Nat) : State :=
  let key := laneKey i plane j
  { s with mislocked := s.mislocked.erase key, sweeps := s.sweeps.erase key, trials := s.trials.filter (· != key) }.showMislock i plane

/-- An attempt has failed: another follows, or the lane fails at the next module slot tick (R500, R506). -/
def State.ringMissed (s : State) (i plane j : Nat) : State :=
  let key := laneKey i plane j
  let n := s.sweeps.get 0 key + 1
  let s := { s with trials := s.trials.filter (· != key) }
  if n < 3 then { s with sweeps := s.sweeps.set key n } else { s with sweeps := s.sweeps.erase key, causes := s.causes ++ [.lane i i plane j] }

/-- The first segment or flit after an attempt: the lock holds when it passes its identity-seeded CRC (R506). -/
def State.ringCheck (s : State) (i plane j : Nat) (good : Bool) : State :=
  if !s.trials.contains (laneKey i plane j) then s else if good then s.ringLocked i plane j else s.ringMissed i plane j

/-! ### Packets and streams (R246 to R249) -/

def ptRdReq : Nat := 1
def ptWrReq : Nat := 2
def ptRdRsp : Nat := 3
def ptWrAck : Nat := 4
def ptAtomReq : Nat := 5
def ptAtomRsp : Nat := 6
def ptFlagSet : Nat := 7
def ptFlagAdd : Nat := 8
def ptBarArrive : Nat := 9
def ptSkip : Nat := 10

/-- STATUS of a response (R246), the codes of R164. -/
def fsOk : Nat := 0
def fsPoison : Nat := 1
def fsUnmapped : Nat := 2
def fsReset : Nat := 3

/-- Cells of a packet type (R247). -/
def cellsOf (typ : Nat) : Nat :=
  match typ with
  | 2 => 10 | 3 => 9 | 5 => 2 | 6 => 2 | 7 => 2 | 8 => 2 | 9 => 2
  | _ => 1

/-- The header cell (R246). -/
def Pkt.header (p : Pkt) : Nat :=
  p.typ + p.vc * 2 ^ 4 + p.src * 2 ^ 6 + p.dst * 2 ^ 10 + p.tag * 2 ^ 14 + p.pseq * 2 ^ 27 + p.status * 2 ^ 43
    + (if p.tile then 2 ^ 47 else 0) + p.addr % 2 ^ 48 * 2 ^ 48 + p.aop * 2 ^ 96 + p.poison * 2 ^ 112

/-- A packet as cells of 128 bits (R247). -/
def Pkt.cells (p : Pkt) : List Nat :=
  let data8 := (List.range 8).map (fun k => bits p.data (128 * k) 128)
  p.header :: (
    if p.typ = ptWrReq then p.mask :: data8
    else if p.typ = ptRdRsp then data8
    else if cellsOf p.typ = 2 then [p.data % 2 ^ 128]
    else [])

/-- The packet whose cells begin with header `h` (R246, R247); `r`: the cells after it. -/
def Pkt.ofCells (h : Nat) (r : List Nat) : Pkt :=
  let join (l : List Nat) : Nat := l.foldr (fun c v => c + 2 ^ 128 * v) 0
  let typ := bits h 0 4
  { typ := typ, vc := bits h 4 2, src := bits h 6 4, dst := bits h 10 4, tag := bits h 14 13, pseq := bits h 27 16, status := bits h 43 3,
    tile := bitOf h 47, addr := bits h 48 48, aop := bits h 96 3, poison := bits h 112 16,
    mask := if typ = ptWrReq then r.headD 0 else 0,
    data := if typ = ptWrReq then join ((r.drop 1).take 8) else join (r.take (cellsOf typ - 1)) }

/-- The packets that a run of cells completes, PAD cells passed over, and the cells left; none when a header is of a reserved type (R247).
`n` bounds the headers. -/
def cellPkts : Nat → List Nat → Option (List Pkt × List Nat)
  | 0, cs => some ([], cs)
  | n + 1, cs =>
    match cs with
    | [] => some ([], [])
    | h :: r =>
      if h % 16 = 0 then cellPkts n r
      else if 11 ≤ h % 16 then none
      else if cs.length < cellsOf (h % 16) then some ([], cs)
      else (cellPkts n (cs.drop (cellsOf (h % 16)))).map (fun x => (Pkt.ofCells h r :: x.1, x.2))

/-- Stream of a packet: source, destination, origin, channel (R249). -/
def streamKey (p : Pkt) : Nat := ((p.src * 16 + p.dst) * 2 + (if p.tile then 1 else 0)) * 4 + p.vc

/-- PSEQ values given in the order in which the source accepts the work (R249). -/
def numberPkts (t : Tile) (ps : List Pkt) : Tile × List Pkt :=
  ps.foldl (fun (r : Tile × List Pkt) p =>
    let n := r.1.issued.get 0 (streamKey p)
    ({ r.1 with issued := r.1.issued.set (streamKey p) ((n + 1) % 65536) }, r.2 ++ [{ p with pseq := n }])) (t, [])

/-- Cuts a list into runs of at most `n`. -/
def runsOf {α : Type} (n : Nat) : Nat → List α → List (List α)
  | 0, _ => []
  | _, [] => []
  | f + 1, l => l.take n :: runsOf n f (l.drop n)

/-- A base tile accepts packets of one stream and size; those for itself it serves itself (R255, R566). -/
def State.postPkts (s : State) (b : Nat) (ps : List Pkt) : State :=
  match ps with
  | [] => s
  | p :: _ =>
    let (t, qs) := numberPkts (s.tile b) ps
    if p.dst = b then s.setTile b { t with here := t.here ++ qs }
    else s.setTile b { t with work := t.work ++ runsOf 1023 ps.length qs }

/-- Tags free at a base tile (R163). -/
def State.tagsFree (s : State) (b : Nat) : Nat := 8192 - (s.tile b).tags.length

/-- Records that the four queues of base tile b can still take, its withdrawn ports apart (R255). -/
def State.ferryRoom (s : State) (b : Nat) : Nat :=
  (List.range 4).foldl (fun n p => if s.fldBit (FY_PORTS_WITHDRAWN p) b then n else n + (64 - ((s.tile b).posts.get [] p).length)) 0

/-- Base tile b cannot take `n` more requests for tile d: too few tags (R163), or work waits that fills its queues (R255). -/
def State.ferryBusy (s : State) (b d n : Nat) : Bool :=
  decide (s.tagsFree b < n) || (d != b && decide (s.ferryRoom b ≤ (s.tile b).work.length))

/-- A request with its own tag and waiter; the bounds of R163 were checked. -/
def State.tagPkt (s : State) (b : Nat) (p : Pkt) (w : Waiter) : Pkt × State :=
  let t := s.tile b
  let tag := ((List.range (t.tags.length + 1)).find? (fun k => !t.tags.any (fun e => e.1 == k))).getD 0
  ({ p with tag := tag }, s.setTile b { t with tags := t.tags.set tag w })

def State.tagAll (s : State) (b : Nat) : List (Pkt × Waiter) → List Pkt × State
  | [] => ([], s)
  | (p, w) :: r =>
    let (q, s) := s.tagPkt b p w
    let (qs, s) := s.tagAll b r
    (q :: qs, s)

/-- Requests of one stream and size from base tile b. -/
def State.request (s : State) (b : Nat) (l : List (Pkt × Waiter)) : State :=
  let (ps, s) := s.tagAll b l
  s.postPkts b ps

/-! ### Ports, lanes, flits (R242 to R245) -/

def State.fyMask (s : State) (p b : Nat) : Nat := s.fyLanes.get 0xFFFF (p * 16 + b)
/-- Lanes present at both ports, ascending. -/
def State.fyWidth (s : State) (p a b : Nat) : List Nat := bitList 16 (s.fyMask p a &&& s.fyMask p b)
/-- Flits of a window (R242). -/
def flitsOf (w : Nat) (guarded : Bool) : Nat := if guarded then 22 * w else 27 * w
/-- Wavelength of logical lane j on physical plane `ph` (R210). -/
def State.lambdaOf (s : State) (ph j : Nat) : Nat := s.lambdas.get j (ph * 16 + j)

/-- Flit f of a window on plane p from `src` to `dst`, on the wavelength of the lane it travels on (R243, R244). -/
def flitBytes (cells : List Nat) (f win p src dst lam : Nat) : List Byte :=
  let body := ((List.range 7).map (fun k => leBytes 16 (cells.getD (7 * f + k) 0))).flatten
    ++ leBytes 2 (f % 512 + win % 128 * 512) ++ [0, 0]
  body ++ leBytes 4 (crc32c (0x5A000000 + (64 + p) * 2 ^ 16 + (src * 16 + dst) * 2 ^ 8 + lam) body)

/-- The receiver's check of 120 decoded bytes: the CRC with the identity it expects, and FSEQ (R244, R262). -/
def flitGood (d : List Byte) (f win p src dst lam : Nat) : Bool :=
  fieldAt d 116 4 == crc32c (0x5A000000 + (64 + p) * 2 ^ 16 + (src * 16 + dst) * 2 ^ 8 + lam) (d.take 116) &&
  fieldAt d 112 2 == f % 512 + win % 128 * 512

/-! ### A window begins (R251) -/

/-- Scalar cores that wait in BARRIER on a word are released: the BARRIER retires, and a deferred trap that waited for
it is taken (R117, R172, R270). -/
def State.releaseWord (s : State) (i : Nat) (addr : Nat) : State :=
  (List.range 8).foldl (fun s n =>
    let c : CoreId := ⟨Fin.ofNat 16 i, Fin.ofNat 8 n⟩
    let x := s.core c
    match x.wait with
    | .barrier a _ _ true =>
      if a = addr then
        let x1 := { x with wait := .none, pc := x.pc + 8, pend := none }
        let s1 := s.setCore c x1
        match x.pend with
        | some t => s1.trap c t.cause x1.pc t.tval true
        | none => s1
      else s
    | _ => s) s

/-- Base tiles act on the releases of the grant frames (R270). -/
def State.actReleases (s : State) : State :=
  (List.range 16).foldl (fun s b =>
    let t := s.tile b
    t.released.foldl (fun s k => s.releaseWord b (flagBase (k / 2 ^ 17) + k % 2 ^ 17 * 8))
      (if t.released.isEmpty then s else s.setTile b { t with released := [] })) s

/-- The receivers close the window that ends: a STATUS for each, and a flit that never came has failed (R262). -/
def State.closeWires (s : State) : State :=
  (List.range 64).foldl (fun s k =>
    let p := k / 16
    let b := k % 16
    let t := s.tile b
    match s.wires.find? (fun e => e.1 == k) with
    | none => if t.failedFrom.any (fun e => e.1 == p) then s.setTile b { t with failedFrom := t.failedFrom.erase p } else s
    | some (_, w) =>
      let n := flitsOf (s.fyWidth p w.src b).length w.guarded
      let bad := match w.bad with
        | some f => some f
        | none => if w.next < n then some w.next else none
      if w.follow then
        s.setTile b { t with stat := t.stat.set p (.status w.src false 0 true), failedFrom := t.failedFrom.erase p }
      else
        match bad with
        | some f => s.setTile b { t with stat := t.stat.set p (.status w.src true f false), failedFrom := t.failedFrom.set p w.src }
        | none => s.setTile b { t with stat := t.stat.set p (.status w.src false 0 false), failedFrom := t.failedFrom.erase p }) s

/-- A source takes the packets of one grant from its record; a finished record stays for two windows (R263). -/
def takeGrant (ps : List Post) (g : Grant) : List Post × List Pkt :=
  match ps.find? (fun q => q.rid == g.rid) with
  | none => (ps, [])
  | some q =>
    let taken := (q.pkts.drop q.sent).take g.lines
    let sent := q.sent + taken.length
    (ps.map (fun x => if x.rid == g.rid then { x with sent := sent, final := if sent = q.pkts.length then some 2 else none } else x), taken)

/-- What receiver d makes of a connection from `src` on plane p in the window that begins: it hears nothing without its grant frame, rejects
all after a failure in the window before, and hears nothing of a source that lost its own grant frame (R254, R262). -/
def State.listen (s : State) (p d src : Nat) (guarded : Bool) (cells : Option (List Nat)) : State :=
  let r := s.tile d
  let heard := match r.rx.find? (fun e => e.1 == p) with
    | some (_, snd, _) => snd == src
    | none => false
  { s with wires := s.wires.set (p * 16 + d) { src := src, guarded := guarded, cells := cells.getD [],
                                               bad := if heard && cells.isSome then none else some 0, follow := r.failedFrom.get 16 p == src } }

/-- Source b sends on plane p what it was granted (R251). -/
def State.stage (s : State) (p b : Nat) : State :=
  let t := s.tile b
  let gs := t.grants.get [] p
  match gs with
  | [] => s
  | g :: _ =>
    let (posts, pkts) := gs.foldl (fun (r : List Post × List Pkt) g => let (ps, k) := takeGrant r.1 g; (ps, r.2 ++ k)) (t.posts.get [] p, [])
    (s.setTile b { t with posts := t.posts.set p posts, grants := t.grants.erase p }).listen p g.dest b g.guarded (some (pkts.map Pkt.cells).flatten)

/-- A connection whose source sends nothing. -/
def State.silence (s : State) (p d : Nat) : State :=
  match (s.tile d).rx.find? (fun e => e.1 == p) with
  | some (_, src, g) => if s.wires.any (fun e => e.1 == p * 16 + d) then s else s.listen p d src g none
  | none => s

/-- Drops finished records after their two windows. -/
def agePosts (ps : List Post) : List Post :=
  ps.filterMap (fun q => match q.final with
    | none => some q
    | some 0 => none
    | some (n + 1) => some { q with final := some n })

/-- Puts waiting work into records: each on the plane whose arbiter holds the fewest of the tile's records, ties to the
lowest; 64 records a queue (R255). `ok`: neither port of the plane is withdrawn (R264). -/
def placeWork (ok : Nat → Nat → Bool) : Nat → Tile → Tile
  | 0, t => t
  | n + 1, t =>
    match t.work with
    | [] => t
    | w :: r =>
      let len (p : Nat) : Nat := (t.posts.get [] p).length
      let planes := (List.range 4).filter (fun p => ok p (w.headD { typ := 0, vc := 0, src := 0, dst := 0, tile := true }).dst)
      let p := planes.foldl (fun best p => if len p < len best then p else best) (planes.headD 0)
      if planes.isEmpty || decide (64 ≤ len p) then t
      else
        let ps := t.posts.get [] p
        let rid := ((List.range 64).find? (fun k => !ps.any (fun q => q.rid == k))).getD 0
        placeWork ok n { t with work := r, posts := t.posts.set p (ps ++ [{ rid := rid, pkts := w }]) }

/-- A SKIP for each stream of `ks` that has had none since its island fell: tile origin, the last PSEQ the island issued (R265). -/
def State.sendSkips (s : State) (b : Nat) (ks : List Nat) : State :=
  ks.foldl (fun s k =>
    let t := s.tile b
    match t.fallen.find? (fun e => e.1 == k) with
    | none => s
    | some (_, last) =>
      (s.setTile b { t with fallen := t.fallen.erase k }).postPkts b
        [{ typ := ptSkip, vc := k % 4, src := b, dst := k / 8 % 16, tile := true, addr := last }]) s

/-- Packets that will never be sent: their tags are free, their streams get a SKIP. -/
def State.loseWork (s : State) (b : Nat) (lost : List Pkt) : State :=
  let t := s.tile b
  (s.setTile b { t with tags := lost.foldl (fun l k => if k.typ = ptRdReq ∨ k.typ = ptWrReq ∨ k.typ = ptAtomReq then l.erase k.tag else l) t.tags }).sendSkips
    b (lost.map streamKey)

/-- The masked records of a fallen island: what was staged has gone, the rest is dropped (R265). -/
def State.dropFallen (s : State) (b : Nat) : State :=
  let t := s.tile b
  let dead := t.posts.flatMap (fun e => e.2.filter (·.dead))
  if dead.isEmpty then s
  else
    let keep (q : Post) : Option Post :=
      if !q.dead then some q else if q.sent = 0 then none else some { q with pkts := q.pkts.take q.sent, final := some (q.final.getD 2) }
    (s.setTile b { t with posts := t.posts.map (fun e => (e.1, e.2.filterMap keep)) }).loseWork b (dead.flatMap (fun q => q.pkts.drop q.sent))

/-! ### Request and grant frames (R252 to R254) -/

def flagBit (b : Bool) (n : Nat) : Nat := if b then 2 ^ n else 0

/-- The words of a request-frame entry (R252). -/
def ReqEntry.words (e : ReqEntry) : List Nat :=
  match e with
  | .request d vc tile size count rid => [1 + d * 2 ^ 4 + vc * 2 ^ 8 + flagBit tile 10 + size * 2 ^ 11 + count * 2 ^ 15 + rid * 2 ^ 25]
  | .credit vc n => [2 + vc * 2 ^ 4 + n * 2 ^ 6]
  | .status snd failed f follow => [3 + snd * 2 ^ 4 + flagBit failed 8 + f * 2 ^ 9 + flagBit follow 18]
  | .release w => [4 + w * 2 ^ 4]
  | .repair n => [5 + n.lane * 2 ^ 4 + n.leg * 2 ^ 8 + n.sender * 2 ^ 22 + n.plane * 2 ^ 26, 6 + n.seg * 2 ^ 4 + n.xfer * 2 ^ 20]

/-- The notice that a REPAIR pair carries; `snd`: the island that sends the leg. -/
def noticeOf (a b snd : Nat) : Notice :=
  { sender := snd, leg := bits a 8 14, plane := bits a 26 6, lane := bits a 4 4, seg := bits b 4 16, xfer := bits b 20 12 }

/-- The entries that words spell, in frame order; a REPAIR_A waits for its REPAIR_B. -/
def reqEntries (ws : List Nat) : List ReqEntry :=
  (ws.foldl (fun (r : Option Nat × List ReqEntry) w =>
    match w % 16, r.1 with
    | 1, _ => (none, r.2 ++ [.request (bits w 4 4) (bits w 8 2) (bitOf w 10) (bits w 11 4) (bits w 15 10) (bits w 25 6)])
    | 2, _ => (none, r.2 ++ [.credit (bits w 4 2) (bits w 6 16)])
    | 3, _ => (none, r.2 ++ [.status (bits w 4 4) (bitOf w 8) (bits w 9 9) (bitOf w 18)])
    | 4, _ => (none, r.2 ++ [.release (bits w 4 17)])
    | 5, _ => (some w, r.2)
    | 6, some a => (none, r.2 ++ [.repair (noticeOf a w (bits a 22 4))])
    | _, _ => (none, r.2)) (none, [])).2

/-- The words of a grant-frame entry (R253). -/
def GrantEntry.words (e : GrantEntry) : List Nat :=
  match e with
  | .grant d g rid n fin => [1 + d * 2 ^ 4 + flagBit g 8 + rid * 2 ^ 9 + n * 2 ^ 15 + flagBit fin 25]
  | .parked rid => [2 + rid * 2 ^ 4]
  | .preempted rid done => [3 + rid * 2 ^ 4 + done * 2 ^ 10]
  | .rollback rid done => [4 + rid * 2 ^ 4 + done * 2 ^ 10]
  | .rx snd g => [5 + snd * 2 ^ 4 + flagBit g 8]
  | .release i w again => [6 + i * 2 ^ 4 + w * 2 ^ 8 + flagBit again 25]
  | .repair n recv => [7 + n.lane * 2 ^ 4 + n.leg * 2 ^ 8 + recv * 2 ^ 22 + n.plane * 2 ^ 26, 8 + n.seg * 2 ^ 4 + n.xfer * 2 ^ 20]
  | .returned rid done => [9 + rid * 2 ^ 4 + done * 2 ^ 10]

/-- The entries that words spell in the grant frame of base tile b. -/
def grantEntries (b : Nat) (ws : List Nat) : List GrantEntry :=
  (ws.foldl (fun (r : Option Nat × List GrantEntry) w =>
    match w % 16, r.1 with
    | 1, _ => (none, r.2 ++ [.grant (bits w 4 4) (bitOf w 8) (bits w 9 6) (bits w 15 10) (bitOf w 25)])
    | 2, _ => (none, r.2 ++ [.parked (bits w 4 6)])
    | 3, _ => (none, r.2 ++ [.preempted (bits w 4 6) (bits w 10 10)])
    | 4, _ => (none, r.2 ++ [.rollback (bits w 4 6) (bits w 10 10)])
    | 5, _ => (none, r.2 ++ [.rx (bits w 4 4) (bitOf w 8)])
    | 6, _ => (none, r.2 ++ [.release (bits w 4 4) (bits w 8 17) (bitOf w 25)])
    | 7, _ => (some w, r.2)
    | 8, some a => (none, r.2 ++ [.repair (noticeOf a w b) (bits a 22 4)])
    | 9, _ => (none, r.2 ++ [.returned (bits w 4 6) (bits w 10 10)])
    | _, _ => (none, r.2)) (none, [])).2

/-- A frame without its CRC: 16 words of 32 bits, then bits [15:0] of the trailer (R252, R253). -/
def frameBody (ws : List Nat) (low : Nat) : Nat := (ws.take 16).foldr (fun w v => w % 2 ^ 32 + 2 ^ 32 * v) 0 + 2 ^ 512 * low
def frameWords (v : Nat) : List Nat := (List.range 16).map (fun k => bits v (32 * k) 32)

/-- A copy of a frame as it arrives, `noise` the bits changed on its wires: none when its CRC fails. -/
def frameCopy (body : Nat) (noise : BitVec 544) : Option Nat :=
  let x := body ^^^ (noise.toNat % 2 ^ 528)
  if noise == 0 || crc16 528 x == (crc16 528 body ^^^ noise.toNat / 2 ^ 528) then some x else none

/-- The frame a receiver uses of two copies, and how many of them fail their CRC (R254). -/
def frameTake (body : Nat) (n0 n1 : BitVec 544) : Option Nat × Nat :=
  match frameCopy body n0, frameCopy body n1 with
  | some x, some _ => (some x, 0)
  | some x, none => (some x, 1)
  | none, some y => (some y, 1)
  | none, none => (none, 2)

/-- The entries that fit in `n` words, in order, and the rest. -/
def fits {α : Type} (size : α → Nat) : Nat → List α → List α × List α
  | _, [] => ([], [])
  | n, e :: r => if size e ≤ n then let (a, b) := fits size (n - size e) r; (e :: a, b) else ([], e :: r)

/-- A request frame of 16 entries (R252): status, credits, releases and repair notices (on FY0), then records not yet
acknowledged. A repair notice takes two entries; what does not fit is posted in a later frame. -/
def requestFrame (t : Tile) (p : Nat) : List ReqEntry :=
  let st := ((t.stat.filter (fun e => e.1 == p)).map (·.2))
  let cr := (List.range 4).filterMap (fun v => (t.freed.find? (fun e => e.1 == p * 4 + v)).map (fun e => .credit v e.2))
  let rel := if p = 0 then t.rels.map .release else []
  let rep := if p = 0 then t.notices.map .repair else []
  let req := ((t.posts.get [] p).filter (fun q => !q.acked)).map (fun q =>
    let h := q.pkts.headD { typ := 0, vc := 0, src := 0, dst := 0, tile := false }
    ReqEntry.request h.dst h.vc h.tile (cellsOf h.typ) q.pkts.length q.rid)
  (fits (fun e => e.words.length) 16 (st ++ cr ++ rel ++ rep ++ req)).1

/-- Lane changes take force on the planes whose quiet window begins (R242): the wavelength or the absence, the width, the ring's lock. -/
def State.lanesDue (s : State) : State :=
  (List.range 4).foldl (fun s p =>
    let a := s.arb p
    if a.due.isEmpty then s
    else a.due.foldl (fun (s : State) (c : Nat × Nat × Nat) =>
      let s := { s with fyLanes := if c.2.2 < 18 then s.fyLanes else s.fyLanes.set (p * 16 + c.1) (putBits (s.fyMask p c.1) c.2.1 1 0),
                        lambdas := if c.2.2 < 18 then s.lambdas.set ((64 + p) * 16 + c.2.1) c.2.2 else s.lambdas }
      let s := s.setFld (FY_SRC_WIDTH p c.1) (popc 16 (s.fyMask p c.1))
      if c.2.2 < 18 then (List.range 16).foldl (fun s b => s.ringLocked b (64 + p) c.2.1) s else s.ringLocked c.1 (64 + p) c.2.1)
      (s.setArb p { a with due := [] })) s

/-- FERRY_WINDOW (R240, R251): the next window begins. Windows 2m and 2m + 1 lie in the slot that module slot tick m begins: one commanded
ahead of its tick is turned away, and one that was not commanded in its slot is passed over. Releases act, the receivers close the window
that ends, lane changes take force, sources stage the packets of their grants, and request frames are assembled. -/
def execFerryWindow (s : State) : Out :=
  let w := max (s.fwin + 1) (2 * s.now)
  if 2 * s.now + 1 < w then .next s
  else
    let s := ((s.actReleases).closeWires).lanesDue
    let s := { s with fwin := w, wires := [] }
    let s := (List.range 64).foldl (fun s k => s.stage (k / 16) (k % 16)) s
    let s := (List.range 64).foldl (fun s k => s.silence (k / 16) (k % 16)) s
    .next ((List.range 16).foldl (fun s b =>
      let s := s.dropFallen b
      let t := s.tile b
      let ok (p d : Nat) : Bool := !s.fldBit (FY_PORTS_WITHDRAWN p) b && !s.fldBit (FY_PORTS_WITHDRAWN p) d
      let t := placeWork ok t.work.length { t with posts := t.posts.map (fun e => (e.1, agePosts e.2)), rx := [] }
      let s := (List.range 4).foldl (fun s p =>
        let a := s.arb p
        let fr := requestFrame t p
        if fr.isEmpty && !t.lost.get false p then s
        else s.setArb p { a with inbox := a.inbox.set b fr, inLost := if t.lost.get false p then a.inLost.set b true else a.inLost.erase b }) s
      let t := { t with stat := [], lost := [] }
      if t = s.tile b then s else s.setTile b t) s)

/-! ### Arbitration (R254 to R262) -/

/-- Receive buffer of a channel, in cells (R260). -/
def bufCells (vc : Nat) : Nat := if vc ≤ 1 then 4096 else 512
/-- Credit of a destination and channel: buffer − granted + freed + rolled back, modulo 2^16 (R260). -/
def Arbiter.credit (a : Arbiter) (d vc : Nat) : Nat :=
  let k := d * 4 + vc
  (bufCells vc + a.freed.get 0 k + a.rolled.get 0 k + 65536 - a.granted.get 0 k) % 65536
def Arbiter.addTo (t : Tbl Nat) (k n : Nat) : Tbl Nat := t.set k ((t.get 0 k + n) % 65536)

/-- Precedence class of a channel: VC1 3, VC2 2, VC3 1, VC0 0 (R256). -/
def vcClass (vc : Nat) : Nat := match vc with | 1 => 3 | 2 => 2 | 3 => 1 | _ => 0

/-- Rolls a record back to `done`; the source will be told (R262). -/
def Arbiter.rollRec (a : Arbiter) (src rid done : Nat) : Arbiter :=
  { a with recs := a.recs.map (fun r => if r.src == src && r.rid == rid then { r with done := min r.done done, age := 0 } else r),
           backs := a.backs.set (src * 64 + rid) (min done (a.backs.get done (src * 64 + rid))) }

/-- Packets of an entry before the first with a cell in flit f or later. -/
def Sent.keptBefore (e : Sent) (f : Nat) : Nat :=
  ((List.range e.count).find? (fun i => decide (f ≤ (e.cell + (i + 1) * e.size - 1) / 7))).getD e.count

/-- Rolls back, from the window before, the packets at or after flit f of the connections that `sel` names, and every
packet of the present window on them. Answers how many records were rolled back per source. -/
def Arbiter.rollback (a : Arbiter) (sel : Sent → Bool) (f : Option Nat) : Arbiter :=
  let a := a.prev.foldl (fun a e =>
    match f with
    | some f =>
      let k := e.keptBefore f
      if sel e && decide (k < e.count) then
        { (a.rollRec e.src e.rid (e.first + k)) with rolled := Arbiter.addTo a.rolled (e.dst * 4 + e.vc) ((e.count - k) * e.size) }
      else a
    | none => a) a
  let a := a.cur.foldl (fun a e =>
    if sel e then { (a.rollRec e.src e.rid e.first) with rolled := Arbiter.addTo a.rolled (e.dst * 4 + e.vc) (e.count * e.size) } else a) a
  { a with prev := match f with
             | some f => a.prev.map (fun e => if sel e then { e with count := e.keptBefore f } else e)
             | none => a.prev,
           cur := a.cur.filter (fun e => !sel e) }

/-- Takes one request frame of source b into the arbiter (R252, R255). -/
def takeRequest (a : Arbiter) (b : Nat) (e : ReqEntry) : Arbiter :=
  match e with
  | .request dest vc tile size count rid =>
    if a.recs.any (fun r => r.src == b && r.rid == rid && decide (r.done < r.count)) ||
        decide (64 ≤ (a.recs.filter (fun r => r.src == b && decide (r.done < r.count))).length) then a
    else { a with recs := (a.recs.filter (fun r => !(r.src == b && r.rid == rid))) ++
             [{ src := b, rid := rid, dest := dest, vc := vc, tile := tile, size := size, count := count }] }
  | .credit vc n => { a with freed := a.freed.set (b * 4 + vc) n }
  | .status sender failed f _ => if failed then a.rollback (fun x => x.src == sender && x.dst == b) (some f) else a
  | _ => a

/-- Releases and repair notices are relayed in the grant frames of the same window (R226, R270); a RELEASE just broadcast and posted once
more is not broadcast anew. -/
def relay (a : Arbiter) (b : Nat) (e : ReqEntry) : Arbiter :=
  match e with
  | .release w => if a.rels.contains (b, w) || a.again.contains (b, w) then a else { a with rels := a.rels ++ [(b, w)] }
  | .repair n => { a with owed := a.owed.set n.sender (a.owed.get [] n.sender ++ [.repair n b]) }
  | _ => a

/-- The request frames act, those of base tile 0 first; `got`: entries and LOST of a tile's frame, none when both its copies failed (R252,
R254). -/
def Arbiter.hear (a : Arbiter) (got : Nat → Option (List ReqEntry × Bool)) : Arbiter :=
  (List.range 16).foldl (fun a b =>
    match got b with
    | none => a.rollback (fun x => x.dst == b) (some 0)
    | some (es, lost) =>
      let a := if lost then a.rollback (fun x => x.src == b) none else a
      let a := { a with owed := if lost then a.owed.set b (a.owed.get [] b ++ a.unsure.get [] b) else a.owed, unsure := a.unsure.erase b }
      es.foldl (fun a e => relay (takeRequest a b e) b e) a) a

structure Matching where
  freeS : List Nat
  freeD : List Nat
  m : Tbl Nat := []
  hold : Tbl Nat

def Matching.pair (x : Matching) (s d h : Nat) : Matching :=
  { freeS := x.freeS.filter (· != s), freeD := x.freeD.filter (· != d), m := x.m.set s d, hold := x.hold.set s h }

/-- Sorts sources by a key, ascending, stable. -/
def insertBy (key : Nat → Nat) (x : Nat) : List Nat → List Nat
  | [] => [x]
  | y :: r => if key x < key y then x :: y :: r else y :: insertBy key x r
def sortBy (key : Nat → Nat) (l : List Nat) : List Nat := l.foldl (fun a x => insertBy key x a) []

/-- The matching of R257 for window `w1`. `elig`: the eligible records, oldest first. -/
def matching (a : Arbiter) (elig : List ARec) (ports : List Nat) (holdMax w1 : Nat) (fair : Nat → Nat) : Matching :=
  [3, 2, 1, 0].foldl (fun x c =>
    let cont := (List.range 16).filter (fun s =>
      match a.perm.find? (fun e => e.1 == s) with
      | some (_, d) =>
        let rs := elig.filter (fun r => r.src == s && r.dest == d)
        !rs.isEmpty && (rs.map (fun r => vcClass r.vc)).foldl max 0 == c
      | none => false)
    let x := cont.foldl (fun x s =>
      let d := a.perm.get 0 s
      if a.hold.get 0 s < holdMax ∧ x.freeS.contains s ∧ x.freeD.contains d then x.pair s d (a.hold.get 0 s + 1) else x) x
    (sortBy (fun s => (255 - fair s) * 16 + (s + 16 - w1 % 16) % 16) x.freeS).foldl (fun x s =>
      match elig.find? (fun r => r.src == s && vcClass r.vc == c && x.freeD.contains r.dest) with
      | some r => x.pair s r.dest 1
      | none => x) x)
    { freeS := ports, freeD := ports, hold := [] }

/-- One match filled (R258): cells left, GRANT entries left, and whether filling has stopped. -/
structure Fill where
  left : Nat
  entries : Nat := 8
  stop : Bool := false
  cell : Nat := 0
  out : List Sent := []

def fillMatch (a : Arbiter) (elig : List ARec) (s d cells entries : Nat) : Fill :=
  let rs := [3, 2, 1, 0].flatMap (fun c => elig.filter (fun r => r.src == s && r.dest == d && vcClass r.vc == c))
  rs.foldl (fun f r =>
    if f.stop || f.entries == 0 then f
    else
      let used := (f.out.filter (fun e => e.vc == r.vc)).foldl (fun n e => n + e.count * e.size) 0
      let n := min (r.count - r.done) (min (f.left / r.size) ((a.credit d r.vc - used) / r.size))
      if n = 0 then { f with stop := true }
      else { f with left := f.left - n * r.size, entries := f.entries - 1, cell := f.cell + n * r.size,
                    out := f.out ++ [⟨s, d, r.rid, r.done, n, r.size, r.vc, f.cell⟩] }) { left := cells, entries := entries }

def ARec.live (r : ARec) : Bool := decide (r.done < r.count)

/-- Records that name a withdrawn port and have nothing under way that could roll back: they return to their sources (R264). -/
def Arbiter.homeless (a : Arbiter) (gone : Nat → Bool) : List ARec :=
  a.recs.filter (fun r => r.live && (gone r.src || gone r.dest) && !a.cur.any (fun e => e.src == r.src && e.rid == r.rid))

/-- What base tile b is told before the grants of an arbitration: releases, what is owed, rollbacks, returns. -/
def Arbiter.front (a : Arbiter) (news : List (Nat × Nat)) (home : List ARec) (b : Nat) : List GrantEntry :=
  a.again.map (fun r => .release r.1 r.2 true) ++ news.map (fun r => .release r.1 r.2 false) ++ a.owed.get [] b ++
    (a.backs.filter (fun e => e.1 / 64 == b)).map (fun e => .rollback (e.1 % 64) e.2) ++
    (home.filter (fun r => r.src == b)).map (fun r => .returned r.rid r.done)

def frameSize (l : List GrantEntry) : Nat := l.foldl (fun n e => n + e.words.length) 0

/-- What an arbitration decides for the next window (R257, R258): connections, holds, what each carries. -/
structure Decision where
  m : Tbl Nat
  hold : Tbl Nat
  sents : List Sent
  /-- Sources with eligible records. -/
  asked : List Nat

/-- Packets granted to a record. -/
def Decision.granted (x : Decision) (r : ARec) : Nat := ((x.sents.find? (fun e => e.src == r.src && e.rid == r.rid)).map (·.count)).getD 0

/-- A port is guarded in the next window: its connection differs from the present window's, or a quiet window ends (R242). -/
def Arbiter.guarded (a : Arbiter) (b d : Nat) : Bool := a.quiet || a.perm.get 16 b != d

/-- Matches and fills for window `w1`: nothing in a quiet window. `room`: words left in each base tile's grant frame. -/
def State.arbitrate (s : State) (p w1 : Nat) (a : Arbiter) (room : Nat → Nat) : Decision :=
  if !a.laneChanges.isEmpty then { m := [], hold := [], sents := [], asked := [] }
  else
    let ports := (List.range 16).filter (fun b => !s.fldBit (FY_PORTS_WITHDRAWN p) b && decide (3 ≤ room b))
    let elig := a.recs.filter (fun r => r.live && ports.contains r.src && ports.contains r.dest && decide (r.size ≤ a.credit r.dest r.vc))
    let x := matching a elig ports (max 1 (s.fld (FY_CFG_HOLD p))) w1 (fun b => s.fld (FY_SRC_FAIR p b))
    { m := x.m, hold := x.hold, asked := (elig.map (·.src)),
      sents := x.m.flatMap (fun e => (fillMatch a elig e.1 e.2 (7 * flitsOf (s.fyWidth p e.1 e.2).length (a.guarded e.1 e.2)) (min 8 (room e.1 - 2))).out) }

/-- What base tile b is told of a decision: RX entries as receiver and as source, GRANT, PARKED and PREEMPTED entries (R258, R259). -/
def Arbiter.tail (a : Arbiter) (x : Decision) (b : Nat) : List GrantEntry :=
  let mine := a.recs.filter (fun r => r.src == b && r.live)
  (x.m.filter (fun e => e.2 == b)).map (fun e => .rx e.1 (a.guarded e.1 b)) ++
  (x.m.filter (fun e => e.1 == b)).map (fun e => .rx b (a.guarded b e.2)) ++
  (x.sents.filter (fun e => e.src == b)).map (fun e =>
    .grant e.dst (a.guarded b e.dst) e.rid e.count (mine.any (fun r => r.rid == e.rid && e.first + e.count == r.count))) ++
  (mine.filter (fun r => r.fresh && x.granted r == 0)).map (fun r => .parked r.rid) ++
  (mine.filter (fun r => !r.fresh && decide (0 < r.last) && x.granted r == 0)).map (fun r => .preempted r.rid r.done)

/-- The registers that show an arbiter's sources (R271). -/
def State.showSources (s : State) (p : Nat) (a : Arbiter) (x : Decision) : State :=
  (List.range 16).foldl (fun (s : State) b =>
    let n := (a.recs.filter (fun r => r.src == b && r.live)).length
    let s := if s.fld (FY_SRC_QUEUED p b) = n then s else s.setFld (FY_SRC_QUEUED p b) n
    let s := if n = 64 then s.bump (FY_SRC_FULL p b) 1 else s
    if x.m.any (fun e => e.1 == b) then (if s.fld (FY_SRC_FAIR p b) = 0 then s else s.setFld (FY_SRC_FAIR p b) 0)
    else if x.asked.contains b then s.bump (FY_SRC_FAIR p b) 1 else s) s

/-- Copies of request frames that failed are counted and, with both, reported (R254). -/
def State.countLost (s : State) (p : Nat) (failed : Nat → Nat) : State :=
  let s := s.bump (FY_WIRE_REQ_ONE p) ((List.range 16).filter (fun b => failed b == 1)).length
  let lost := (List.range 16).filter (fun b => failed b == 2)
  lost.foldl (fun s b => s.raise 0x7003 16 (srcIx 4 p) (b * 16)) (s.bump (FY_WIRE_REQ_LOST p) lost.length)

/-- A base tile's request frame as the arbiter takes it; and the copies of it that failed. -/
def Arbiter.request (a : Arbiter) (noise : List (Fin 16 × BitVec 544 × BitVec 544)) (b : Nat) : Option (List ReqEntry × Bool) × Nat :=
  let n := match noise.find? (fun e => e.1.val == b) with
    | some e => e.2
    | none => (0, 0)
  let r := frameTake (frameBody ((a.inbox.get [] b).flatMap ReqEntry.words) (if a.inLost.get false b then 1 else 0)) n.1 n.2
  (r.1.map (fun v => (reqEntries (frameWords v), bitOf v 512)), r.2)

/-- Repair notices that an arbiter has relayed are acknowledged to the tile that posted them (R254). -/
def State.ackNotices (s : State) (got : Nat → Option (List ReqEntry × Bool)) : State :=
  (List.range 16).foldl (fun s b =>
    let rep := (((got b).map (·.1)).getD []).filterMap (fun e => match e with
      | .repair n => some n
      | _ => none)
    if rep.isEmpty then s else let t := s.tile b; s.setTile b { t with notices := t.notices.filter (fun n => !rep.contains n) }) s

/-- FERRY_ARBITRATION of FYp for the next window (R257 to R262), once a window: request frames, rollbacks and masks, then the match, the fill
and the grant frames. `noise`: base tiles whose request frame is disturbed, and the bits changed on each of its two sets of wires (R254). -/
def execFerryArbitration (p : Fin 4) (noise : List (Fin 16 × BitVec 544 × BitVec 544)) (s : State) : Out :=
  let p := p.val
  let a0 := s.arb p
  let w1 := s.fwin + 1
  if a0.arbDone = w1 then .next s
  else
    let got (b : Nat) := (a0.request noise b).1
    let s := (s.countLost p (fun b => (a0.request noise b).2)).ackNotices got
    let a := a0.hear got
    let s := a.backs.foldl (fun s e => s.bump (FY_SRC_ROLLBACKS p (e.1 / 64)) 1) s
    -- masks (R265), and completed records past their two windows
    let recs := (a.recs.map (fun r => if r.live then r else { r with age := r.age + 1 })).filter (fun r => (r.tile || s.present r.src) && decide (r.age ≤ 2))
    let a := { a with recs := recs }
    let home := a.homeless (fun b => s.fldBit (FY_PORTS_WITHDRAWN p) b)
    let a := { a with recs := a.recs.filter (fun r => !home.any (fun h => h.src == r.src && h.rid == r.rid)) }
    let news := a.rels.take (16 - a.again.length)
    let front (b : Nat) : List GrantEntry := a.front news home b
    let x := s.arbitrate p w1 a (fun b => 16 - frameSize (front b))
    let all : List (Nat × List GrantEntry × List GrantEntry) :=
      (List.range 16).map (fun b => (b, fits (fun e => e.words.length) 16 (front b ++ a.tail x b)))
    let sent (f : GrantEntry → Bool) : Nat := all.foldl (fun n e => n + (e.2.1.filter f).length) 0
    let recs := a.recs.map (fun r => if r.live then { r with done := r.done + x.granted r, last := x.granted r, fresh := false } else r)
    let a2 := { a with
      recs := recs, prev := a.cur, cur := x.sents, perm := x.m, hold := x.hold, arbDone := w1, quiet := !a.laneChanges.isEmpty,
      due := a.due ++ a.laneChanges, laneChanges := [], inbox := [], inLost := [], backs := [],
      frames := (all.filter (fun e => !e.2.1.isEmpty)).map (fun e => (e.1, e.2.1)),
      owed := (all.filter (fun e => !e.2.2.isEmpty)).map (fun e => (e.1, e.2.2)),
      again := news, rels := a.rels.drop news.length,
      granted := x.sents.foldl (fun g e => Arbiter.addTo g (e.dst * 4 + e.vc) (e.count * e.size)) a.granted }
    let s := s.showSources p a2 x
    let s := ((s.bump (FY_STAT_GRANTS p) x.sents.length).bump (FY_STAT_PARKS p) (sent (fun e => match e with | .parked _ => true | _ => false))).bump
      (FY_STAT_PREEMPTS p) (sent (fun e => match e with | .preempted _ _ => true | _ => false))
    .next (s.setArb p a2)

/-- A port is withdrawn from its plane (R264): it is matched no more, and the next arbitrations return every record that names it once their
rollbacks have been applied. -/
def State.withdrawPort (s : State) (p b : Nat) : State := s.setFldBit (FY_PORTS_WITHDRAWN p) b true

/-! ### Grant frames (R253, R254) -/

def mapPost (t : Tile) (p rid : Nat) (f : Post → Post) : Tile :=
  { t with posts := t.posts.set p ((t.posts.get [] p).map (fun q => if q.rid == rid then f q else q)) }

/-- A base tile acts on one entry of the grant frame of window w. An RX entry that names the tile itself tells it of its own connection as
source. -/
def actGrant (b p w : Nat) (t : Tile) (e : GrantEntry) : Tile :=
  match e with
  | .grant d g rid n _ => { mapPost t p rid (fun q => { q with acked := true }) with
      grants := t.grants.set p (t.grants.get [] p ++ [⟨rid, d, n, g⟩]) }
  | .parked rid => mapPost t p rid (fun q => { q with acked := true })
  | .preempted rid done => mapPost t p rid (fun q => { q with acked := true, sent := done })
  | .rollback rid done => mapPost t p rid (fun q => { q with sent := done, final := none })
  | .rx snd g => if snd = b then t else { t with rx := t.rx.set p (snd, g) }
  | .release isl word again =>
    let k := isl * 2 ^ 17 + word
    let t := if isl = b then { t with rels := t.rels.filter (· != word) } else t
    if !again then { t with released := t.released ++ [k], seen := t.seen.filter (fun e => decide (w ≤ e.2 + 1)) ++ [(k, w)] }
    else if t.seen.any (fun e => e.1 == k && e.2 + 1 == w) then { t with seen := t.seen.filter (fun e => !(e.1 == k && e.2 + 1 == w)) }
    else { t with released := t.released ++ [k] }
  | .repair n recv => { t with repairs := t.repairs ++ [⟨recv, n⟩] }
  | .returned rid done =>
    match (t.posts.get [] p).find? (fun q => q.rid == rid) with
    | none => t
    | some q => { t with posts := t.posts.set p ((t.posts.get [] p).filter (fun x => x.rid != rid)), work := q.pkts.drop done :: t.work }

/-- ROLLBACK and RETURNED entries. -/
def GrantEntry.lasting (e : GrantEntry) : Bool :=
  match e with
  | .rollback _ _ | .returned _ _ => true
  | _ => false

/-- GRANT_FRAME_RX (R253, R254): base tile b takes the grant frame of FYp. `noise0`, `noise1`: bits changed on its two sets of wires. -/
def execGrantFrameRx (b : Fin 16) (p : Fin 4) (noise0 noise1 : BitVec 544) (s : State) : Out :=
  let a := s.arb p
  let fr := a.frames.get [] b
  if fr.isEmpty && noise0 == 0 && noise1 == 0 then .next s
  else
    let t := s.tile b
    match frameTake (frameBody (fr.flatMap GrantEntry.words) 0) noise0 noise1 with
    | (none, _) =>
      let s := s.setArb p { a with frames := a.frames.erase b, unsure := a.unsure.set b (a.unsure.get [] b ++ fr.filter GrantEntry.lasting) }
      .next (((s.setTile b { t with lost := t.lost.set p true }).bump (FY_WIRE_GNT_LOST p) 1).raise 0x7003 16 (srcIx 4 p) (1 + b.val * 16))
    | (some v, failed) =>
      let s := s.setArb p { a with frames := a.frames.erase b }
      let s := if failed = 1 then s.bump (FY_WIRE_GNT_ONE p) 1 else s
      .next (s.setTile b ((grantEntries b (frameWords v)).foldl (actGrant b p s.fwin) t))

/-! ### Flits (R262, R264) -/

/-- Cells of a packet leave the receive buffer of plane p (R252, R260). -/
def Tile.free (t : Tile) (p vc n : Nat) : Tile := { t with freed := t.freed.set (p * 4 + vc) ((t.freed.get 0 (p * 4 + vc) + n) % 65536) }

/-- PSEQ n lies in the 2^15 numbers below `exp` (R249). -/
def pseqPast (n exp : Nat) : Bool := decide (n ≠ exp) && decide ((exp + 65536 - n) % 65536 ≤ 32768)

/-- A packet whose cells are all accepted waits for its turn; one that a SKIP has discarded, and a copy of one delivered or held before, are
dropped (R249, R263, R266). -/
def State.acceptPkt (s : State) (p b : Nat) (k : Pkt) : State :=
  let t := s.tile b
  let key := streamKey k
  let drop (f : Fld) : State := (s.setTile b (t.free p k.vc (cellsOf k.typ))).bump f 1
  let gone := match t.skipped.find? (fun e => e.1 == key) with
    | some (_, lo, n) => decide ((k.pseq + 65536 - lo) % 65536 < n)
    | none => false
  if pseqPast k.pseq (t.expect.get 0 key) then drop (if gone then FY_RX_SKIPPED p else FY_RX_DUP_DISCARD p)
  else if t.hold.any (fun h => streamKey h.pkt == key && h.pkt.pseq == k.pseq) then drop (FY_RX_DUP_DISCARD p)
  else s.setTile b { t with hold := t.hold ++ [⟨p, k⟩] }

/-- What a receiver makes of the light that reached its ring. -/
structure Heard where
  /-- The data bytes, when the codeword decodes. -/
  data : Option (List Byte)
  /-- They are the flit it expects; a neighbouring wavelength's seed matches. -/
  good : Bool := false
  neighbour : Bool := false
  /-- Symbols corrected. -/
  fixed : Nat := 0

/-- The check of a flit (R244, R262, R264). `fsent`, `lamTx`: the flit and wavelength that arrived. -/
def flitHeard (w : Wire) (win p d f fsent lam lamTx : Nat) (noise : Noise) : Heard :=
  match rsLaneDecode (addNoise noise (rsLane (flitBytes w.cells fsent win p w.src d lamTx))) with
  | none => { data := none }
  | some (bs, fixed) =>
    let good := flitGood bs f win p w.src d lam
    { data := some bs, good := good, fixed := fixed,
      neighbour := !good && (flitGood bs fsent win p w.src d (lam + 1) || (decide (0 < lam) && flitGood bs fsent win p w.src d (lam - 1))) }

/-- Counts of a strait or ferry lane at receiver b (R500): symbols corrected in the present run of 2^20 codewords, codewords
failed in the present second. -/
def State.countLaneErr (s : State) (b plane lane codewords fixed bad : Nat) : State :=
  let key := laneKey b plane lane
  let c := s.laneCnt.get {} key
  let fresh := decide (2 ^ 20 ≤ c.cw)
  let late := decide (2000000 ≤ s.now - c.since)
  let d : LaneCnt := { cw := (if fresh then 0 else c.cw) + codewords, sym := (if fresh then 0 else c.sym) + fixed,
                       unc := (if late then 0 else c.unc) + bad, since := if late then s.now else c.since }
  { s with laneCnt := s.laneCnt.set key d }

/-- A ferry lane that answers to a neighbouring wavelength is mislocked (R264). -/
def State.fyMislock (s : State) (d p own lamTx : Nat) : State :=
  let key := laneKey d (64 + p) own
  if s.mislocked.get false key then s
  else { s with mislocked := s.mislocked.set key true }.raise 0x4005 d (srcIx 7 p) (own + lamTx * 256)

/-- What an accepted flit completes: its packets and the cells left over; none when it holds a packet of a reserved type (R247). -/
def Wire.take (w : Wire) (h : Heard) : Option (List Pkt × List Nat) :=
  if !h.good then none
  else
    match h.data with
    | none => none
    | some bs => let cs := w.rest ++ (List.range 7).map (fun k => fieldAt bs (16 * k) 16); cellPkts cs.length cs

/-- The receiver's step for the next flit: what it counts, and the packets it completes. -/
def State.takeFlit (s : State) (p d : Nat) (w : Wire) (own lamTx : Nat) (h : Heard) : State :=
  let f := w.next
  let s := if h.neighbour then s.fyMislock d p own lamTx else s
  let s := s.ringCheck d (64 + p) own h.good
  match w.take h with
  | none => { s.bump (FY_RX_FLITS_FAILED p) 1 with wires := s.wires.set (p * 16 + d) { w with next := f + 1, bad := some (w.bad.getD f) } }
  | some (ks, rest) =>
    if w.follow || w.bad.isSome then { s with wires := s.wires.set (p * 16 + d) { w with next := f + 1 } }
    else ks.foldl (fun s k => s.acceptPkt p d k) { s with wires := s.wires.set (p * 16 + d) { w with next := f + 1, rest := rest } }

/-- FERRY_FLIT_RX (R243, R244, R262, R264): the next flit of the window reaches receiver d of plane p. `lane`: the logical
lane whose light reached the ring; `noise`: bytes changed on the way. -/
def execFerryFlitRx (p : Fin 4) (d : Fin 16) (lane : Fin 16) (noise : List (Nat × Byte)) (s : State) : Out :=
  match s.wires.find? (fun e => e.1 == p.val * 16 + d.val) with
  | none => .next s
  | some (_, w) =>
    let lanes := s.fyWidth p w.src d
    let width := lanes.length
    if flitsOf width w.guarded ≤ w.next then .next s
    else
      let own := lanes.getD (w.next % width) 0
      let pos := ((List.range width).find? (fun j => lanes.getD j 16 == lane.val)).getD (w.next % width)
      let lamTx := s.lambdaOf (64 + p.val) lane
      let h := flitHeard w s.fwin p d w.next (w.next / width * width + pos) (s.lambdaOf (64 + p.val) own) lamTx noise
      .next ((s.countLaneErr d (64 + p.val) own 1 h.fixed (if h.data.isSome then 0 else 1)).takeFlit p d w own lamTx h)

/-! ### Masking at reset (R265) -/

/-- A waiter once island i has fallen: its cores wait for nothing. -/
def Waiter.fallen (w : Waiter) (i : Nat) : Waiter :=
  match w with
  | .xfer core no line => if core / 8 = i then .gone i else .xfer core no line
  | w => w

/-- ISLAND_PRESENT of island i drops: its island-origin records are masked, so what no grant has staged will be dropped; work that has no
record yet is dropped now; nobody waits for the answers of its cores' transfers. -/
def State.maskIsland (s : State) (i : Nat) : State :=
  let s := s.setPresent i false
  let t := s.tile i
  let ofTile (ps : List Pkt) : Bool := (ps.headD { typ := 0, vc := 0, src := 0, dst := 0, tile := true }).tile
  let lost := (t.work.filter (fun w => !ofTile w)).flatten
  let s := s.setTile i { t with
    fallen := (t.issued.filter (fun e => e.1 / 4 % 2 == 0)).map (fun e => (e.1, (e.2 + 65535) % 65536)),
    work := t.work.filter ofTile,
    posts := t.posts.map (fun e => (e.1, e.2.map (fun q => { q with dead := q.dead || !ofTile q.pkts }))),
    tags := t.tags.map (fun e => (e.1, e.2.fallen i)) }
  s.loseWork i lost

end Sys2Proof.Machine
end

