-- ==== Sys2Proof/Machine/Link.lean ====
section
/-!
DEFINITION. The chip-to-chip links (R326 to R349): packets as cells, flits, retry and credit, states and training, lanes.
-/
namespace Sys2Proof.Machine

open Sys2Proof

def State.lk (s : State) (k : Nat) : Lk := s.lks.get {} k
def State.setLk (s : State) (k : Nat) (x : Lk) : State := { s with lks := s.lks.set k x }

/-! ### Fabric packets as cells (R354) -/

def ftRdReq : Nat := 1
def ftWrReq : Nat := 2
def ftRdRsp : Nat := 3
def ftWrAck : Nat := 4
def ftAtomReq : Nat := 5
def ftAtomRsp : Nat := 6
def ftNack : Nat := 7
def ftAstatReq : Nat := 8
def ftAstatRsp : Nat := 9

/-- Cells of a fabric packet type. -/
def fCells (typ : Nat) : Nat :=
  match typ with
  | 2 => 11 | 3 => 10 | 5 => 3 | 6 => 3 | 7 => 3 | 9 => 3
  | _ => 2

def bn (b : Bool) (i : Nat) : Nat := if b then 2 ^ i else 0

def FPkt.cell0 (p : FPkt) : Nat :=
  p.typ + p.vc * 2 ^ 4 + bn p.haldula 6 + bn p.mark 7 + bn p.echo 8 + bn p.retry 9 + bn p.syn 10 + bn p.phase 11
    + p.epoch % 2 * 2 ^ 12 + bn p.poison 13 + p.srcNode * 2 ^ 16 + p.dstNode * 2 ^ 32 + p.srcUnit * 2 ^ 48 + p.hops * 2 ^ 53
    + p.tag * 2 ^ 57 + p.eseq * 2 ^ 73 + p.incarn * 2 ^ 97 + p.life * 2 ^ 113 + p.hop * 2 ^ 123
def FPkt.cell1 (p : FPkt) : Nat := p.offset + p.path * 2 ^ 48 + p.aop * 2 ^ 123

def FPkt.cells (p : FPkt) : List Nat :=
  let data8 := (List.range 8).map (fun k => bits p.data (128 * k) 128)
  p.cell0 :: p.cell1 :: (
    if p.typ = ftWrReq then p.mask :: data8
    else if p.typ = ftRdRsp then data8
    else if fCells p.typ = 3 then [p.data % 2 ^ 128]
    else [])

/-- A packet read back from its cells. -/
def FPkt.ofCells (c : List Nat) : FPkt :=
  let a := c.getD 0 0
  let b := c.getD 1 0
  let typ := bits a 0 4
  let body := c.drop 2
  let data8 (l : List Nat) : Nat := (List.range 8).foldl (fun n k => n + l.getD k 0 * 2 ^ (128 * k)) 0
  { typ := typ, vc := bits a 4 2, haldula := bitOf a 6, mark := bitOf a 7, echo := bitOf a 8, retry := bitOf a 9,
    syn := bitOf a 10, phase := bitOf a 11, epoch := bits a 12 1, poison := bitOf a 13, srcNode := bits a 16 16,
    dstNode := bits a 32 16, srcUnit := bits a 48 5, hops := bits a 53 4, tag := bits a 57 16, eseq := bits a 73 24,
    incarn := bits a 97 16, life := bits a 113 10, hop := bits a 123 4, offset := bits b 0 48, path := bits b 48 75,
    aop := bits b 123 3,
    mask := if typ = ftWrReq then body.getD 0 0 else 0,
    data := if typ = ftWrReq then data8 (body.drop 1) else if typ = ftRdRsp then data8 body else body.getD 0 0,
    odd := bits a 14 2 != 0 || bitOf a 127 || bits b 126 2 != 0 }

/-! ### Flits (R328 to R334) -/

/-- A link flit's fields. -/
structure LFlit where
  ftype : Nat
  lseq : Nat := 0
  ack : Nat := 0
  nak : Bool := false
  cells : List Nat := []
  freed : List Nat := []

/-- Bytes 0–635 and the CRC with the sender's identity (R332, R333). -/
def LFlit.bytes (f : LFlit) (link node : Nat) : List Byte :=
  let head := f.ftype + f.lseq * 2 ^ 8 + f.ack * 2 ^ 24 + bn f.nak 40 + (if f.ftype = 1 then f.cells.length else 0) * 2 ^ 48
  let body := leBytes 16 head ++ ((List.range 38).map (fun j => leBytes 16 (f.cells.getD j 0))).flatten
    ++ ((List.range 4).map (fun v => leBytes 2 (f.freed.getD v 0))).flatten ++ [0, 0, 0, 0]
  body ++ leBytes 4 (crc32c (0xC3000000 + link * 2 ^ 16 + node % 256 * 2 ^ 8) body)

/-- The outer codeword: message bits, tag, parity (R328), as 544 symbols. -/
def linkSymbols (flit : List Byte) (lw lane count : Nat) : List Nat :=
  let msg := leNat flit + (lw + lane * 2 ^ 4 + count % 4096 * 2 ^ 8) * 2 ^ 5120
  gf10.encode 30 ((List.range 514).map (fun k => bits msg (10 * k) 10))

def symbolBits (l : List Nat) : List Bool := l.flatMap (fun x => (List.range 10).map (bitOf x))

/-- The line bits of a codeword: scrambled, cut into blocks of 128 with the inner code; an odd codeword takes up the half
block its even predecessor left (R329). -/
def lineBits (x : Lk) (lw count : Nat) (syms : List Nat) : Nat × Lk :=
  let st := if count % 4096 = 0 then scramInit lw else x.scr.get 0 lw
  let (bs, st') := scramble 5440 st (symbolBits syms)
  let all := (if count % 2 = 1 then x.half.get [] lw else []) ++ bs
  let blocks := all.length / 128
  let out := ((List.range blocks).map (fun k => innerBlock ((all.drop (128 * k)).take 128))).flatten
  (ofBitList ((List.range out.length).filter (fun k => out.getD k false)),
   { x with scr := x.scr.set lw st', half := x.half.set lw (all.drop (128 * blocks)) })

/-- The PAM4 levels of `n` line bits, the first in bit 0: a pair is a level by Gray code, its first bit the more significant (R330). -/
def pam4 (n v : Nat) : Nat :=
  let firsts := (4 ^ (n / 2) - 1) / 3
  let a := v &&& firsts
  2 * a + (a ^^^ (v / 2 &&& firsts))

/-! ### Credit and cells (R337) -/

def lkBuf (vc : Nat) : Nat := if vc ≤ 1 then 61440 else 4096
def Lk.credit (x : Lk) (vc : Nat) : Nat := (lkBuf vc + x.peerFreed.get 0 vc + 65536 - x.sent.get 0 vc) % 65536

/-- A packet waits for credit of its channel (R337, R349). -/
def Lk.starved (x : Lk) : Bool :=
  (List.range 4).any (fun v => (x.txq.find? (fun p => p.vc == v)).any (fun p => decide (x.credit v < fCells p.typ)))

/-- A request, among the fabric's packets. -/
def FPkt.isRequest (p : FPkt) : Bool := !(p.typ == ftRdRsp || p.typ == ftWrAck || p.typ == ftAtomRsp || p.typ == ftNack || p.typ == ftAstatRsp)

/-- Cells that wait to be sent. -/
def Lk.cellsWaiting (x : Lk) : Nat := x.txq.foldl (fun n q => n + fCells q.typ) x.part.length

/-- Starts the first waiting packet whose channel holds credit for all its cells; a channel keeps its order. A request is marked while more than
`thresh` cells wait (R368). -/
def Lk.startPkt (x : Lk) (thresh : Nat) : Option (FPkt × Lk) :=
  match x.txq.find? (fun p => decide (fCells p.typ ≤ x.credit p.vc) && x.txq.find? (fun q => q.vc == p.vc) == some p) with
  | none => none
  | some p =>
    let q := if p.isRequest && decide (thresh < x.cellsWaiting) then { p with mark := true } else p
    some (q, { x with txq := x.txq.erase p, part := q.cells, sent := x.sent.set p.vc ((x.sent.get 0 p.vc + fCells p.typ) % 65536) })

/-- Up to `n` cells of waiting packets for one DATA flit. -/
def Lk.fill (seq thresh : Nat) : Nat → Lk → List Nat × Lk
  | 0, x => ([], x)
  | n + 1, x =>
    match x.part with
    | c :: r => let (cs, y) := Lk.fill seq thresh n { x with part := r }; (c :: cs, y)
    | [] =>
      match x.startPkt thresh with
      | none => ([], x)
      | some (p, y) =>
        match y.part with
        | [] => ([], y)
        | c :: r => let (cs, z) := Lk.fill seq thresh n { y with part := r, flight := y.flight ++ [(p, seq)] }; (c :: cs, z)

def State.syncCredit (s : State) (k : Nat) : State :=
  let x := s.lk k
  (((s.setFld (LK_CREDIT_VC0 k) (x.credit 0)).setFld (LK_CREDIT_VC1 k) (x.credit 1)).setFld (LK_CREDIT_VC2 k) (x.credit 2)).setFld
    (LK_CREDIT_VC3 k) (x.credit 3)

/-! ### States (R338 to R343) -/

def lsDown : Nat := 0
def lsUp : Nat := 5
def lsQuiet : Nat := 6
def lsRetrain : Nat := 7
def State.lkState (s : State) (k : Nat) : Nat := s.fld (LK_STAT_STATE k)
def lkSrc (k : Nat) : Nat := srcIx 3 k
/-- TARGET 3 acts as 2. -/
def State.lkTarget (s : State) (k : Nat) : Nat := min (s.fld (LK_CTL_TARGET k)) 2
def ms (n : Nat) : Nat := 2000 * n
def us (n : Nat) : Nat := 2 * n

def State.enterLk (s : State) (k st : Nat) : State :=
  (s.setLk k { s.lk k with since := s.now, marker := if st = 4 ∨ st = 7 then some 1 else if st = 5 then some 2 else (s.lk k).marker }).setFld
    (LK_STAT_STATE k) st

/-- Lanes of a map: nibbles other than 0xF. -/
def mapLanes (m : Nat) : List Nat := (List.range 8).filter (fun j => m / 16 ^ j % 16 != 15)

/-- A bit of LK_LANE on every position. -/
def State.lightAll (s : State) (f : Nat → Nat → Fld) (k v : Nat) : State := (List.range 9).foldl (fun s p => s.setFld (f k p) v) s
/-- Lasers off, no ring locked (R338). -/
def State.dark (s : State) (k : Nat) : State := (s.lightAll LK_LANE_LASER_OK k 0).lightAll LK_LANE_RING_LOCKED k 0

/-- LK_STAT.WIDTH: the lanes present both ways. -/
def State.showWidth (s : State) (k : Nat) : State :=
  s.setFld (LK_STAT_WIDTH k) (min (mapLanes (s.fld (LK_MAP_TX_MAP k))).length (mapLanes (s.fld (LK_MAP_RX_MAP k))).length)

/-- The lanes are aligned at codeword count `c` (R331, R339). -/
def State.alignAt (s : State) (k c : Nat) : State := s.setLk k { s.lk k with rxAt := c, rxCnt := [], rxWait := [] }

/-- A link goes DOWN (R341): the retry buffer and part packets are discarded; packets never acknowledged go back to the
fabric engine in `lostPkts`. -/
def State.linkDown (s : State) (k : Nat) : State :=
  let x := s.lk k
  let was := s.lkState k
  if was = lsDown then s
  else
    let lost := x.flight.map (·.1) ++ x.txq
    let y : Lk := { since := s.now, inq := x.inq.map (fun e => { e with old := true }), delay := x.delay }
    let s := { s.setLk k y with lostPkts := s.lostPkts ++ lost.map (fun p => (k, p)) }
    (((s.dark k).setFld (LK_STAT_STATE k) lsDown).setFld (LK_STAT_WIDTH k) 0).bump (LK_TRAIN_DOWNS k) 1
      |>.raise 0x4011 16 (lkSrc k) was

/-- Enters RETRAIN, keeping the retry buffer, the expected LSEQ, credits and maps (R340). -/
def State.retrainLk (s : State) (k : Nat) : State :=
  if s.lkState k ≠ lsUp then s
  else (((s.setLk k { s.lk k with trainAt := s.now, quietSent := none }).enterLk k lsRetrain).bump (LK_TRAIN_RETRAINS k) 1).raise 0x4010 16 (lkSrc k) 0

/-- Training fails at a step: EV_LINK_TRAIN_FAIL, and DOWN for 10 s (R339). -/
def State.trainFail (s : State) (k : Nat) : State :=
  let step := s.lkState k
  (((s.setLk k { (s.lk k) with failedAt := some s.now }).dark k |>.setFld (LK_STAT_STATE k) lsDown).bump (LK_TRAIN_DOWNS k) 1).bump (LK_TRAIN_TRAIN_FAILS k) 1
    |>.raise 0x400F 16 (lkSrc k) step

/-- Limit of a training step in ticks (R339); a cold WAVE search has 1.5 s. -/
def stepLimit (st : Nat) (cold : Bool) : Nat :=
  match st with | 1 => ms 200 | 2 => if cold then ms 1500 else ms 100 | 3 => ms 20 | _ => ms 20

/-- The binding of link k in its owner's LINK_MAP, when it has one. -/
def State.bindOf (s : State) (k : Nat) : Option LinkEnt :=
  if s.fld (LK_STAT_OWNED k) = 1 then (s.linkMaps.get [] (s.fld (LK_STAT_TENANCY k))).find? (fun e => e.bound == k) else none

def LinkEnt.allows (e : LinkEnt) (node link : Nat) : Bool :=
  (e.peerNode == 0xFFFF || e.peerNode == node) && (e.peerLink == 0xFF || e.peerLink == link)

/-- Entry to UP: LINKS_UP; from training, credits and sequence numbers at zero and EV_LINK_UP; a peer its owner's map does not
allow halts a running owner (R339, R343, R348). A TARGET of QUIET written meanwhile is acted on now (R342). -/
def State.linkUp (s : State) (k : Nat) (fresh : Bool) : State :=
  let x := s.lk k
  let trained := s.lkState k != lsQuiet
  let y : Lk := if fresh then { txq := x.txq, inq := x.inq, delay := x.delay, trainAt := x.trainAt, round := x.round, scr := x.scr, half := x.half, rxAt := x.rxAt, rxCnt := x.rxCnt, rxWait := x.rxWait }
    else { x with kept := x.kept.map (fun e => { e with sends := 0 }) }
  let y : Lk := { y with lastRx := s.now, quieting := y.quieting || (trained && s.lkTarget k == 1) }
  let s := (s.setLk k y).enterLk k lsUp
  let s := if trained then s.setFld (LK_TRAIN_LAST_MS k) ((s.now - x.trainAt) / 2000) else s
  let s := (s.setLinkUp k true).showWidth k
  let node := s.fld (LK_STAT_PEER_NODE k)
  let pl := s.fld (LK_STAT_PEER_LINK k)
  let s := if fresh then s.raise 0x700D 16 (lkSrc k) (node + pl * 2 ^ 16) else s
  let t := s.fld (LK_STAT_TENANCY k)
  match s.bindOf k with
  | some e => if s.fld (TN_STATE_STATE t) = 3 ∧ !e.allows node pl then s.raise 0x4016 16 (lkSrc k) (node + pl * 2 ^ 16) [t] else s
  | none => s

/-- A lane map without the lanes that are not in the mask. -/
def dropLanes (m mask : Nat) : Nat := (List.range 8).foldl (fun m j => if bitOf mask j then m else putBits m (4 * j) 4 15) m

/-- A training step ends (R339, R340, R462: none before phase 3): DOWN → LASER → WAVE → ALIGN → IDENTIFY → UP, held in IDENTIFY until the node number
is set; a RETRAIN ends in UP when the peer is the one recorded. -/
def State.trainStep (s : State) (k : Nat) (i : TrainInfo) : State :=
  let st := s.lkState k
  if st = lsDown then
    let waited : Bool := match (s.lk k).failedAt with
      | some f => decide (f + ms 10000 ≤ s.now)
      | none => true
    if s.lkTarget k = 2 ∧ i.ok ∧ waited ∧ 3 ≤ s.fld LH_START_PHASE ∧ s.fld LH_START_PHASE ≤ 9 then
      let s := (s.setFld (LK_MAP_TX_MAP k) 0x76543210).setFld (LK_MAP_RX_MAP k) 0x76543210
      let s := (s.setFld (LK_STAT_SPARE_TX k) 0).setFld (LK_STAT_SPARE_RX k) 0
      (s.setLk k { s.lk k with trainAt := s.now, failedAt := none }).enterLk k 1
    else s
  else if !i.ok then s
  else if st = 1 then (s.lightAll LK_LANE_LASER_OK k 1).enterLk k 2
  else if st = 2 then (s.lightAll LK_LANE_RING_LOCKED k 1).enterLk k 3
  else if st = 3 then (s.alignAt k i.count.toNat).enterLk k 4
  else if st = 4 then
    if s.fld FB_NODE_VALID = 0 then s
    else
      let s := (s.setFld (LK_STAT_PEER_NODE k) i.node.toNat).setFld (LK_STAT_PEER_LINK k) i.link
      let s := s.setLk k { s.lk k with delay := i.delay }
      let tx := dropLanes (s.fld (LK_MAP_TX_MAP k)) i.txLanes.toNat
      let rx := dropLanes (s.fld (LK_MAP_RX_MAP k)) i.rxLanes.toNat
      let s := (s.setFld (LK_MAP_TX_MAP k) tx).setFld (LK_MAP_RX_MAP k) rx
      if (mapLanes tx).length < 4 ∨ (mapLanes rx).length < 4 then s.linkDown k else s.linkUp k true
  else if st = lsRetrain then
    if i.node.toNat = s.fld (LK_STAT_PEER_NODE k) ∧ i.link.val = s.fld (LK_STAT_PEER_LINK k) then
      let s := s.alignAt k i.count.toNat
      (s.setLk k { s.lk k with fromAck := true }).linkUp k false
    else (s.linkDown k).raise 0x4012 16 (lkSrc k) (i.node.toNat + i.link.val * 2 ^ 16)
  else s

def execLinkTrainStep (k : Fin 32) (i : TrainInfo) (s : State) : Out := .next (s.trainStep k i)

/-- LINK_TRAIN_TIMEOUT: the present step has overrun its limit (R339); without stored heater codes WAVE is a cold search. -/
def execLinkTrainTimeout (k : Fin 32) (s : State) : Out :=
  let st := s.lkState k
  let cold := (s.flash.calRec 9 k).isNone
  if 1 ≤ st ∧ st ≤ 4 ∧ (st = 4 → s.fld FB_NODE_VALID = 1) ∧ (s.lk k).since + stepLimit st cold < s.now then .next (s.trainFail k) else .next s

/-- LINK_TRAIN_RETRY: 10 s after a failure, while TARGET still asks for UP (R339). -/
def execLinkTrainRetry (k : Fin 32) (s : State) : Out :=
  match (s.lk k).failedAt with
  | some f => if s.lkState k = lsDown ∧ f + ms 10000 ≤ s.now ∧ s.lkTarget k = 2 then
      .next (s.trainStep k { ok := true, node := 0, link := 0, delay := 0, txLanes := 255, rxLanes := 255 }) else .next s
  | none => .next s

/-- A write of LK_CTL.TARGET (R341, R342): DOWN acts at once; QUIET lets an UP link finish its DATA; UP starts training, or
wakes a QUIET link through LINK_WAKE, once an entry to QUIET under way has ended. -/
def State.linkTarget (s : State) (k v : Nat) : State :=
  let s := s.setFld (LK_CTL_TARGET k) v
  if v = 0 then s.linkDown k
  else if v = 1 then (if s.lkState k = lsUp then s.setLk k { s.lk k with quieting := true } else s)
  else s

/-- LK_CTL.RETRAIN on an UP link (R340). -/
def State.linkRetrain (s : State) (k : Nat) : State := s.retrainLk k
/-- LK_CTL.RESET: DOWN, then training at once when TARGET asks for UP (R341). -/
def State.linkReset (s : State) (k : Nat) : State :=
  let s := s.linkDown k
  let s := s.setLk k { s.lk k with failedAt := none }
  if s.lkTarget k = 2 then s.trainStep k { ok := true, node := 0, link := 0, delay := 0, txLanes := 255, rxLanes := 255 } else s

/-- Lowers the lasers to hold power; LINKS_UP clears with no event (R342, R343). -/
def State.enterQuiet (s : State) (k : Nat) : State :=
  (((s.setLk k { s.lk k with quieting := false, quietSent := none, peerQuiet := false }).enterLk k lsQuiet).setLinkUp k false)

/-- LINK_QUIET_TIMEOUT: 1 ms after this end's MARKER without the peer's QUIET (R342). -/
def execLinkQuietTimeout (k : Fin 32) (s : State) : Out :=
  match (s.lk k).quietSent with
  | some t => if s.lkState k = lsUp ∧ t + ms 1 ≤ s.now then .next (s.enterQuiet k) else .next s
  | none => .next s

/-- LINK_WAKE: out of QUIET, when TARGET asks for UP or the peer sent WAKE (R342). -/
def execLinkWake (k : Fin 32) (peer : Bool) (s : State) : Out :=
  if s.lkState k = lsQuiet ∧ (peer ∨ s.lkTarget k = 2) then
    let s := s.linkUp k false
    .next (s.setLk k { s.lk k with marker := some 4 })
  else .next s

def execLinkRetrainTimeout (k : Fin 32) (s : State) : Out :=
  if s.lkState k = lsRetrain ∧ (s.lk k).since + ms 50 < s.now then .next (s.linkDown k) else .next s

/-- LINK_RX_TIMEOUT: no flit accepted for 10 µs (R336). -/
def execLinkRxTimeout (k : Fin 32) (s : State) : Out :=
  if s.lkState k = lsUp ∧ (s.lk k).lastRx + us 10 ≤ s.now then .next (s.retrainLk k) else .next s

/-- LINK_NAK_REPEAT: every 8 µs until the expected flit is accepted (R336). -/
def execLinkNakRepeat (k : Fin 32) (s : State) : Out :=
  let x := s.lk k
  if x.nakFirst.isSome ∧ x.nakLast + us 8 ≤ s.now then .next (s.setLk k { x with nak := true, nakLast := s.now }) else .next s

/-! ### Lanes (R344, R345) -/

/-- Decides a new transmit map for a lane: LW8, or absent when LW8 is in use; a second change waits for the first. -/
def State.spareTx (s : State) (k lane : Nat) : State :=
  let x := s.lk k
  if x.swTx.isSome then s.setLk k { x with waiting := x.waiting ++ [lane] }
  else
    let m := s.fld (LK_MAP_TX_MAP k)
    if m / 16 ^ lane % 16 = 15 then s
    else
      let used := (List.range 8).any (fun j => m / 16 ^ j % 16 == 8)
      s.setLk k { x with swTx := some (putBits m (4 * lane) 4 (if used then 15 else 8), x.round + 1024), marker := some (x.marker.getD 2) }

/-- A lane map whose codeword count has been reached takes force, on the transmit or the receive side (R345); the link goes DOWN in place of
a width below 4 (R341). -/
def State.mapSwitch (s : State) (k : Nat) (tx : Bool) : State :=
  let x := s.lk k
  match if tx then x.swTx else x.swRx with
  | none => s
  | some (m, at_) =>
    if (if tx then decide (x.round < at_) else decide (2048 ≤ (x.rxAt + 4096 - at_) % 4096)) then s
    else if (mapLanes m).length < 4 then s.linkDown k
    else
      let old := s.fld (if tx then LK_MAP_TX_MAP k else LK_MAP_RX_MAP k)
      let lane := ((List.range 8).find? (fun j => old / 16 ^ j % 16 != m / 16 ^ j % 16)).getD 0
      let s := (s.setFld (if tx then LK_MAP_TX_MAP k else LK_MAP_RX_MAP k) m).showWidth k
      let s := s.setFld (if tx then LK_STAT_SPARE_TX k else LK_STAT_SPARE_RX k) (if (List.range 8).any (fun j => m / 16 ^ j % 16 == 8) then 1 else 0)
      let s := if m / 16 ^ lane % 16 = 15 then s.raise 0x4015 16 (lkSrc k) (mapLanes m).length else s.raise 0x4014 16 (lkSrc k) lane
      let s := s.setLk k (if tx then { s.lk k with swTx := none, waiting := x.waiting.drop 1 } else { s.lk k with swRx := none })
      if tx then (match x.waiting with
        | l :: _ => s.spareTx k l
        | [] => s) else s

/-- LINK_MAP_SWITCH (R345): the codeword count of SWITCH is reached on the transmit side, or on the receive side. -/
def execLinkMapSwitch (k : Fin 32) (tx : Bool) (s : State) : Out := .next (s.mapSwitch k tx)

/-- LINK_LASER_LOW (R344): the monitor of a transmit lane's laser reads below 70 % of its calibrated power. -/
def execLinkLaserLow (k : Fin 32) (lane : Fin 8) (s : State) : Out :=
  let pos := s.fld (LK_MAP_TX_MAP k) / 16 ^ lane.val % 16
  .next (if pos = 15 then s else (s.setFld (LK_LANE_LASER_OK k pos) 0).spareTx k lane)

/-- LINK_RELOCK_TIMEOUT (R344): a mislock re-lock that has not held within 1 ms names the lane in REQ. -/
def execLinkRelockTimeout (k : Fin 32) (pos : Fin 9) (s : State) : Out :=
  let x := s.lk k
  match x.relock.find? (fun e => e.1 == pos.val) with
  | none => .next s
  | some (_, since) =>
    let m := s.fld (LK_MAP_RX_MAP k)
    match (List.range 8).find? (fun j => m / 16 ^ j % 16 == pos.val) with
    | some j => if since + ms 1 ≤ s.now then .next (s.setLk k { x with relock := x.relock.erase pos, req := j, marker := some (x.marker.getD 2) }) else .next s
    | none => .next s

/-! ### Sending (R331, R334, R335) -/

/-- The next flit of a link. -/
def State.nextFlit (s : State) (k : Nat) : LFlit × State :=
  let x := s.lk k
  let st := s.lkState k
  let freed := (List.range 4).map (fun v => x.freed.get 0 v)
  let pendMark := x.swTx.isSome && decide (128 * (mapLanes (s.fld (LK_MAP_TX_MAP k))).length ≤ x.sinceMark + 1)
  let base : LFlit := { ftype := 2, ack := x.expect, nak := x.nak, freed := freed }
  let x1 := { x with nak := false, sinceMark := x.sinceMark + 1 }
  if st = 4 ∧ s.fld FB_NODE_VALID = 0 then (base, s.setLk k x1)
  else if x.marker.isSome || pendMark || decide (16383 ≤ x.sinceMark) then
    let stc := x.marker.getD (if st = 5 then 2 else 1)
    let m := match x.swTx with
      | some (m, _) => m
      | none => s.fld (LK_MAP_TX_MAP k)
    let sw := match x.swTx with
      | some (_, c) => c % 4096 + 2 ^ 15
      | none => 0
    let body := s.fld FB_NODE_NODE + k * 2 ^ 16 + stc * 2 ^ 24 + m * 2 ^ 32 + sw * 2 ^ 64 + x.req * 2 ^ 80
    let s := s.setLk k { x1 with marker := if stc = 4 then some 2 else none, sinceMark := 0, req := 15, quietSent := if stc = 3 then some (x.quietSent.getD s.now) else x.quietSent }
    ({ base with ftype := 3, cells := [body] }, if stc = 3 ∧ x.peerQuiet then s.enterQuiet k else s)
  else if st ≠ lsUp ∨ x.fromAck then (base, s.setLk k x1)
  else
    match x.resend.bind (fun q => x.kept.find? (fun e => e.seq == q)) with
    | some e =>
      let nxt := (e.seq + 1) % 65536
      let y := { x1 with kept := x.kept.map (fun z => if z.seq == e.seq then { z with sends := z.sends + 1 } else z),
                         resend := if x.kept.any (fun z => z.seq == nxt) then some nxt else none }
      let s := (s.setLk k y).bump (LK_RETRY_REPLAYED k) 1
      ({ base with ftype := 1, lseq := e.seq, cells := e.cells }, if 16 ≤ e.sends + 1 then s.retrainLk k else s)
    | none =>
      if x.quieting then
        if x.kept.isEmpty && x.quietSent.isNone then (base, s.setLk k { x1 with marker := some 3, resend := none }) else (base, s.setLk k { x1 with resend := none })
      else if 4096 ≤ x.kept.length then (base, s.setLk k { x1 with resend := none })
      else
        -- a packet that goes on into this flit ends here
        let flight := match x.part, x.flight.getLast? with
          | _ :: _, some e => x.flight.dropLast ++ [(e.1, x.nextSeq)]
          | _, _ => x.flight
        let (cells, y) := Lk.fill x.nextSeq (s.fld FB_CC_MARK_THRESH) 38 { x1 with resend := none, flight := flight }
        if cells.isEmpty then (base, s.setLk k y)
        else ({ base with ftype := 1, lseq := x.nextSeq, cells := cells },
              s.setLk k { y with nextSeq := (x.nextSeq + 1) % 65536, kept := y.kept ++ [⟨x.nextSeq, cells, 1⟩] })

/-- A flit time of an UP link counts in LK_STALL (R349). -/
def State.flitTime (s : State) (k : Nat) : State :=
  let x := s.lk k
  if s.lkState k ≠ lsUp then s
  else
    let s := if 4096 ≤ x.kept.length then s.bump (LK_STALL_BUFFER_FULL k) 1 else s
    if x.starved then s.bump (LK_STALL_CREDIT_WAIT k) 1 else s

/-- LINK_FLIT_TX (R331): one round; the present lanes carry the next flits in ascending logical lane order. -/
def execLinkFlitTx (k : Fin 32) (s : State) : Out :=
  let st := s.lkState k
  if st < 3 ∨ st = lsQuiet then .next s
  else
    let s := s.mapSwitch k true
    let m := s.fld (LK_MAP_TX_MAP k)
    let round := (s.lk k).round
    let (out, s) := (mapLanes m).foldl (fun (r : List (Nat × Nat) × State) j =>
      let (f, s) := (r.2.flitTime k).nextFlit k
      let lw := m / 16 ^ j % 16
      let (b, x) := lineBits (s.lk k) lw round (linkSymbols (f.bytes k (s.fld FB_NODE_NODE)) lw j round)
      (r.1 ++ [(lw, pam4 (if round % 2 = 0 then 5712 else 5848) b)], s.setLk k x)) ([], s)
    let s := s.setLk k { s.lk k with round := round + 1 }
    .next ((s.syncCredit k).emit (.light k round out))

/-! ### Receiving (R336, R337, R344) -/

/-- `a` is before `b` in the 2^15 values below it. -/
def seqBefore (a b : Nat) : Bool := a != b && decide ((b + 65536 - a) % 65536 ≤ 32768)

/-- ACK, NAK and FREED of an accepted flit (R335, R337); the first after a RETRAIN says where resending begins (R340). -/
def State.takeAck (s : State) (k ack : Nat) (nak : Bool) (freed : List Nat) : State :=
  let x := s.lk k
  let y := { x with kept := x.kept.filter (fun e => !seqBefore e.seq ack), flight := x.flight.filter (fun e => !seqBefore e.2 ack),
                    peerFreed := (List.range 4).foldl (fun t v => t.set v (freed.getD v 0)) x.peerFreed, lastRx := s.now }
  let back := x.fromAck && s.lkState k == lsUp
  let y := if (nak || back) && y.kept.any (fun e => e.seq == ack) then { y with resend := some ack } else y
  let y := { y with fromAck := x.fromAck && !back }
  (s.setLk k y).syncCredit k

/-- A discarded flit asks for NAK in the next flit (R336), and LINK_NAK_REPEAT asks again, until the expected flit is accepted. -/
def State.askNak (s : State) (k : Nat) : State :=
  let x := s.lk k
  if x.nakFirst.isSome then s else s.setLk k { x with nak := true, nakFirst := some s.now, nakLast := s.now }

/-- Cuts complete packets from the cells received (R332). `late`: time since the first NAK, for LIFE (R358). -/
def cutPackets (late : Nat) (now : Nat) : Nat → List Nat → List FIn × List Nat
  | 0, c => ([], c)
  | n + 1, c =>
    match c with
    | [] => ([], [])
    | h :: _ =>
      let k := fCells (h % 16)
      if c.length < k then ([], c)
      else
        let p := FPkt.ofCells (c.take k)
        let (r, rest) := cutPackets late now n (c.drop k)
        ({ pkt := { p with life := p.life - late }, at_ := now } :: r, rest)

/-- A DATA flit (R336): accepted when it is the one expected. -/
def State.takeData (s : State) (k lseq : Nat) (cells : List Nat) : State :=
  let x := s.lk k
  if lseq = x.expect then
    let late := x.delay + (match x.nakFirst with
      | some t => 5 * (s.now - t)
      | none => 0)
    let (pkts, rest) := cutPackets late s.now (x.rxCells.length + cells.length) (x.rxCells ++ cells)
    s.setLk k { x with expect := (x.expect + 1) % 65536, rxCells := rest, inq := x.inq ++ pkts, nakFirst := none, nak := false }
  else if seqBefore lseq x.expect then s.bump (LK_RETRY_DUP_DISCARD k) 1
  else s.askNak k

/-- A MARKER (R334, R341, R342, R344, R345). -/
def State.takeMarker (s : State) (k : Nat) (body : Nat) : State :=
  let node := bits body 0 16
  let link := bits body 16 8
  let st := bits body 24 8
  let up := s.lkState k
  if (up = lsUp ∨ up = lsRetrain) ∧ (node ≠ s.fld (LK_STAT_PEER_NODE k) ∨ link ≠ s.fld (LK_STAT_PEER_LINK k)) then
    (s.linkDown k).raise 0x4012 16 (lkSrc k) (node + link * 2 ^ 16)
  else
    let s := if bitOf body 79 then s.setLk k { s.lk k with swRx := some (bits body 32 32, bits body 64 12) } else s
    let s := if bits body 80 4 < 8 ∧ up = lsUp then s.spareTx k (bits body 80 4) else s
    if st = 3 ∧ up = lsUp then
      (if (s.lk k).quietSent.isSome then s.enterQuiet k else s.setLk k { s.lk k with quieting := true, peerQuiet := true })
    else s

/-- A sane flit: known FTYPE and every zero field zero (R332 to R334). -/
def flitFieldsOk (d : List Byte) : Bool :=
  let h := fieldAt d 0 16
  let ft := bits h 0 4
  let n := bits h 48 6
  bits h 4 4 == 0 && bits h 41 7 == 0 && bits h 54 74 == 0 && fieldAt d 632 4 == 0 &&
  (if ft = 1 then decide (1 ≤ n) && decide (n ≤ 38) && (List.range 38).all (fun j => decide (j < n) || fieldAt d (16 + 16 * j) 16 == 0)
   else if ft = 2 then n == 0 && bits h 8 16 == 0 && (List.range 38).all (fun j => fieldAt d (16 + 16 * j) 16 == 0)
   else if ft = 3 then n == 0 && bits h 8 16 == 0 && bits (fieldAt d 16 16) 76 3 == 0 && bits (fieldAt d 16 16) 84 44 == 0 &&
     (List.range 37).all (fun j => fieldAt d (32 + 16 * j) 16 == 0)
   else false)

/-- Counts a position's uncorrectable codewords in a second, and symbol corrections in 2^20 codewords; past its threshold
the lane is named in REQ (R344). -/
def State.countLane (s : State) (k pos fixed : Nat) (failed : Bool) : State :=
  let s := if failed then s.bump (LK_FEC_UNCORRECTABLE k) 1 else (s.bump (LK_FEC_SYM_CORRECTED k) fixed).bump (LK_LANE_SYM_CORRECTED k pos) fixed
  let x := s.lk k
  let freshSec := decide (x.uncFrom + ms 1000 ≤ s.now)
  let unc : Tbl Nat := if freshSec then [] else x.unc
  let u := unc.get 0 pos + (if failed then 1 else 0)
  let n := x.sym.get 0 (16 + pos) + 1
  let c := x.sym.get 0 pos + (if failed then 0 else fixed)
  let m := s.fld (LK_MAP_RX_MAP k)
  let lane := (List.range 8).find? (fun j => m / 16 ^ j % 16 == pos)
  let past := (s.fld (LK_CFG_SPARE_UNC k) != 0 && decide (s.fld (LK_CFG_SPARE_UNC k) < u)) ||
    (s.fld (LK_CFG_SPARE_SYM k) != 0 && decide (s.fld (LK_CFG_SPARE_SYM k) < c))
  let sym : Tbl Nat := if 2 ^ 20 ≤ n ∨ past then (x.sym.set pos 0).set (16 + pos) 0 else (x.sym.set pos c).set (16 + pos) n
  let y := { x with unc := unc.set pos (if past then 0 else u), uncFrom := if freshSec then s.now else x.uncFrom, sym := sym }
  match lane, past with
  | some j, true => s.setLk k { y with req := j, marker := some (y.marker.getD 2) }
  | _, _ => s.setLk k y

/-- A flit in its place in the stream (R333, R336), as 5,120 bits: checked, its ACK and credits taken, its body taken. -/
def State.flitIn (s : State) (k msg : Nat) : State :=
  let d := leBytes 640 msg
  let seed := 0xC3000000 + s.fld (LK_STAT_PEER_LINK k) * 2 ^ 16 + s.fld (LK_STAT_PEER_NODE k) % 256 * 2 ^ 8
  if s.lkState k < 4 ∨ s.lkState k = lsQuiet then s
  else if fieldAt d 636 4 ≠ crc32c seed (d.take 636) then (s.bump (LK_RETRY_CRC_FAIL k) 1).askNak k
  else if !flitFieldsOk d then s.askNak k
  else
    let h := fieldAt d 0 16
    -- a DATA flit out of sequence is not accepted, nor its ACK, NAK and FREED (R335 to R337)
    let y := if bits h 0 4 = 1 ∧ bits h 8 16 ≠ (s.lk k).expect then s
      else s.takeAck k (bits h 24 16) (bitOf h 40) ((List.range 4).map (fun v => fieldAt d (624 + 2 * v) 2))
    match bits h 0 4 with
    | 1 => y.takeData k (bits h 8 16) ((List.range (bits h 48 6)).map (fun j => fieldAt d (16 + 16 * j) 16))
    | 3 => y.takeMarker k (fieldAt d 16 16)
    | _ => y

/-- A codeword joins those that wait for their round (R331): skews of up to 2,047 codewords are taken. -/
def State.rxHold (s : State) (k : Nat) (c : RxCw) : State :=
  let x := s.lk k
  let y := { x with rxCnt := x.rxCnt.set c.pos ((c.count + 1) % 4096) }
  if 2047 < (c.count + 4096 - x.rxAt) % 4096 then s.setLk k y
  else s.setLk k { y with rxWait := x.rxWait.filter (fun e => !(e.count == c.count && e.pos == c.pos)) ++ [c] }

/-- Rounds whose codewords have all come are taken, their flits in ascending logical lane order (R331); a flit that failed is asked for again
(R336). -/
def State.roundsIn (k : Nat) : Nat → State → State
  | 0, s => s
  | n + 1, s =>
    let s := s.mapSwitch k false
    let x := s.lk k
    let m := s.fld (LK_MAP_RX_MAP k)
    let ps := (mapLanes m).map (fun j => m / 16 ^ j % 16)
    let at_ (p : Nat) : Option RxCw := x.rxWait.find? (fun e => e.count == x.rxAt && e.pos == p)
    if s.lkState k < 4 ∨ ps.isEmpty ∨ !ps.all (fun p => (at_ p).isSome) then s
    else
      let s := s.setLk k { x with rxAt := (x.rxAt + 1) % 4096, rxWait := x.rxWait.filter (fun e => e.count != x.rxAt) }
      State.roundsIn k n (ps.foldl (fun s p => match (at_ p).bind (·.flit) with
        | some f => s.flitIn k f
        | none => s.askNak k) s)

/-- LINK_FLIT_RX (R331 to R337, R344): a codeword received on position `pos`, as the receiver's decision on the inner code and the scrambler leaves it,
5,440 bits; symbol s in bits [10s + 9 : 10s]. -/
def execLinkFlitRx (k : Fin 32) (pos : Fin 9) (cw : BitVec 5440) (s : State) : Out :=
  let st := s.lkState k
  let x := s.lk k
  if st < 4 ∨ st = lsQuiet then .next s
  else
    match gf10.decode 30 ((List.range 544).map (fun j => bits cw.toNat (10 * j) 10)) with
    | none => .next (State.roundsIn k 2048 ((s.countLane k pos 0 true).rxHold k ⟨x.rxCnt.get x.rxAt pos, pos, none⟩))
    | some (sy, fixed) =>
      let s := s.countLane k pos fixed false
      let msg := (List.range 514).foldl (fun n j => n + sy.getD j 0 * 2 ^ (10 * j)) 0
      if bits msg 5120 4 ≠ pos.val then
        let s := if x.relock.any (fun e => e.1 == pos.val) then s
          else (((s.setLk k { s.lk k with relock := (s.lk k).relock.set pos s.now }).setFld (LK_LANE_RING_LOCKED k pos) 0).bump (LK_FEC_MISLOCKS k) 1).raise
            0x4013 16 (lkSrc k) pos
        .next (State.roundsIn k 2048 (s.rxHold k ⟨x.rxCnt.get x.rxAt pos, pos, none⟩))
      else
        let s := (s.setLk k { s.lk k with relock := (s.lk k).relock.erase pos }).setFld (LK_LANE_RING_LOCKED k pos) 1
        .next (State.roundsIn k 2048 (s.rxHold k ⟨bits msg 5128 12, pos, some (msg % 2 ^ 5120)⟩))

/-- A packet joins a link's transmit queue. -/
def State.sendLink (s : State) (k : Nat) (p : FPkt) : State := s.setLk k { s.lk k with txq := (s.lk k).txq ++ [p] }

/-- The fabric engine takes a packet's cells from the receive buffer (R337). -/
def State.freeLink (s : State) (k : Nat) (p : FPkt) : State :=
  let x := s.lk k
  s.setLk k { x with freed := x.freed.set p.vc ((x.freed.get 0 p.vc + fCells p.typ) % 65536) }

end Sys2Proof.Machine
end

