-- ==== Sys2Proof/Machine/Hbm.lean ====
section
/-!
DEFINITION. The memory controllers of HBM (10): their commands over the page code of Ops: reads, writes, recovery, scrubbing, the error log,
retirement; the write-back of corrected shoal words and the arming of flips.
-/
namespace Sys2Proof.Machine

open Sys2Proof

/-- What a requester of R299's code may reach in an island's HBM: the mapped extent; the program region is read by instruction and
channel-program fetches, and served for the write-back, the scrubber and the self-test (R20, R112). -/
def State.hbmReach (s : State) (i o req : Nat) (write : Bool) : Bool :=
  decide (o < s.extent i) ||
  (decide (o < s.extent i + gib) && (req == reqCache || req == reqScrub || req == reqSelfTest || (!write && (req == reqCore || req == reqDma))))

/-- Further symbols and stored CRCs of the page of offset o have changed. -/
def State.strike (s : State) (i o : Nat) (e : PageErr) : State := s.setDamage (hbmBase i + o) ((s.pageDamage (hbmBase i + o)).add e)

/-- A mismatch in detection-only mode is refetched up to three times: one that a refetch clears leaves nothing behind, and is logged
KIND 4 (R292). -/
def State.refetched (s : State) (i o req : Nat) : State :=
  (s.logLine i 4 o req 0 0 (2 ^ (o / 128 % 32))).bump (BT_MC_STK_ECC_REFETCH_OK i (stackOf o)) 1

/-- HBM_READ (R286, R288, R292, R301): a controller reads the line at offset `off` for requester `req`, and `e` has changed in the
page. A cached line is read from the cache; an access beyond the extent is refused, one to a retired page refused and logged. -/
def execHbmRead (i : Fin 16) (off : BitVec 48) (req : Fin 10) (e : PageErr) (s : State) : Out :=
  let o := off.toNat / 128 * 128
  let a := hbmBase i + o
  if !s.hbmReach i o req false then .next s
  else if s.retired i o then .next (s.logLine i 5 o req 0 0 0)
  else if s.mscHas a then .next s
  else
    let hit := s.strike i o e
    let s1 := if s.detectOnly i o && e.refetch != 0 && (s.lineCheck a != .uncorrectable) then
        (if hit.lineCheck a == .uncorrectable then s.refetched i o req else s) else hit
    .next (if req.val = reqScrub ∨ req.val = reqCache ∨ req.val = reqSelfTest then (s1.lineFix i a req).2 else (s1.lineRead i a req (lineWords a)).2)

/-- A write of bytes of one line that reaches the controller: a read-modify-write (R289, R290). -/
def State.lineMerge (s : State) (i a v mask req : Nat) (bad : Bool) : State :=
  let s := s.evict i a
  if mask % 2 ^ 128 = 2 ^ 128 - 1 then s.rewriteLine i a v req bad
  else
    let (r, s) := s.lineFix i a req
    let old := if r == .uncorrectable then s.lineRaw a else s.peek a 128
    let new := leNat ((List.range 128).map (fun j => BitVec.ofNat 8 ((if bitOf mask j then v else old) / 256 ^ j)))
    s.landLine a new (bad || r.bad)

/-- HBM_WRITE (R289, R290, R279): a full-page write goes direct; another write is a read-modify-write of its line. -/
def execHbmWrite (i : Fin 16) (off : BitVec 48) (req : Fin 10) (w : HbmWr) (s : State) : Out :=
  let o := off.toNat / 128 * 128
  if !s.hbmReach i o req true then .next s
  else if s.retired i o then .next (s.logLine i 5 o req 0 0 0)
  else
    match w with
    | .line data mask poison => .next (s.lineMerge i (hbmBase i + o) data.toNat mask.toNat req (poison != 0))
    | .page data poison =>
      .next ((List.range 32).foldl (fun s j => s.storeLine (pageLine i o j) (bits data.toNat (1024 * j) 1024) (bitOf poison.toNat j)) s)

/-! ### Recovery and rebuild (R293) -/

def State.stackPages (s : State) (i : Nat) : Nat := s.fld (BT_MC_LAYOUT_STACK_PAGES i)

/-- STACK_RECOVERY (R272, R293): the controller retrains the stack, and starts a rebuild lap; `failed`: the channels it has found
failed (R302). -/
def State.recoverStack (s : State) (i n failed : Nat) : State :=
  (((s.orFld (BT_MC_STK_ERASE_FAILED i n) failed).setFld (BT_MC_STK_STAT_RECOVERY i n) 1).setFld (BT_MC_STK_STAT_REBUILD_PTR i n) 0).raise
    0x400E i (stkSrc n) 0
def execStackRecovery (i : Fin 16) (n : Fin 8) (failed : BitVec 32) (s : State) : Out := .next (s.recoverStack i n failed.toNat)

/-- Failing lines of a page are stored poisoned, each logged with KIND 7, and the parity is recomputed (R293, R297). -/
def State.poisonFailing (s : State) (i o : Nat) (failing : List Nat) : State :=
  let s := failing.foldl (fun s j =>
    let a := pageLine i o j
    (s.logMem i (elogRec 7 (stackOf o) (stackPage o * 4096 + 128 * j) reqScrub (hbmBase i + o / 4096 * 4096) 0 0 (2 ^ j) (s.fld LH_SLOT_COUNT_COUNT))).landLine
      a (s.lineRaw a) true) s
  s.setDamage (hbmBase i + o) (s.pageDamage (hbmBase i + o)).mendParity

/-- The failing lines of a page that the scrubber or the rebuild found (R293, R297, R301). -/
def State.lostLines (s : State) (i o : Nat) (failing : List Nat) : State :=
  let s := s.poisonFailing i o failing
  if failing.isEmpty then s
  else (s.bump (BT_MC_STK_ECC_UNCORRECTABLE i (stackOf o)) failing.length).raise evMemUncorrectable i (stkSrc (stackOf o)) (hbmBase i + o / 4096 * 4096)

/-- Island offset of stack page q of stack n (R274). -/
def pageOff (n q : Nat) : Nat := q * 32768 + n * 4096

/-- REBUILD_PAGE (R293): the page at the lap's pointer, in which `e` has changed; the recovery ends with the lap. -/
def execRebuildPage (i : Fin 16) (n : Fin 8) (e : PageErr) (s : State) : Out :=
  if s.fld (BT_MC_STK_STAT_RECOVERY i n) = 0 then .next s
  else
    let q := s.fld (BT_MC_STK_STAT_REBUILD_PTR i n)
    let o := pageOff n q
    let s := s.strike i o e
    let s := s.lostLines i o (s.linesThat i o .uncorrectable)
    if q + 1 < s.stackPages i then .next (s.setFld (BT_MC_STK_STAT_REBUILD_PTR i n) (q + 1))
    else .next ((s.setFld (BT_MC_STK_STAT_REBUILD_PTR i n) 0).setFld (BT_MC_STK_STAT_RECOVERY i n) 0)

/-! ### The scrubber (R297, R298) -/

def second : Nat := 2000000
def State.lap (s : State) (i n : Nat) : Lap := s.laps.get {} (i * 8 + n)
/-- Seconds of the lap under way (BT_MC_STK_LAP.ELAPSED). -/
def State.lapElapsed (s : State) (i n : Nat) : Nat := (s.now - (s.lap i n).since) / second

/-- The scrubber of stack n runs: enabled, its region's fill ended, not in still (R297). -/
def State.scrubs (s : State) (i n : Nat) : Bool :=
  s.fld (BT_MC_SCRUB_CFG_ENABLE i) == 1 && s.fld (BT_MC_REGION_DETECT_ONLY i (s.regionOf i (pageOff n (s.fld (BT_MC_STK_SCRUB_PROGRESS i n))))) == 0 &&
  s.fld LH_PWR_STAT_STATE != 2 && s.fld LH_PWR_STAT_STATE != 3

/-- The next page, or the end of the lap (R298). -/
def State.scrubNext (s : State) (i n : Nat) : State :=
  let q := s.fld (BT_MC_STK_SCRUB_PROGRESS i n) + 1
  if q < s.stackPages i then s.setFld (BT_MC_STK_SCRUB_PROGRESS i n) q
  else
    let l := s.lap i n
    let s := (((s.setFld (BT_MC_STK_SCRUB_PROGRESS i n) 0).setFld (BT_MC_STK_SCRUB_LAST_LAP i n) (s.lapElapsed i n)).setFld
      (BT_MC_STK_SCRUB_PARTIAL i n) (if l.part then 1 else 0)).incFld (BT_MC_STK_LAP_LAPS i n) 1
    { s with laps := s.laps.set (i * 8 + n) { since := s.now, part := s.fld LH_START_PHASE != 9 } }

/-- SCRUB_PAGE (R297): reads the page at PROGRESS and its record, in which `e` has changed, corrects or poisons it; retired pages are
skipped. In a stack in recovery the page's parity is not trusted, and its failing lines are refetched (R292). -/
def execScrubPage (i : Fin 16) (n : Fin 8) (e : PageErr) (s : State) : Out :=
  if !s.scrubs i n then .next s
  else
    let o := pageOff n (s.fld (BT_MC_STK_SCRUB_PROGRESS i n))
    let a := hbmBase i + o
    if s.retired i o then .next (s.scrubNext i n)
    else if s.detectOnly i o && e.refetch != 0 then
      let lines := (s.strike i o e).linesThat i o .uncorrectable |>.filter (fun j => !(s.linesThat i o .uncorrectable).contains j)
      .next ((lines.foldl (fun (s : State) j => s.refetched i (o + 128 * j) reqScrub) s).scrubNext i n)
    else
      let s := s.strike i o e
      let f := s.linesThat i o .uncorrectable
      if f.isEmpty && !((s.pageDamage a).syms.any (fun y => decide (2048 ≤ y.1))) then .next (s.scrubNext i n)
      else
        match (if s.detectOnly i o then Decoded.failed else s.pageDecode i o) with
        | .ok cw syms eras =>
          let marked := s.linesThat i o .poisoned
          .next ((((((s.settle i o cw true).logPage i 6 o reqScrub f marked syms eras).bump (BT_MC_STK_ECC_CORRECTED i n) 1).raise evMemCorrected i (stkSrc n)
            (hbmBase i + o / 4096 * 4096))).scrubNext i n)
        | .failed => .next ((s.lostLines i o f).scrubNext i n)

/-- SCRUB_LAP_SLOW (R298): once for a lap that is not partial. -/
def execScrubLapSlow (i : Fin 16) (n : Fin 8) (s : State) : Out :=
  let l := s.lap i n
  let th := s.fld (BT_MC_SCRUB_CFG_SLOW_THRESHOLD i)
  if th = 0 ∨ l.part ∨ l.slow ∨ s.lapElapsed i n < th then .next s
  else .next ({ s with laps := s.laps.set (i * 8 + n) { l with slow := true } }.raise 0x7004 i (stkSrc n) (s.lapElapsed i n % 2 ^ 32))

/-! ### Error log, flips, write-back of corrected words -/

/-- ELOG_TAIL_WRITE (R299). -/
def State.elogTail (s : State) (i v : Nat) : State := { s.setFld (BT_MC_ELOG_TAIL i) v with elogOvf := s.elogOvf.erase i }
def execElogTailWrite (i : Fin 16) (tail : BitVec 10) (s : State) : Out := .next (s.elogTail i tail.toNat)

/-- FLIP_ARM (R296): a write of IS_FLIP_CTL or BT_MSC_FLIP_CTL; ARM replaces the selection. -/
def State.flipCtl (s : State) (i : Nat) (msc : Bool) (v : Nat) : State :=
  if msc then
    let s := (((s.setFld (BT_MSC_FLIP_CTL_CHECK i) v).setFld (BT_MSC_FLIP_CTL_MEM i) (v / 2 ^ 8)).setFld (BT_MSC_FLIP_CTL_UNIT i) (v / 2 ^ 12)).setFld
      (BT_MSC_FLIP_CTL_ARM i) (v / 2 ^ 31)
    if bitOf v 30 then s.setFld (BT_MSC_FLIP_CTL_DONE i) 0 else s
  else
    let s := (((s.setFld (IS_FLIP_CTL_CHECK i) v).setFld (IS_FLIP_CTL_MEM i) (v / 2 ^ 8)).setFld (IS_FLIP_CTL_UNIT i) (v / 2 ^ 12)).setFld
      (IS_FLIP_CTL_ARM i) (v / 2 ^ 31)
    if bitOf v 30 then s.setFld (IS_FLIP_CTL_DONE i) 0 else s
def execFlipArm (i : Fin 16) (msc : Bool) (v : BitVec 64) (s : State) : Out := .next (s.flipCtl i msc v.toNat)

/-- SHOAL_ECC_WRITEBACK (R189): a word that reads corrected is stored again as it reads. -/
def execShoalEccWriteback (i : Fin 16) (word : Fin 268435456) (s : State) : Out :=
  let a := shoalBase i + 8 * word.val
  match s.check (.mem a) true with
  | .corrected => .next (s.unflip (.mem a))
  | .wrong x => .next ((s.poke a 8 x.toNat).unflip (.mem a))
  | _ => .next s

/-! ### Retirement (R300) -/

/-- Cached lines of retired pages are discarded without write-back. -/
def State.dropRetired (s : State) (i : Nat) : State :=
  { s with msc := s.msc.filter (fun p => !(decide (hbmBase i ≤ p.1) && decide (p.1 < hbmBase (i + 1)) && s.retired i (p.1 - hbmBase i))) }

/-- Retires the page at island offset o: false when the entries are exhausted. -/
def State.retirePage (s : State) (i o : Nat) : Bool × State :=
  let a := hbmBase i + o / 4096 * 4096
  if s.retPages.contains a then (true, s)
  else if 16384 ≤ s.fld (BT_MC_RETIRED_PAGE_ENTRIES i) then (false, s)
  else
    let new := !s.retired i o
    let s := ({ s with retPages := s.retPages ++ [a] }.setFld (BT_MC_RETIRED_PAGE_ENTRIES i) (s.fld (BT_MC_RETIRED_PAGE_ENTRIES i) + 1))
    (true, (if new then s.bump (BT_MC_RETIRED_PAGES_OUT i) 1 else s).dropRetired i)

/-- Pages of island i that a bank holds and that are in service: its stack's pages with a line or record byte there. -/
def State.bankPages (s : State) (i stack chan pch bank : Nat) : Nat :=
  ((List.range (s.stackPages i)).filter (fun q =>
    !s.retired i (pageOff stack q) && { s with retPages := [], retBanks := [[i, stack, chan, pch, bank]] }.retired i (pageOff stack q))).length

/-- Retires a bank: false when the entries are exhausted. -/
def State.retireBank (s : State) (i stack chan pch bank : Nat) : Bool × State :=
  let b := [i, stack, chan, pch, bank]
  if s.retBanks.contains b then (true, s)
  else if 128 ≤ s.fld (BT_MC_RETIRED_BANK_ENTRIES i) then (false, s)
  else
    let n := s.bankPages i stack chan pch bank
    let s := ({ s with retBanks := s.retBanks ++ [b] }.setFld (BT_MC_RETIRED_BANK_ENTRIES i) (s.fld (BT_MC_RETIRED_BANK_ENTRIES i) + 1))
    (true, (s.bump (BT_MC_RETIRED_PAGES_OUT i) n).dropRetired i)

end Sys2Proof.Machine
end

