-- ==== Sys2Proof/Machine/Span.lean ====
section
/-!
DEFINITION. Runs of bytes that cross lines: reading and writing them line by line with their poison marks
(R190, R289, R301), and the completion of a transfer (R155, R164).
-/
namespace Sys2Proof.Machine

open Sys2Proof

/-- Reads `n` bytes at physical address `a`, line by line: the bits, and the addresses of the bad words among them. -/
def State.readSpan (s : State) (req a : Nat) : Nat → Nat → Nat × List Nat × State
  | 0, _ => (0, [], s)
  | f + 1, n =>
    if n = 0 then (0, [], s)
    else
      let k := min n (128 - a % 128)
      let (v, bad, s) := s.physLine (a / 128 * 128) req
      let part := v / 2 ^ (8 * (a % 128)) % 2 ^ (8 * k)
      let here := bad.filter (fun w => decide (a < w + 8) && decide (w < a + k))
      let (r, bs, s) := s.readSpan req (a + k) f (n - k)
      (part + 2 ^ (8 * k) * r, here ++ bs, s)

/-- Lines touched by `n` bytes at `a`. -/
def spanLines (a n : Nat) : Nat := if n = 0 then 0 else (a + n - 1) / 128 - a / 128 + 1

def State.readBytes (s : State) (req a n : Nat) : Nat × List Nat × State := s.readSpan req a (spanLines a n) n

/-- Writes `n` bytes of `v` at physical address `a`, line by line; `bad` says of a word's address whether it is poisoned, `page` of a
line whether it belongs to a full-page write. -/
def State.storeSpan (s : State) (req : Nat) (page bad : Nat → Bool) (a : Nat) : Nat → Nat → Nat → State
  | 0, _, _ => s
  | f + 1, n, v =>
    if n = 0 then s
    else
      let k := min n (128 - a % 128)
      let o := a % 128
      let l := a / 128 * 128
      let s := s.physLineStore (page l) l (v % 2 ^ (8 * k) * 2 ^ (8 * o)) ((2 ^ k - 1) * 2 ^ o) req (fun j => bad (l + 8 * j))
      s.storeSpan req page bad (a + k) f (n - k) (v / 2 ^ (8 * k))

/-- The bytes of a strait's landing fill whole pages directly (R289). -/
def State.storeBytes (s : State) (req a n v : Nat) (bad : Nat → Bool := fun _ => false) : State :=
  s.storeSpan req (fun l => req == 4 && coversPage a n l) bad a (spanLines a n) n v

/-- Reads `n` bytes at local-view address `a` of island i; a line that is refused (R22) is logged KIND 5 and reads as all
bad words (R221). -/
def State.readLocal (s : State) (i req a : Nat) : Nat → Nat → Nat × List Nat × State
  | 0, _ => (0, [], s)
  | f + 1, n =>
    if n = 0 then (0, [], s)
    else
      let k := min n (128 - a % 128)
      let r : Nat × List Nat × State :=
        match s.localPhys i (a / 128 * 128) with
        | some p =>
          let (v, bad, s) := s.physLine p req
          (v, bad.map (fun w => w - p + a / 128 * 128), s)
        | none => (0, lineWords (a / 128 * 128), s.noteRefused i (a / 128 * 128) req)
      let part := r.1 / 2 ^ (8 * (a % 128)) % 2 ^ (8 * k)
      let here := r.2.1.filter (fun w => decide (a < w + 8) && decide (w < a + k))
      let (q, bs, s) := r.2.2.readLocal i req (a + k) f (n - k)
      (part + 2 ^ (8 * k) * q, here ++ bs, s)

/-- Every line of [a, a + n) lies in the local view of island i. -/
def State.localSpanOk (s : State) (i a n : Nat) : Bool :=
  (List.range (spanLines a n)).all (fun k => (s.localPhys i (a / 128 * 128 + 128 * k)).isSome)

/-- The core a key names. -/
def coreOf (k : Nat) : CoreId := ⟨Fin.ofNat 16 (k / 8), Fin.ofNat 8 k⟩

/-! ### Completion of a transfer (R155, R164) -/

def xsPoison : Nat := 1
def xsUnmapped : Nat := 2
def xsReset : Nat := 3
def xsUnknown : Nat := 4
def xsDark : Nat := 5
def xsUnreachable : Nat := 6

/-- cw.xerr after a failed transfer: VALID, status and pc of the first, the count of all (R156, R164). -/
def xerrNext (v : Word) (status : Nat) (pc : Word) : Word :=
  let n := v.toNat
  let cnt := min (bits n 16 16 + 1) 65535
  if bitOf n 8 then BitVec.ofNat 64 (putBits n 16 16 cnt)
  else BitVec.ofNat 64 (status + 256 + cnt * 2 ^ 16 + pc.toNat % 2 ^ 32 * 2 ^ 32)

/-- The event of a failed transfer (R164). -/
def State.xferEvent (s : State) (c : CoreId) (x : Xfer) : State :=
  let src := srcIx 1 c.sc
  if x.status = 0 then s
  else if x.status = xsPoison then s.raise 0x3001 c.isl src (x.detail % 2 ^ 48)
  else if x.status = xsUnknown then s.raise 0x4002 c.isl src (x.detail % 2 ^ 16)
  else if x.status = xsDark then s
  else s.raise 0x4001 c.isl src (x.status + x.pc.toNat % 2 ^ 32 * 2 ^ 32)

/-- The transfer leaves the core's queue. -/
def State.dropXfer (s : State) (c : CoreId) (no : Nat) : State :=
  let k := s.core c
  s.setCore c { k with xfers := k.xfers.filter (fun y => y.no != no) }

/-- A transfer completes: its counter, cw.xerr and event; an FB.ATOM writes its register. The words are read and written as every
hardware access of them is (R110, R155, R162, R164, R165, R296). -/
def State.finishXfer (s : State) (c : CoreId) (x : Xfer) : State :=
  let s := (s.dropXfer c x.no).xferEvent c x
  let s := match x.kind with
    | .fbAtom rd _ _ _ _ _ =>
      let s := s.putG c rd (if x.status = 0 then x.val else 0) false
      if x.status = xsPoison then s.poisonG c rd else s
    | _ => s.hwUpdate c (0x040 + x.cnt) (fun v => v + 1)
  if x.status = 0 then s else s.hwUpdate c cwXerr (fun v => xerrNext v x.status x.pc)

/-- The transfer `no` of a core, changed in place. -/
def State.mapXfer (s : State) (c : CoreId) (no : Nat) (f : Xfer → Xfer) : State :=
  let k := s.core c
  s.setCore c { k with xfers := k.xfers.map (fun x => if x.no = no then f x else x) }

/-- Records a failure of one of its lines; the first stands. -/
def Xfer.fail (x : Xfer) (status detail : Nat) : Xfer := if x.status = 0 then { x with status := status, detail := detail } else x

/-- Completes transfer `no` of a core with a status. -/
def State.finishNo (s : State) (c : CoreId) (no status detail : Nat) : State :=
  match (s.core c).xfers.find? (fun x => x.no == no) with
  | some x => s.finishXfer c (x.fail status detail)
  | none => s

end Sys2Proof.Machine
end

