-- ==== Sys2Proof/Machine/Serve.lean ====
section
/-!
DEFINITION. What a base tile does with a request that reaches its island (R248, R250, R268, R269): reads, writes and
atomics of lines and words, and the flag and barrier words.
-/
namespace Sys2Proof.Machine

open Sys2Proof

/-! ### Flag words (R170, R171, R268, R315) -/

/-- Relation of a wait: 0 equal, 1 unsigned greater or equal, 2 not equal (R171). -/
def flagHolds (rel x v : Nat) : Bool :=
  match rel with
  | 0 => x == v
  | 1 => decide (v ≤ x)
  | _ => x != v

/-- A DMA WAIT on the word at `a` sees its new value. -/
def DAct.seeFlag (a x : Nat) (d : DAct) : DAct :=
  match d.op with
  | .wait 0 rel addr val seen ok => { d with op := .wait 0 rel addr val seen (ok || (addr == a && flagHolds rel x val)) }
  | _ => d

/-- The waits on the word at `a` are evaluated at its change (R171, R315). -/
def State.flagChanged (s : State) (a : Nat) : State :=
  let x := s.peek a 8
  let s := { s with dch := s.dch.map (fun e => (e.1, { e.2 with acts := e.2.acts.map (DAct.seeFlag a x) })) }
  (List.range 8).foldl (fun s n =>
    let c : CoreId := ⟨Fin.ofNat 16 ((a - flagBase 0) / 0x100000), Fin.ofNat 8 n⟩
    let k := s.core c
    match k.wait with
    | .flagWait addr v rel false => if addr = a ∧ flagHolds rel x v.toNat then s.setCore c { k with wait := .flagWait addr v rel true } else s
    | _ => s) s

/-- The 64-bit word at flag address `a` takes a value. -/
def State.setFlag (s : State) (a v : Nat) : State := (s.poke a 8 v).flagChanged a
/-- FLAG.ADD: modulo 2^64 (R170). -/
def State.addFlag (s : State) (a v : Nat) : State := s.setFlag a ((s.peek a 8 + v) % 2 ^ 64)

/-- An arrival at barrier word `a` of island b (R269): the word's COUNT is set by the first; reaching it zeroes the word
and posts a RELEASE. -/
def State.arrive (s : State) (b a count : Nat) : State :=
  let w := s.peek a 8
  let cnt := if w = 0 then count % 256 else bits w 8 8
  let n := (bits w 0 8 + 1) % 256
  let word := (a - flagBase b) / 8
  let s := if cnt = count then s
    else s.raise 0x3005 b (srcIx 0 0) (word + cnt * 2 ^ 24 + count * 2 ^ 32)
  if n = cnt then
    let s := s.setFlag a 0
    let t := s.tile b
    s.setTile b { t with rels := t.rels ++ [word] }
  else s.setFlag a (n + cnt * 256)

/-! ### Atomics (R162) -/

/-- The word an atomic stores, of the old value, operand and compare value. -/
def atomicNew (aop old opnd cmp : Nat) : Nat :=
  match aop with
  | 0 => (old + opnd) % 2 ^ 64
  | 1 => opnd
  | 2 => if old = cmp then opnd else old
  | 3 => old &&& opnd
  | 4 => old ||| opnd
  | _ => old ^^^ opnd

/-! ### Requests (R250) -/

/-- Why a base tile refuses a line of its island: unmapped or retired, or a shoal whose island is not present. -/
def State.refuses (s : State) (b a : Nat) : Nat :=
  match place a with
  | .hbm i o => if i = b ∧ s.hbmOk i o then fsOk else fsUnmapped
  | .shoal i _ => if i ≠ b then fsUnmapped else if s.present i then fsOk else fsReset
  | _ => fsUnmapped

/-- The words of a line that a POISON field names. -/
def poisonBits (line : Nat) (bad : List Nat) : Nat :=
  (List.range 16).foldl (fun m w => if bad.contains (line + 8 * w) then m + 2 ^ w else m) 0

/-- The response to a request (R247, R250). -/
def Pkt.answer (k : Pkt) (b status data poison : Nat) : Pkt :=
  { typ := if k.typ = ptRdReq then ptRdRsp else if k.typ = ptWrReq then ptWrAck else ptAtomRsp,
    vc := if k.vc = 3 then 3 else 1, src := b, dst := k.src, tile := true, tag := k.tag, status := status, addr := k.addr,
    poison := poison, data := data }

/-- Base tile b applies a read, write or atomic for requester `req` and makes the response; `page`: the line belongs to a full-page write. -/
def State.applyReq (s : State) (b : Nat) (k : Pkt) (req : Nat) (page : Bool := false) : Pkt × State :=
  let st := s.refuses b k.addr
  if st ≠ fsOk then
    (k.answer b st 0 0,
     if st = fsUnmapped then s.noteRetired b (k.addr - hbmBase b) req else s)
  else if k.typ = ptRdReq then
    let (v, bad, s) := s.physLine (k.addr / 128 * 128) req
    if bad.isEmpty then (k.answer b fsOk v 0, s) else (k.answer b fsPoison 0 (poisonBits (k.addr / 128 * 128) bad), s)
  else if k.typ = ptWrReq then
    (k.answer b fsOk 0 0, s.physLineStore (page && k.mask == fullMask) (k.addr / 128 * 128) k.data k.mask req (fun w => bitOf k.poison w))
  else
    let a := k.addr / 8 * 8
    let (old, bad, s) := s.physRead a 8 req
    if bad then (k.answer b fsPoison 0 (2 ^ (a % 128 / 8)), s)
    else
      let new := atomicNew k.aop old (k.data % 2 ^ 64) (k.data / 2 ^ 64 % 2 ^ 64)
      (k.answer b fsOk old 0, if new = old ∧ k.aop = 2 then s else s.physWrite a 8 new req)

end Sys2Proof.Machine
end

