-- ==== Sys2Proof/Machine/FabricOps.lean ====
section
/-!
DEFINITION. The requesting side of the memory fabric (R350, R351, R355, R356, R359, R361 to R363, R369, R370): routes,
streams, windows, and the sending of a request.
-/
namespace Sys2Proof.Machine

open Sys2Proof

def State.node (s : State) : Nat := s.fld FB_NODE_NODE

/-- Destination unit of an offset (R359): the island, or 16. -/
def dunitOf (off : Nat) : Nat :=
  match place off with
  | .hbm i _ => i
  | .shoal i _ => i
  | _ => 16

/-! ### Across the base (R13, R241, R357) -/

/-- The base tile that link engine Lk is attached to (R13). -/
def linkTile (k : Nat) : Nat := if k < 16 then k / 4 else 12 + (k - 16) / 4

/-- The ferry packet that carries a fabric packet from tile a to tile b: tile origin, its channel, and the ferry type of its kind. -/
def FPkt.ferry (p : FPkt) (a b : Nat) : Pkt :=
  { typ := if p.typ = ftWrReq then ptWrReq else if p.typ = ftAtomReq then ptAtomReq else if p.typ = ftRdRsp then ptRdRsp
           else if p.typ = ftAtomRsp ∨ p.typ = ftAstatRsp then ptAtomRsp else if p.typ = ftWrAck ∨ p.typ = ftNack then ptWrAck else ptRdReq,
    vc := p.vc, src := a, dst := b, tile := true, tag := p.tag % 8192, addr := p.offset, aop := p.aop, mask := p.mask, data := p.data,
    poison := if p.poison then 0xFFFF else 0, status := if p.poison ∧ (p.typ = ftRdRsp ∨ p.typ = ftAtomRsp) then fsPoison else fsOk }

def crossKey (k : Pkt) : Nat := streamKey k * 65536 + k.pseq

/-- A fabric packet sets out across the base from tile a to tile b; what the header cell has no room for stays beside it. -/
def State.crossBase (s : State) (a b : Nat) (x : Cross) : State :=
  let q := x.pkt.ferry a b
  let n := (s.tile a).issued.get 0 (streamKey q)
  { s.postPkts a [q] with crossing := s.crossing.set (crossKey { q with pseq := n }) x }

/-- A packet leaves base tile a by link k: at once when the link is the tile's own, else across the base. -/
def State.toLink (s : State) (kind : CrossKind) (a k : Nat) (p : FPkt) : State :=
  if linkTile k = a then s.sendLink k p else s.crossBase a (linkTile k) { kind := kind, link := k, pkt := p, at_ := s.now }

/-- A request of source unit `unit` leaves by link k; the lighthouse, unit 16, is at every link. -/
def State.unitOut (s : State) (unit k : Nat) (p : FPkt) : State := if unit < 16 then s.toLink .out unit k p else s.sendLink k p

/-! ### Routes (R356, R370) -/

/-- The route entry of table `tbl` (a tenancy, or 16) for a node: cached, else read from HBM and cached. A table not in
use, or an entry that cannot be read, has no route. -/
def State.routeEntry (s : State) (tbl node : Nat) : Nat × State :=
  let key := tbl * 65536 + node
  let valid := if tbl = 16 then s.fld FB_MGMT_RT_VALID else s.fld (FB_TN_RT_VALID tbl)
  match if valid = 0 then none else s.rtCache.find? (fun e => e.1 == key) with
  | some (_, v) => (v.toNat, s)
  | none =>
    let a := (if tbl = 16 then s.fld FB_MGMT_RT_BASE else s.fld (FB_TN_RT_BASE tbl)) + 16 * node
    let ok : Bool := match place a with
      | .hbm i o => s.hbmOk i o
      | _ => false
    if valid = 0 ∨ !ok then (0, s)
    else
      let (v, bad, s) := s.physRead a 16 reqFabric
      if bad then (0, s) else (v, { s with rtCache := s.rtCache.set key (BitVec.ofNat 128 v) })

/-- Link k may carry a request of table `tbl` out of its source (R346, R356). -/
def State.linkOk (s : State) (tbl k : Nat) : Bool :=
  s.lkState k == lsUp && (tbl == 16 || (s.fld (LK_STAT_OWNED k) == 1 && s.fld (LK_STAT_TENANCY k) == tbl))

/-- Physical link of PATH[0] of a route entry: a logical link of the tenancy's map, or a physical link (R356). -/
def State.firstLink (s : State) (tbl p0 : Nat) : Option Nat :=
  if tbl = 16 then some p0 else ((s.linkMaps.get [] tbl)[p0]?).map (·.bound)

def pathAt (p e : Nat) : Nat := bits p (5 * e) 5

/-- Outgoing link of a Haldula table entry (R370, R371). -/
def State.htLink (s : State) (bank node : Nat) : Option Nat :=
  if s.fld (FB_HT_DATA_VALID bank node) = 1 then some (s.fld (FB_HT_DATA_LINK bank node)) else none

/-- The route of a packet that this module originates to `node`: its link, and the packet with the routing fields set;
none without a route (R356, R370). -/
def State.routeOut (s : State) (tbl node : Nat) (p : FPkt) : Option (Nat × FPkt) × State :=
  if s.fld FB_CFG_HALDULA = 1 then
    let n := s.fld FB_HT_CTL_INTER_COUNT
    let (r, s) := s.free
    let pick := (s.fld FB_HT_CTL_INTER_BASE + r.toNat % max n 1) % 65536
    let direct := n == 0 || pick == s.node || pick == node
    let bank := s.fld FB_HT_CTL_ACTIVE
    match s.htLink bank (if direct then node else pick) with
    | some k =>
      if s.linkOk tbl k then
        (some (k, { p with haldula := true, phase := direct, epoch := bank, hops := 15, hop := 1, path := if n = 0 then 0 else pick }), s)
      else (none, s)
    | none => (none, s)
  else
    let (e, s) := s.routeEntry tbl node
    let path := bits e 4 75
    match s.firstLink tbl (pathAt path 0) with
    | some k =>
      if bits e 0 4 ≠ 0 ∧ s.linkOk tbl k then
        (some (k, { p with haldula := false, hops := bits e 0 4, hop := 1, path := putBits path 0 5 0 }), s)
      else (none, s)
    | none => (none, s)

/-! ### Streams and windows (R359, R361, R369) -/

/-- A stream's number in the table of next ESEQs. -/
def fabricStream (unit node dunit vc : Nat) : Nat := ((unit * 65536 + node) * 32 + dunit) * 4 + vc
def SCtx.is (c : SCtx) (unit node dunit vc : Nat) : Bool := c.unit == unit && c.node == node && c.dunit == dunit && c.vc == vc
/-- Outstanding requests, those held UNKNOWN apart. -/
def State.live (s : State) : List FReq := (s.freqs.map (·.2)).filter (fun r => !r.unknown)
def FReq.inStream (r : FReq) (unit node dunit vc : Nat) : Bool :=
  r.unit == unit && r.pkt.dstNode == node && r.dunit == dunit && r.pkt.vc == vc

def winInit (s : State) : Nat := max (s.fld FB_CC_WIN_INIT) 1 * 256
def winMax (s : State) : Nat := max (min (s.fld FB_CC_WIN_MAX) 4096) 1
def State.window (s : State) (unit node : Nat) : SWin :=
  (s.swins.find? (fun w => w.unit == unit && w.node == node)).getD { unit := unit, node := node, w := min (winInit s) (winMax s * 256) }
def State.setWindow (s : State) (w : SWin) : State :=
  { s with swins := s.swins.filter (fun x => !(x.unit == w.unit && x.node == w.node)) ++ [w] }

def State.setSctx (s : State) (c : SCtx) : State :=
  { s with sctxs := s.sctxs.filter (fun x => !x.is c.unit c.node c.dunit c.vc) ++ [c] }

/-- What came of an attempt to send a request. -/
inductive FTry where
  /-- At a bound: the issuer stalls (R373). -/
  | stall
  /-- Completes at once as under NO_ROUTE (R356). -/
  | noRoute (s : State)
  | sent (s : State)

/-- A new request of a source unit (R355). -/
structure FNew where
  unit : Nat
  tbl : Nat
  node : Nat
  off : Nat
  typ : Nat
  vc : Nat
  mask : Nat := 0
  data : Nat := 0
  aop : Nat := 0
  poison : Bool := false
  who : Waiter

/-- Originates a request, within the bounds of R373, R361 and the send window of R369. -/
def State.originate (s : State) (q : FNew) : FTry :=
  let live := s.live
  let dunit := dunitOf q.off
  let held := s.freqs.filter (fun e => e.2.unit == q.unit)
  let write := q.typ != ftRdReq
  let ctx := s.sctxs.find? (fun c => c.is q.unit q.node dunit q.vc)
  let mine := live.filter (fun r => r.inStream q.unit q.node dunit q.vc)
  let win := s.window q.unit q.node
  if 65536 ≤ s.freqs.length ∨ (if q.unit = 16 then 1024 else 4096) ≤ held.length then .stall
  else if ctx.isNone && decide (2048 ≤ (s.sctxs.filter (fun c => c.unit == q.unit)).length) then .stall
  else if (match ctx with | some c => c.blocked && !mine.isEmpty | none => false) then .stall
  else if write && live.any (fun r => r.unit == q.unit && r.pkt.dstNode == q.node && r.pkt.typ == ftRdReq && r.pkt.offset / 128 == q.off / 128) then .stall
  else if min (win.w / 256) (winMax s) ≤ (live.filter (fun r => r.unit == q.unit && r.pkt.dstNode == q.node)).length then .stall
  else
    let c : SCtx := ctx.getD { unit := q.unit, node := q.node, dunit := dunit, vc := q.vc, eseq := s.eseqs.get 0 (fabricStream q.unit q.node dunit q.vc) }
    let c := if c.blocked then { c with blocked := false, syn := true } else c
    let tag := ((List.range (s.freqs.length + 1)).find? (fun k => !s.freqs.any (fun e => e.1 == k))).getD 0
    let p : FPkt := { typ := q.typ, vc := q.vc, syn := c.syn, poison := q.poison, srcNode := s.node, dstNode := q.node, srcUnit := q.unit,
                      tag := tag, eseq := c.eseq, incarn := s.fld FB_NODE_INCARN, life := min (s.fld FB_CFG_LIFE) 500, offset := q.off,
                      aop := q.aop, mask := q.mask, data := q.data }
    match s.routeOut q.tbl q.node p with
    | (none, s) => .noRoute s
    | (some (k, p), s) =>
      let r : FReq := { pkt := p, unit := q.unit, dunit := dunit, ten := q.tbl, who := q.who, first := s.now, lastTx := s.now, link := k }
      let s := { s with freqs := s.freqs.set tag r, eseqs := s.eseqs.set (fabricStream q.unit q.node dunit q.vc) ((c.eseq + 1) % 2 ^ 24) }
      let s := (s.setSctx { c with eseq := (c.eseq + 1) % 2 ^ 24, syn := false, lastAt := s.now }).setWindow { win with lastAt := s.now }
      .sent (s.unitOut q.unit k p)

/-- Sends an outstanding request again on the route in force (R362): none without a route. -/
def State.resend (s : State) (tag : Nat) (r : FReq) (syn : Bool) : Option FReq × State :=
  let p := { r.pkt with retry := true, syn := r.pkt.syn || syn, mark := false, life := min (s.fld FB_CFG_LIFE) 500 }
  match s.routeOut r.ten r.pkt.dstNode p with
  | (none, s) => (none, s)
  | (some (k, p), s) =>
    let r := { r with pkt := p, lastTx := s.now, link := k, busy := none }
    (some r, ({ s with freqs := s.freqs.set tag r }).unitOut r.unit k p)

/-- An outstanding request leaves the engine: its tag is free, its stream's idle time starts. -/
def State.dropReq (s : State) (tag : Nat) (r : FReq) : State :=
  let s := { s with freqs := s.freqs.erase tag }
  { s with sctxs := s.sctxs.map (fun c => if c.is r.unit r.pkt.dstNode r.dunit r.pkt.vc then { c with lastAt := s.now } else c),
           swins := s.swins.map (fun w => if w.unit == r.unit && w.node == r.pkt.dstNode then { w with lastAt := s.now } else w) }

/-- The window's change on a completing response (R369). -/
def State.winResponse (s : State) (unit node : Nat) (echo : Bool) : State :=
  let w := s.window unit node
  let md := max (s.fld FB_CC_MD) 1
  let w1 :=
    if echo ∧ w.w / 256 ≤ w.sinceCut then { w with w := max 256 (w.w * md / 256), sinceCut := 0 }
    else if !echo then { w with w := min (winMax s * 256) (w.w + s.fld FB_CC_AI * 65536 / w.w) }
    else w
  s.setWindow { w1 with sinceCut := w1.sinceCut + 1 }

/-- A request admitted at island i (R352): the island's tenancy runs or is halted, and an ACL entry admits the node. -/
def State.admits (s : State) (i node : Nat) (write : Bool) : Bool :=
  match s.tenOf i with
  | none => false
  | some t =>
    (s.fld (TN_STATE_STATE t) == 3 || s.fld (TN_STATE_STATE t) == 4) &&
    (List.range 4).any (fun k => s.fld (FB_ACL_VALID t k) == 1 && ((node ^^^ s.fld (FB_ACL_BASE t k)) &&& s.fld (FB_ACL_MASK t k)) == 0 &&
      (!write || s.fld (FB_ACL_WRITE t k) == 1))

end Sys2Proof.Machine
end

