-- ==== Sys2Proof/Machine/Dma.lean ====
section
/-!
DEFINITION. DMA channel programs (R303 to R325). A command of a channel stands for the instruction word the channel has
fetched at its next index; line requests go out within the channel's bounds and their responses are taken up by
DMA_LINE_RETURN and DMA_WRITE_ACK.
-/
namespace Sys2Proof.Machine

open Sys2Proof

/-! ### Channels (R303, R305, R306, R324) -/

/-- Base tile at which a host port's traffic enters (R241). -/
def portTile (p : Nat) : Nat := match p with | 0 => 5 | 1 => 6 | 2 => 9 | _ => 10

def hostCh (key : Nat) : Bool := decide (512 ≤ key)
def chPort (key : Nat) : Nat := (key - 512) / 8
def chTile (key : Nat) : Nat := if hostCh key then portTile (chPort key) else key / 32
/-- A register field of channel `key`. -/
def chFld (bt hp : Nat → Nat → Fld) (key : Nat) : Fld := if hostCh key then hp (chPort key) (key % 8) else bt (key / 32) (key % 32)
def dmState (key : Nat) : Fld := chFld BT_DM_CH_STAT_STATE HP_DM_CH_STAT_STATE key
def dmReason (key : Nat) : Fld := chFld BT_DM_CH_STAT_REASON HP_DM_CH_STAT_REASON key
def dmHalts (key : Nat) : Fld := chFld BT_DM_CH_STAT_HALTS HP_DM_CH_STAT_HALTS key
def dmInstr (key : Nat) : Fld := chFld BT_DM_CH_PROGRESS_INSTR HP_DM_CH_PROGRESS_INSTR key
def dmDone (key : Nat) : Fld := chFld BT_DM_CH_PROGRESS_DONE HP_DM_CH_PROGRESS_DONE key
def dmOutstanding (key : Nat) : Fld := chFld BT_DM_CH_STALL_OUTSTANDING HP_DM_CH_STALL_OUTSTANDING key
def dmStalls (key : Nat) : Fld := chFld BT_DM_CH_STALL_STALL_CYCLES HP_DM_CH_STALL_STALL_CYCLES key
def dmFaultOff (key : Nat) : Fld := chFld BT_DM_CH_FAULT_OFFSET HP_DM_CH_FAULT_OFFSET key
def dmFaultTgt (key : Nat) : Fld := chFld BT_DM_CH_FAULT_TGT HP_DM_CH_FAULT_TGT key

def dsIdle : Nat := 0
def dsRunning : Nat := 1
def dsWaiting : Nat := 2
def dsDraining : Nat := 3
def dsHalted : Nat := 4
def dsDone : Nat := 5

def State.ch (s : State) (key : Nat) : DCh := s.dch.get {} key
def State.setCh (s : State) (key : Nat) (c : DCh) : State := { s with dch := s.dch.set key c }

/-- The tenancy a channel works for; 16 when its island is in none. -/
def State.chTen (s : State) (key : Nat) : Nat :=
  if hostCh key then s.fld (HP_DM_CH_PROG_TENANCY (chPort key) (key % 8)) else (s.tenOf (key / 32)).getD 16

/-- Physical island of logical island j of a tenancy (R307). -/
def State.islandOf (s : State) (t j : Nat) : Option Nat :=
  let l := s.tnIslands t
  if l.length ≤ j ∨ 16 ≤ t then none
  else if 2 ≤ s.fld (TN_STATE_STATE t) then some (s.physOf t j) else l[j]?

/-- Physical address of the program region of island i (R112). -/
def State.progBase (s : State) (i : Nat) : Nat := hbmBase i + s.extent i
/-- Where LOAD_IMAGE places the program of base-tile channel c (R303). -/
def State.dmaProg (s : State) (key : Nat) : Nat := s.dmaAt.get 0 key

/-- Instructions of a channel's program (R308). -/
def State.chLength (s : State) (key : Nat) : Nat :=
  if hostCh key then s.fld (HP_DM_CH_PROGLEN_COUNT (chPort key) (key % 8)) else s.dmaLen.get 0 key / 16

/-! ### Halt reasons and targets (R307, R319) -/

def drAddress : Nat := 1
def drPoison : Nat := 2
def drProgram : Nat := 3
def drReset : Nat := 4
def drHost : Nat := 5
def drRemote : Nat := 6
def drTenancy : Nat := 7
def drSoftware : Nat := 8

/-- What a target names. -/
inductive DPlace where
  | line (a : Nat)
  | fabric (node off : Nat)
  | host (a : Nat)
  | fail (reason : Nat)

/-- A target code that the channel kind may use (R307). -/
def tgtOk (key t : Nat) : Bool := decide (t < 32) || (decide (t < 36) && !hostCh key) || (t == 36 && hostCh key)

/-- A window that names the own node is served within the module, when the ACL admits it (R161, R351, R352). -/
def State.ownNode (s : State) (off : Nat) (write : Bool) : DPlace :=
  match place off with
  | .hbm i _ => if s.admits i s.node write then .line off else .fail drRemote
  | .shoal i _ => if s.admits i s.node write then .line off else .fail drRemote
  | _ => .fail drAddress

/-- The place of an offset of a target (R307). -/
def State.dPlace (s : State) (key : Nat) (win : List (Nat × Nat)) (tgt off : Nat) (write : Bool) : DPlace :=
  let t := s.chTen key
  if !tgtOk key tgt then .fail drProgram
  else if tgt < 16 then
    match s.islandOf t tgt with
    | some i => if off < s.extent i then .line (hbmBase i + off) else .fail drAddress
    | none => .fail drAddress
  else if tgt < 32 then
    match s.islandOf t (tgt - 16) with
    | some i => if off < shoalSize then .line (shoalBase i + off) else .fail drAddress
    | none => .fail drAddress
  else if tgt < 36 then
    let (node, base) := win.getD (tgt - 32) (0, 0)
    let o := (base + off) % 2 ^ 48
    if node = s.node then s.ownNode o write else .fabric node o
  else .host ((s.fld (HP_DM_CH_HOSTBASE_HOST_BASE (chPort key) (key % 8)) + off) % 2 ^ 64)

/-- Halt reason of a ferry STATUS. -/
def ferryReason (status : Nat) : Nat :=
  if status = fsOk then 0 else if status = fsPoison then drPoison else if status = fsUnmapped then drAddress else drReset

/-! ### Requests (R306, R311, R313) -/

def islOfLine (a : Nat) : Nat := match place a with | .hbm i _ => i | .shoal i _ => i | _ => 0

/-- A response the channel has still to take up. -/
def State.dmaBack (s : State) (key no reason data : Nat) : State :=
  let c := s.ch key
  if c.reqs.any (fun e => e.1 == no) then s.setCh key { c with back := c.back ++ [⟨no, reason, data⟩] } else s

/-- Records a fault found by the channel (R320): the first stands, but a fault replaces a halt for TENANCY or SOFTWARE. -/
def State.dmaFault (s : State) (key reason tgt off : Nat) : State :=
  let c := s.ch key
  let s := if c.fault.isSome then s else s.setCh key { c with fault := some ⟨reason, tgt, off / 128 * 128 % 2 ^ 40⟩ }
  s.setFld (dmState key) dsDraining

/-- The page of a write lies whole in a destination range of its instruction (R289, R311). -/
def State.dmaPage (s : State) (key : Nat) (r : DReq) : Bool :=
  r.kind == 1 && decide (r.tgt < 16) && (s.ch key).acts.any (fun a => a.no == r.act && match a.op with
    | .move m => m.dst.any (fun d => d.tgt == r.tgt && coversPage d.off d.len r.off)
    | _ => false)

/-- Reads of a port's host channels that are outstanding (R415). -/
def State.chanReads (s : State) (p : Nat) : Nat :=
  (List.range 8).foldl (fun (n : Nat) c => n + ((s.ch (512 + 8 * p + c)).reqs.filter (fun r => r.2.host)).length) 0
/-- Non-posted requests a port may have outstanding. -/
def npMax : Nat := 4096

/-- What came of an attempt to issue a line request: a bound (R313, R415), a place that halts the channel, or a request. -/
inductive DIssue where
  | stall
  | fail (s : State)
  | sent (s : State)

/-- Issues one line request. A window on the own node and an island's line go to the base tile of the line, by the ferry when that is
another tile (R306, R566). -/
def State.dmaIssue (s : State) (key : Nat) (win : List (Nat × Nat)) (r : DReq) (mask data : Nat) : DIssue :=
  let c := s.ch key
  let b := chTile key
  let write := r.kind == 1
  let no := c.reqNo
  let add (s : State) (host : Bool) : State :=
    let c := s.ch key
    s.setCh key { c with reqs := c.reqs.set no { r with host := host, page := s.dmaPage key r }, reqNo := no + 1 }
  if 64 ≤ c.reqs.length then .stall
  else
    match s.dPlace key win r.tgt r.off write with
    | .fail reason => .fail (s.dmaFault key reason r.tgt r.off)
    | .line a =>
      let i := islOfLine a
      if s.ferryBusy b i 1 then .stall
      else
        let p : Pkt := { typ := if write then ptWrReq else ptRdReq, vc := 0, src := b, dst := i, tile := true, addr := a, mask := mask, data := data }
        .sent ((add s false).request b [(p, if write then .dmaWrite key no else .dmaRead key no)])
    | .fabric node off =>
      match s.originate { unit := key / 32, tbl := s.chTen key, node := node, off := off, typ := if write then ftWrReq else ftRdReq,
                          vc := 0, mask := mask, data := data, who := if write then .dmaWrite key no else .dmaRead key no } with
      | .stall => .stall
      | .noRoute s => .sent ((add s false).dmaBack key no drRemote 0)
      | .sent s => .sent (add s false)
    | .host a =>
      if write then .sent (((add s false).dmaBack key no 0 0).emit (.hostWrite (chPort key) a mask data))
      else if npMax ≤ s.chanReads (chPort key) then .stall
      else .sent ((add s true).emit (.hostRead (chPort key) a))

/-! ### Streams (R310 to R312) -/

def DRun.has (r : DRun) (p : Nat) : Bool := decide (r.pos ≤ p) && decide (p < r.pos + r.len)

/-- The next piece of a side from stream byte `p`: target, offset of the byte, bytes to the end of its line or run. -/
def pieceAt (l : List DRun) (p : Nat) : Option (Nat × Nat × Nat) :=
  (l.find? (fun r => r.has p)).map (fun r =>
    let o := r.off + (p - r.pos)
    (r.tgt, o, min (128 - o % 128) (r.pos + r.len - p)))

/-- The bytes [p, p + n) of what was read, when all are there. -/
def takeBytes (buf : List DBytes) : Nat → Nat → Nat → Option Nat
  | 0, _, n => if n = 0 then some 0 else none
  | f + 1, p, n =>
    if n = 0 then some 0
    else
      match buf.find? (fun b => decide (b.pos ≤ p) && decide (p < b.pos + b.len)) with
      | none => none
      | some b =>
        let k := min n (b.pos + b.len - p)
        (takeBytes buf f (p + k) (n - k)).map (fun r => b.val / 2 ^ (8 * (p - b.pos)) % 2 ^ (8 * k) + 2 ^ (8 * k) * r)

/-- A list entry (R309): offset, target, length; or the fault of a nonzero reserved bit. -/
def DMove.entry (m : DMove) (v : Nat) : DMove :=
  let e := m.listOff + 16 * m.taken
  if bits v 46 18 ≠ 0 ∨ bits v 88 40 ≠ 0 then { m with bad := some ⟨drProgram, m.listTgt, e / 128 * 128⟩ }
  else
    let len := bits v 64 24
    let run : DRun := { pos := m.known, len := len, tgt := bits v 40 6, off := bits v 0 40 }
    let m := { m with taken := m.taken + 1, known := m.known + len, final := m.taken + 1 == m.count }
    if len = 0 then m
    else if m.kind = 2 then { m with src := m.src.filter (fun r => decide (m.wr < r.pos + r.len)) ++ [run], dst := m.dst.map (fun r => { r with len := m.known }) }
    else { m with dst := m.dst.filter (fun r => decide (m.wr < r.pos + r.len)) ++ [run], src := m.src.map (fun r => { r with len := m.known }) }

/-- Takes the entries whose list line has come. -/
def DMove.entries : Nat → DMove → DMove
  | 0, m => m
  | f + 1, m =>
    if m.final || m.bad.isSome then m
    else
      let e := m.listOff + 16 * m.taken
      match m.lines.find? (fun x => x.1 == e / 128) with
      | none => m
      | some (_, v) => DMove.entries f (DMove.entry { m with lines := m.lines.filter (fun x => decide (e / 128 ≤ x.1)) } (v / 2 ^ (8 * (e % 128)) % 2 ^ 128))

/-- Completed prefix of a stream (R318). -/
def DMove.done (m : DMove) (c : DCh) (no : Nat) : Nat :=
  c.reqs.foldl (fun d e => if e.2.act = no ∧ e.2.kind = 1 then min d e.2.pos else d) (match m.refused with | some p => min p m.wr | none => m.wr)

def DMove.complete (m : DMove) (c : DCh) (no : Nat) : Bool :=
  m.final && decide (m.known ≤ m.wr) && m.refused.isNone && !c.reqs.any (fun e => e.2.act == no)

/-- All reads of a stream have been issued. -/
def DMove.allRead (m : DMove) : Bool := m.final && decide (m.known ≤ m.rd)

def mapAct (c : DCh) (no : Nat) (f : DOp → DOp) : DCh :=
  { c with acts := c.acts.map (fun a => if a.no = no then { a with op := f a.op } else a) }
def setMove (c : DCh) (no : Nat) (m : DMove) : DCh := mapAct c no (fun _ => .move m)

/-! ### Progress (R314, R318) -/

/-- The registers that show a channel's place. -/
def State.dmaSync (s : State) (key : Nat) : State :=
  let c := s.ch key
  let it (k : Nat) : Nat := ((c.at_[k]?).map (·.iter)).getD 0
  let (instr, done) := match c.acts with
    | [] => (c.fetch, if s.fld (dmInstr key) = c.fetch then s.fld (dmDone key) else 0)
    | a :: _ => (a.idx, match a.op with
      | .move m => m.done c a.no
      | .wait 2 _ _ _ seen _ => seen
      | _ => 0)
  let s := ((s.setFld (dmInstr key) instr).setFld (dmDone key) done).setFld (dmOutstanding key) c.reqs.length
  let s := (s.setFld (chFld BT_DM_CH_LOOP01_ITER0 HP_DM_CH_LOOP01_ITER0 key) (it 0)).setFld (chFld BT_DM_CH_LOOP01_ITER1 HP_DM_CH_LOOP01_ITER1 key) (it 1)
  let s := (s.setFld (chFld BT_DM_CH_LOOP23_ITER2 HP_DM_CH_LOOP23_ITER2 key) (it 2)).setFld (chFld BT_DM_CH_LOOP23_ITER3 HP_DM_CH_LOOP23_ITER3 key) (it 3)
  s.setFld (chFld BT_DM_CH_LOOP01_DEPTH HP_DM_CH_LOOP01_DEPTH key) c.at_.length

/-- The innermost loop goes round again (R314). -/
def again (l : List DLoop) : List DLoop :=
  match l.getLast? with
  | some f => l.dropLast ++ [{ f with iter := (f.iter + 1) % 2 ^ 24 }]
  | none => l

/-- The head instruction completes: INSTR advances, DONE is 0 (R318); STOP ends the program (R317). -/
def State.dmaRetire (s : State) (key : Nat) : Option State :=
  let c := s.ch key
  match c.acts with
  | [] => none
  | a :: r =>
    let pop (l : List DLoop) : Option State :=
      let s := s.setCh key { c with acts := r, at_ := l }
      some ((s.setFld (dmInstr key) (match r with | b :: _ => b.idx | [] => a.next)).setFld (dmDone key) 0)
    match a.op with
    | .move m => if m.complete c a.no then pop c.at_ else none
    | .loop f => pop (c.at_ ++ [f])
    | .endloop true => pop (again c.at_)
    | .endloop false => pop c.at_.dropLast
    | .wait _ _ _ _ _ _ => none
    | .signal _ _ _ _ done => if done then pop c.at_ else none
    | .fence => pop c.at_
    | .stop => (pop c.at_).map (fun s => s.setFld (dmState key) dsDone)

/-- Channel kinds in the source index (R538). -/
def dmSrc (key : Nat) : Nat × Nat := if hostCh key then (16, srcIx 6 (key - 512)) else (key / 32, srcIx 4 (key % 32))

/-- A step of a channel: it stalls at a bound (R313), or goes on, with a line request issued or without one. -/
inductive DStep where
  | stall
  | on (s : State) (issued : Bool)

/-- A SIGNAL at the head is sent (R316). -/
def State.dmaSignal (s : State) (key : Nat) : Option DStep :=
  let c := s.ch key
  match c.acts with
  | { no := no, op := .signal kind addr val false done, .. } :: _ =>
    let s := s.setCh key (mapAct c no (fun _ => .signal kind addr val true done))
    let b := chTile key
    if kind = 2 then some (.on (s.raise 0x700E (dmSrc key).1 (dmSrc key).2 (val % 65536)) false)
    else if s.ferryBusy b ((addr - flagBase 0) / 0x100000) 1 then some .stall
    else
      some (.on (s.request b [({ typ := if kind = 0 then ptFlagSet else ptFlagAdd, vc := 2, src := b, dst := (addr - flagBase 0) / 0x100000,
                                  tile := true, addr := addr, data := val }, .dmaSignal key)]) false)
  | _ => none

/-- The stream ends where its list ends, or before an entry that may not be carried out. -/
def DMove.ended (m : DMove) : Bool := m.final || m.bad.isSome

/-- A GATHER knows too little of its length to say whether its destination covers the page of offset `o` (R311). -/
def DMove.pageOpen (m : DMove) (tgt o : Nat) : Bool :=
  m.kind == 2 && decide (tgt < 16) && !m.ended && m.dst.any (fun d => decide (d.off ≤ o / 4096 * 4096) && decide (d.off + m.known < o / 4096 * 4096 + 4096))

/-- The first stream with bytes still to write, when its next piece has been read: the request, mask and data. -/
def DCh.nextWrite (c : DCh) : List DAct → Option (Nat × DMove × DReq × Nat × Nat)
  | [] => none
  | a :: r =>
    match a.op with
    | .move m =>
      if m.refused.isSome then none
      else if m.final && decide (m.known ≤ m.wr) then c.nextWrite r
      else
        match pieceAt m.dst m.wr with
        | none => none
        | some (tgt, o, k) =>
          if !(m.ended || m.kind == 3 || (o + k) % 128 == 0) || m.pageOpen tgt o then none
          else
            match takeBytes m.buf 130 m.wr k with
            | none => none
            | some v =>
              let m1 := { m with wr := m.wr + k, buf := m.buf.filter (fun b => decide (m.wr + k < b.pos + b.len)) }
              some (a.no, m1, { act := a.no, kind := 1, pos := m.wr, len := k, tgt := tgt, off := o / 128 * 128, skip := o % 128 },
                (2 ^ k - 1) * 2 ^ (o % 128), v * 2 ^ (8 * (o % 128)))
    | _ => c.nextWrite r

/-- The first stream with bytes still to read, or list lines to fetch. -/
def DCh.nextRead (c : DCh) : List DAct → Option (Nat × DMove × DReq)
  | [] => none
  | a :: r =>
    match a.op with
    | .move m =>
      if m.allRead then c.nextRead r
      else
        let first := m.listOff / 128
        let lastLine := (m.listOff + 16 * m.count - 1) / 128
        let cur := (m.listOff + 16 * m.taken) / 128
        if !m.final && m.bad.isNone && decide (first + m.asked ≤ lastLine) && decide (first + m.asked < cur + 2) then
          some (a.no, { m with asked := m.asked + 1 }, { act := a.no, kind := 2, pos := 0, len := 128, tgt := m.listTgt, off := (first + m.asked) * 128 })
        else if m.known ≤ m.rd then none
        else
          match pieceAt m.src m.rd with
          | none => none
          | some (tgt, o, k) =>
            if !(m.ended || m.kind == 2 || (o + k) % 128 == 0) then none
            else some (a.no, { m with rd := m.rd + k }, { act := a.no, kind := 0, pos := m.rd, len := k, tgt := tgt, off := o / 128 * 128, skip := o % 128 })
    | _ => c.nextRead r

/-- A list entry that may not be carried out, once the bytes before it have all been asked for (R309). -/
def DCh.badEntry (c : DCh) : Option DFault :=
  c.acts.findSome? (fun a => match a.op with
    | .move m => if decide (m.known ≤ m.rd) then m.bad else none
    | _ => none)

/-- A refused write: nothing at or after it is written (R320). -/
def DMove.refuse (m : DMove) (pos : Nat) : DMove := { m with refused := some (min pos (m.refused.getD pos)) }

/-- What a channel can do at once: a completion, a signal, a line written, a line read (R312, R320). -/
def State.dmaStep (s : State) (key : Nat) : Option DStep :=
  let c := s.ch key
  match s.dmaRetire key with
  | some s => some (.on s false)
  | none =>
    if c.stop ≠ 0 then none
    else
      match (if c.fault.isSome then none else s.dmaSignal key) with
      | some r => some r
      | none =>
        match c.nextWrite c.acts with
        | some (no, m, r, mask, data) =>
          (match s.dmaIssue key m.win r mask data with
           | .stall => some .stall
           | .fail s1 => some (.on (s1.setCh key (mapAct (s1.ch key) no (fun o => match o with | .move m => .move (m.refuse r.pos) | o => o))) false)
           | .sent s1 => some (.on (s1.setCh key (setMove (s1.ch key) no m)) true))
        | none =>
          if c.fault.isSome ∨ c.quiet then none
          else
            match c.nextRead c.acts with
            | some (no, m, r) =>
              (match s.dmaIssue key m.win r 0 0 with
               | .stall => some .stall
               | .fail s1 => some (.on s1 false)
               | .sent s1 => some (.on (s1.setCh key (setMove (s1.ch key) no m)) true))
            | none => c.badEntry.map (fun f => .on (s.dmaFault key f.reason f.tgt f.off) false)

def State.setStalled (s : State) (key : Nat) (b : Bool) : State :=
  if (s.ch key).stalled = b then s else s.setCh key { s.ch key with stalled := b }

/-- A channel's turn: it goes on until it has issued one line, can do nothing, or stalls. Whether it issued one. -/
def State.dmaTurn (key : Nat) : Nat → State → Bool × State
  | 0, s => (false, s)
  | n + 1, s =>
    match s.dmaStep key with
    | none => (false, s.setStalled key false)
    | some .stall => (false, s.setStalled key true)
    | some (.on s true) => (true, s.setStalled key false)
    | some (.on s false) => s.dmaTurn key n

/-- Channels that take turns at line issue: those of the base tile, ascending (R306); a host channel by itself. -/
def State.dmaPeers (s : State) (key : Nat) : List Nat :=
  if hostCh key then [key] else (s.dch.filter (fun e => e.1 / 32 == key / 32 && (e.1 == key || !e.2.acts.isEmpty))).map (·.1)

/-- Rounds of turns, until one in which no line is issued. -/
def State.dmaRounds (keys : List Nat) : Nat → State → State
  | 0, s => s
  | n + 1, s =>
    let r := keys.foldl (fun (r : Bool × State) k => let (b, z) := r.2.dmaTurn k 64; (r.1 || b, z)) (false, s)
    if r.1 then State.dmaRounds keys n r.2 else r.2

/-- The channel, and those that take turns with it, go on as far as they can. -/
def State.dmaGo (s : State) (key : Nat) : State :=
  let s := s.setCh key (s.ch key)
  (s.dmaPeers key).foldl State.dmaSync (State.dmaRounds (s.dmaPeers key) 1024 s)

/-- Cycles of the module clock in a module slot (R439). -/
def slotCycles : Nat := 200

/-- A channel stalled throughout a module slot counts its cycles, and tries again (R313). -/
def State.dmaStallTick (s : State) : State :=
  s.dch.foldl (fun s e => if e.2.stalled then (s.bump (dmStalls e.1) slotCycles).dmaGo e.1 else s) s

/-! ### Instructions (R308) -/

/-- An instruction that holds the channel until it completes, or reads still to be asked for. -/
def DAct.holds (a : DAct) : Bool :=
  match a.op with
  | .move m => !m.allRead
  | .wait _ _ _ _ _ _ => true
  | .fence => true
  | .stop => true
  | _ => false

/-- The channel may fetch: running (a base-tile channel, with its tenancy), nothing found wrong, nothing holding it, and room for one request more
(R313). -/
def State.dmaReady (s : State) (key : Nat) : Bool :=
  let c := s.ch key
  s.fld (dmState key) == dsRunning && (hostCh key || s.fld (TN_STATE_STATE (s.chTen key)) == 3) && c.fault.isNone && c.stop == 0 && !c.quiet && !c.held && !c.acts.any DAct.holds &&
    decide (c.reqs.length < 64)

/-- The line of the program that holds the next instruction: 0 readable, else the halt reason (R319). `ok`: a read of host
memory completed. -/
def State.dmaFetch (s : State) (key : Nat) (ok : Bool) : Nat × State :=
  let c := s.ch key
  if hostCh key then
    let tgt := s.fld (HP_DM_CH_PROG_TGT (chPort key) (key % 8))
    let off := s.fld (HP_DM_CH_PROG_OFFSET (chPort key) (key % 8)) + 16 * c.fetch
    if tgt = 36 then
      (if ok then 0 else drHost, s.emit (.hostRead (chPort key) ((s.fld (HP_DM_CH_HOSTBASE_HOST_BASE (chPort key) (key % 8)) + off) % 2 ^ 64 / 128 * 128)))
    else if 16 ≤ tgt then (drProgram, s)
    else
      match s.dPlace key [] tgt off false with
      | .line a =>
        if s.refuses (islOfLine a) a ≠ fsOk then (drAddress, s.noteRetired (islOfLine a) (a - hbmBase (islOfLine a)) reqDma)
        else
          let (_, bad, s) := s.physLine (a / 128 * 128) reqDma
          (if bad.isEmpty then 0 else drPoison, s)
      | .fail r => (r, s)
      | _ => (drProgram, s)
  else
    let a := (s.dmaProg key + 16 * c.fetch) / 128 * 128
    let i := key / 32
    if s.retired i (a - hbmBase i) then (drAddress, s.noteRetired i (a - hbmBase i) reqDma)
    else
      let (_, bad, s) := s.physLine a reqDma
      (if bad.isEmpty then 0 else drPoison, s)

/-- Target and offset of the program line that holds the next instruction (R319, R324): a base-tile channel's program stands above its own
island's mapped extent. -/
def State.dmaProgLine (s : State) (key : Nat) : Nat × Nat :=
  if hostCh key then (s.fld (HP_DM_CH_PROG_TGT (chPort key) (key % 8)), s.fld (HP_DM_CH_PROG_OFFSET (chPort key) (key % 8)) + 16 * (s.ch key).fetch)
  else (s.logicalOf (s.chTen key) (key / 32), s.dmaProg key + 16 * (s.ch key).fetch - hbmBase (key / 32))

/-- Begins instruction word `w` whose opcode is `opc`. A word with another defined opcode is no word of this command. The
body answers the operation and the following index, or a halt reason. -/
def dmaBegin (key opc : Nat) (w : BitVec 128) (ok : Bool) (body : State → Nat → (Nat × List DLoop × DOp) ⊕ Nat) (s : State) : Out :=
  let op := w.toNat % 16
  if !s.dmaReady key || (decide (1 ≤ op) && decide (op ≤ 9) && op != opc) then .next s
  else
    let c := s.ch key
    if s.chLength key ≤ c.fetch then .next ((s.dmaFault key drProgram 0 0).dmaGo key)
    else
      let (tgt, off) := s.dmaProgLine key
      let (r, s) := s.dmaFetch key ok
      if r ≠ 0 then .next ((s.dmaFault key r tgt off).dmaGo key)
      else if op = 0 ∨ 9 < op then .next ((s.dmaFault key drProgram 0 0).dmaGo key)
      else
        match body s w.toNat with
        | .inr r => .next ((s.dmaFault key r 0 0).dmaGo key)
        | .inl (next, loops, o) =>
          let c := s.ch key
          let s := s.setCh key { c with acts := c.acts ++ [⟨c.actNo, c.fetch, next, o⟩], actNo := c.actNo + 1, fetch := next, loops := loops }
          let s := match o with
            | .wait _ _ _ _ _ _ => s.setFld (dmState key) dsWaiting
            | _ => s
          .next (s.dmaGo key)

/-- Sum of the strides of the open loops (R314). -/
def strideSum (l : List DLoop) (f : DLoop → Nat) : Nat := l.foldl (fun n x => n + x.iter * f x) 0
def strided (l : List DLoop) (off : Nat) (f : DLoop → Nat) : Nat := (off + strideSum l f) % 2 ^ 40

/-- Windows as an instruction captures them (R324). -/
def State.dmaWins (s : State) (key : Nat) : List (Nat × Nat) :=
  if hostCh key then [] else (List.range 4).map (fun n => (s.fld (BT_DM_WIN_NODE (key / 32) n), s.fld (BT_DM_WIN_BASE (key / 32) n)))

/-- Stream bytes already done when the head instruction is resumed (R318, R321). -/
def State.dmaFrom (s : State) (key : Nat) : Nat := if (s.ch key).acts.isEmpty then s.fld (dmDone key) else 0

/-- DMA_MOVE (R310). -/
def execDmaMove (ch : Fin 544) (w : BitVec 128) (ok : Bool) (s : State) : Out :=
  dmaBegin ch 1 w ok (fun s v =>
    let c := s.ch ch
    let len := bits v 96 24
    if bits v 120 8 ≠ 0 ∨ len = 0 ∨ !tgtOk ch (bits v 4 6) ∨ !tgtOk ch (bits v 10 6) then .inr drProgram
    else
      let d := s.dmaFrom ch
      let src : DRun := ⟨0, len, bits v 4 6, strided c.loops (bits v 16 40) (·.sstride)⟩
      let dst : DRun := ⟨0, len, bits v 10 6, strided c.loops (bits v 56 40) (·.dstride)⟩
      .inl (c.fetch + 1, c.loops, .move { kind := 1, src := [src], dst := [dst], known := len, final := true, rd := d, wr := d, win := s.dmaWins ch })) s

/-- A list stands in the HBM or shoal of an island, or in host memory, at a multiple of 16 (R309). -/
def listOk (key tgt off count : Nat) : Bool :=
  (decide (tgt < 32) || (tgt == 36 && hostCh key)) && off % 16 == 0 && count != 0

/-- DMA_GATHER (R309, R310). -/
def execDmaGather (ch : Fin 544) (w : BitVec 128) (ok : Bool) (s : State) : Out :=
  dmaBegin ch 2 w ok (fun s v =>
    let c := s.ch ch
    let lo := strided c.loops (bits v 16 40) (·.sstride)
    if bits v 112 16 ≠ 0 ∨ !listOk ch (bits v 4 6) lo (bits v 96 16) ∨ !tgtOk ch (bits v 10 6) then .inr drProgram
    else
      let d := s.dmaFrom ch
      let dst : DRun := ⟨0, 0, bits v 10 6, strided c.loops (bits v 56 40) (·.dstride)⟩
      .inl (c.fetch + 1, c.loops, .move { kind := 2, src := [], dst := [dst], known := 0, final := false, rd := d, wr := d, win := s.dmaWins ch,
                                          listTgt := bits v 4 6, listOff := lo, count := bits v 96 16 })) s

/-- DMA_SCATTER (R309, R310). -/
def execDmaScatter (ch : Fin 544) (w : BitVec 128) (ok : Bool) (s : State) : Out :=
  dmaBegin ch 3 w ok (fun s v =>
    let c := s.ch ch
    let lo := strided c.loops (bits v 16 40) (·.dstride)
    if bits v 112 16 ≠ 0 ∨ !listOk ch (bits v 4 6) lo (bits v 96 16) ∨ !tgtOk ch (bits v 10 6) then .inr drProgram
    else
      let d := s.dmaFrom ch
      let src : DRun := ⟨0, 0, bits v 10 6, strided c.loops (bits v 56 40) (·.sstride)⟩
      .inl (c.fetch + 1, c.loops, .move { kind := 3, src := [src], dst := [], known := 0, final := false, rd := d, wr := d, win := s.dmaWins ch,
                                          listTgt := bits v 4 6, listOff := lo, count := bits v 96 16 })) s

/-- DMA_LOOP (R314). -/
def execDmaLoop (ch : Fin 544) (w : BitVec 128) (ok : Bool) (s : State) : Out :=
  dmaBegin ch 4 w ok (fun s v =>
    let c := s.ch ch
    if bits v 108 20 ≠ 0 ∨ 4 ≤ c.loops.length then .inr drProgram
    else
      let f : DLoop := { start := c.fetch + 1, count := bits v 4 24, iter := 0, sstride := bits v 28 40, dstride := bits v 68 40 }
      .inl (c.fetch + 1, c.loops ++ [f], .loop f)) s

/-- DMA_ENDLOOP (R314): a COUNT of 0 never ends. -/
def execDmaEndloop (ch : Fin 544) (w : BitVec 128) (ok : Bool) (s : State) : Out :=
  dmaBegin ch 5 w ok (fun s v =>
    let c := s.ch ch
    match c.loops.getLast? with
    | none => .inr drProgram
    | some f =>
      if bits v 4 124 ≠ 0 then .inr drProgram
      else if f.count = 0 ∨ f.iter + 1 < f.count then .inl (f.start, again c.loops, .endloop true)
      else .inl (c.fetch + 1, c.loops.dropLast, .endloop false)) s

/-- Address of flag word `word` of logical island `lisl` (R315, R316). -/
def State.dmaFlag (s : State) (key lisl word : Nat) : Option Nat := (s.islandOf (s.chTen key) lisl).map (fun i => flagBase i + 8 * word)

/-- DMA_WAIT (R315). -/
def execDmaWait (ch : Fin 544) (w : BitVec 128) (ok : Bool) (s : State) : Out :=
  dmaBegin ch 6 w ok (fun s v =>
    let c := s.ch ch
    let kind := bits v 4 2
    let rel := bits v 6 2
    let val := bits v 64 64
    let go (a : Nat) (seen : Nat) (ok : Bool) : (Nat × List DLoop × DOp) ⊕ Nat := .inl (c.fetch + 1, c.loops, .wait kind rel a val seen ok)
    if bits v 29 35 ≠ 0 ∨ rel = 3 ∨ kind = 3 then .inr drProgram
    else if kind = 0 then
      match s.dmaFlag ch (bits v 8 4) (bits v 12 17) with
      | none => .inr drProgram
      | some a =>
        if !hostCh ch && (a - flagBase 0) / 0x100000 != ch.val / 32 then .inr drProgram
        else go a 0 (flagHolds rel (s.peek a 8) val)
    else if kind = 1 then (if val < s.fld (TN_FRAME_CFG_FRAME_SLOTS (s.chTen ch)) then go 0 0 false else .inr drProgram)
    else if 1 ≤ val ∧ val ≤ 65535 then
      let d := s.dmaFrom ch
      go 0 d (decide (val ≤ d))
    else .inr drProgram) s

/-- DMA_WAIT_SATISFIED (R315): the condition has held, and the channel proceeds. -/
def execDmaWaitSatisfied (ch : Fin 544) (s : State) : Out :=
  let c := s.ch ch
  match c.acts.find? (fun a => match a.op with | .wait _ _ _ _ _ true => true | _ => false) with
  | none => .next s
  | some a =>
    if s.fld (dmState ch) ≠ dsWaiting ∨ c.stop ≠ 0 ∨ c.quiet then .next s
    else .next (((s.setCh ch (mapAct c a.no (fun _ => .fence))).setFld (dmState ch) dsRunning).dmaGo ch)

/-- DMA_SIGNAL (R316). -/
def execDmaSignal (ch : Fin 544) (w : BitVec 128) (ok : Bool) (s : State) : Out :=
  dmaBegin ch 7 w ok (fun s v =>
    let c := s.ch ch
    let kind := bits v 4 2
    if bits v 6 2 ≠ 0 ∨ bits v 29 35 ≠ 0 ∨ kind = 3 ∨ (kind = 2 ∧ bits v 80 48 ≠ 0) then .inr drProgram
    else if kind = 2 then .inl (c.fetch + 1, c.loops, .signal 2 0 (bits v 64 64) false false)
    else
      match s.dmaFlag ch (bits v 8 4) (bits v 12 17) with
      | none => .inr drProgram
      | some a => .inl (c.fetch + 1, c.loops, .signal kind a (bits v 64 64) false false)) s

/-- DMA_FENCE (R317): complete when everything before it is. -/
def execDmaFence (ch : Fin 544) (w : BitVec 128) (ok : Bool) (s : State) : Out :=
  dmaBegin ch 8 w ok (fun s v =>
    let c := s.ch ch
    if bits v 4 124 ≠ 0 then .inr drProgram else .inl (c.fetch + 1, c.loops, .fence)) s

/-- DMA_STOP (R314, R317). -/
def execDmaStop (ch : Fin 544) (w : BitVec 128) (ok : Bool) (s : State) : Out :=
  dmaBegin ch 9 w ok (fun s v =>
    let c := s.ch ch
    if bits v 4 124 ≠ 0 ∨ !c.loops.isEmpty then .inr drProgram else .inl (c.fetch + 1, c.loops, .stop)) s

/-! ### Responses (R312, R318, R320) -/

/-- DMA_LINE_RETURN (R312): the oldest response to a read is taken up, or host memory answers one (R306). -/
def execDmaLineReturn (ch : Fin 544) (host : Option HostCpl) (s : State) : Out :=
  let c := s.ch ch
  let got : Option DBack := match host with
    | some h => if c.reqs.any (fun e => e.1 == h.no && e.2.host) then some ⟨h.no, if h.ok then 0 else drHost, h.data.toNat⟩ else none
    | none => c.back.find? (fun b => c.reqs.any (fun e => e.1 == b.no && e.2.kind != 1))
  match got with
  | none => .next s
  | some b =>
    let r := c.reqs.get { act := 0, kind := 0, pos := 0, len := 0, tgt := 0, off := 0 } b.no
    let c := { c with reqs := c.reqs.erase b.no, back := c.back.filter (fun x => x.no != b.no) }
    let s := s.setCh ch c
    if b.reason ≠ 0 then .next ((s.dmaFault ch b.reason r.tgt r.off).dmaGo ch)
    else
      let c := mapAct c r.act (fun o => match o with
        | .move m =>
          if r.kind = 2 then .move (DMove.entries 32 { m with lines := m.lines.set (r.off / 128) b.data })
          else .move { m with buf := m.buf ++ [⟨r.pos, r.len, b.data / 2 ^ (8 * r.skip) % 2 ^ (8 * r.len)⟩] }
        | o => o)
      .next ((s.setCh ch c).dmaGo ch)

/-- DMA_WRITE_ACK (R318): the oldest acknowledgement of a write is taken up. -/
def execDmaWriteAck (ch : Fin 544) (s : State) : Out :=
  let c := s.ch ch
  match c.back.find? (fun b => c.reqs.any (fun e => e.1 == b.no && e.2.kind == 1)) with
  | none => .next s
  | some b =>
    let r := c.reqs.get { act := 0, kind := 0, pos := 0, len := 0, tgt := 0, off := 0 } b.no
    let c := { c with reqs := c.reqs.erase b.no, back := c.back.filter (fun x => x.no != b.no) }
    if b.reason = 0 then .next ((s.setCh ch c).dmaGo ch)
    else
      let c := mapAct c r.act (fun o => match o with
        | .move m => .move (m.refuse r.pos)
        | o => o)
      .next (((s.setCh ch c).dmaFault ch b.reason r.tgt r.off).dmaGo ch)

/-- A SIGNAL's flag write is acknowledged, or its event's record written (R316). -/
def State.dmaSignalled (s : State) (key : Nat) : State :=
  let c := s.ch key
  match c.acts with
  | { no := no, op := .signal kind addr val true false, .. } :: _ =>
    (s.setCh key (mapAct c no (fun _ => .signal kind addr val true true))).dmaGo key
  | _ => s

/-! ### Halt, start, resume (R304, R319 to R322, R325) -/

/-- Raises EV_DMA_HALT (R319). -/
def State.dmaEvent (s : State) (key reason : Nat) : State :=
  (s.bump (dmHalts key) 1).raise 0x3007 (dmSrc key).1 (dmSrc key).2
    (reason + s.fld (dmInstr key) * 256 + s.fld (dmFaultOff key) * 2 ^ 24)

/-- DMA_HALT (R320): nothing is outstanding; progress and FAULT are recorded. -/
def execDmaHalt (ch : Fin 544) (s : State) : Out :=
  let c := s.ch ch
  if s.fld (dmState ch) ≠ dsDraining ∨ !c.reqs.isEmpty ∨ !c.back.isEmpty then .next s
  else
    let s := s.dmaSync ch
    let reason := match c.fault with | some f => f.reason | none => c.stop
    let (tgt, off) := match c.fault with | some f => (f.tgt, f.off) | none => (0, 0)
    let s := (s.setFld (dmFaultOff ch) off).setFld (dmFaultTgt ch) tgt
    let s := (s.setFld (dmReason ch) reason).setFld (dmState ch) dsHalted
    let s := s.setCh ch { c with acts := [], fetch := s.fld (dmInstr ch), loops := c.at_, fault := none, stop := 0 }
    .next (if reason ≤ 6 then s.dmaEvent ch reason else s)

/-- A channel that runs or waits is halted for TENANCY or SOFTWARE (R319, R320). -/
def State.dmaStopFor (s : State) (key reason : Nat) : State :=
  if s.fld (dmState key) = dsRunning ∨ s.fld (dmState key) = dsWaiting then
    (s.setCh key { s.ch key with stop := reason }).setFld (dmState key) dsDraining
  else s

/-- Base-tile channels of a tenancy halt with it (R319). -/
def State.dmaTenancyHalt (s : State) (t : Nat) : State :=
  (s.tnIslands t).foldl (fun s i => (List.range 32).foldl (fun s c => s.dmaStopFor (i * 32 + c) drTenancy) s) s

/-- Host channels of a tenancy halt before RESTORE, RESHAPE or RELEASE acts (R305). -/
def State.dmaHostHalt (s : State) (t : Nat) : State :=
  (List.range 32).foldl (fun s n => if s.fld (HP_DM_CH_PROG_TENANCY (n / 8) (n % 8)) = t then s.dmaStopFor (512 + n) drTenancy else s) s

/-- At the first frame tick after START: idle channels with a program begin at instruction 0; those halted with their
tenancy, or restored, go on from their progress (R304). -/
def State.dmaFrameStart (s : State) (t : Nat) : State :=
  (s.tnIslands t).foldl (fun s i => (List.range 32).foldl (fun (s : State) c =>
    let key := i * 32 + c
    let st := s.fld (dmState key)
    let s := if (s.ch key).held then s.setCh key { s.ch key with held := false } else s
    if !s.dmaLen.any (fun e => e.1 == key) then s
    else if st = dsIdle then s.setFld (dmState key) dsRunning
    else if st = dsHalted ∧ s.fld (dmReason key) = drTenancy then s.setFld (dmState key) dsRunning
    else s) s) s

/-- Committed frames count in WAIT FRAME, and the plan slot in WAIT SLOT (R315). -/
def State.dmaTick (s : State) (t : Nat) (f : DOp → DOp) : State :=
  { s with dch := s.dch.map (fun e => if s.chTen e.1 = t then (e.1, { e.2 with acts := e.2.acts.map (fun a => { a with op := f a.op }) }) else e) }
def waitFrame : DOp → DOp
  | .wait 2 rel a val seen ok => .wait 2 rel a val (seen + 1) (ok || decide (val ≤ seen + 1))
  | o => o
def waitSlot (n : Nat) : DOp → DOp
  | .wait 1 rel a val seen ok => .wait 1 rel a val seen (ok || n == val)
  | o => o
def State.dmaFrame (s : State) (t : Nat) : State :=
  let s := s.dmaTick t waitFrame
  s.dch.foldl (fun s e => if s.chTen e.1 = t then s.dmaSync e.1 else s) s

/-- Key of host channel c of port p. -/
def hostKey (p : Fin 4) (c : Fin 8) : Nat := 512 + 8 * p.val + c.val

/-- DMA_CTL_START (R325): from idle, done or halted. -/
def execDmaCtlStart (p : Fin 4) (c : Fin 8) (s : State) : Out :=
  let key := hostKey p c
  let st := s.fld (dmState key)
  let t := s.fld (HP_DM_CH_PROG_TENANCY p c)
  let n := s.fld (HP_DM_CH_PROGLEN_COUNT p c)
  if st ≠ dsIdle ∧ st ≠ dsDone ∧ st ≠ dsHalted then .next s
  else
    let refuse (reason : Nat) : Out := .next (((s.setFld (dmState key) dsIdle).setFld (dmReason key) reason).dmaEvent key reason)
    if s.fld (TN_STATE_STATE t) = tnFree ∨ s.fld (TN_STATE_PORT t) ≠ p.val then refuse drAddress
    else if n = 0 ∨ 65536 < n then refuse drProgram
    else
      let x := s.ch key
      let s := s.setCh key { reqNo := x.reqNo, actNo := x.actNo }
      let s := (s.setFld (dmInstr key) 0).setFld (dmDone key) 0
      .next ((s.setFld (dmState key) dsRunning).dmaSync key)

/-- DMA_CTL_RESUME (R322, R325): a halted channel goes on from its progress. -/
def execDmaCtlResume (p : Fin 4) (c : Fin 8) (s : State) : Out :=
  let key := hostKey p c
  if s.fld (dmState key) = dsHalted then .next (s.setFld (dmState key) dsRunning) else .next s

/-- DMA_CTL_ABORT (R325): a running or waiting channel halts with SOFTWARE. -/
def execDmaCtlAbort (p : Fin 4) (c : Fin 8) (s : State) : Out := .next (s.dmaStopFor (hostKey p c) drSoftware)

end Sys2Proof.Machine
end

