-- ==== Sys2Proof/Machine/Kv.lean ====
section
/-!
DEFINITION. The key-value page walker (R379 to R386, R390): descriptors taken from the ring, page-table entries, lines
gathered into the shoal in order, faults.
-/
namespace Sys2Proof.Machine

open Sys2Proof

def State.kv (s : State) (i : Nat) : Kv := s.kvs.get {} i
def State.setKv (s : State) (i : Nat) (k : Kv) : State := { s with kvs := s.kvs.set i k }

/-- Slots of the ring: 2^RING_LOG2, clamped to 4 to 12 (R390). -/
def State.kvRing (s : State) (i : Nat) : Nat := 2 ^ min (max (s.fld (BT_DM_KV_CFG_RING_LOG2 i)) 4) 12
def State.kvProd (s : State) (i : Nat) : Nat := s.peek (flagBase i + 8 * s.fld (BT_DM_KV_CFG_PROD_WORD i)) 8
def State.kvCountDone (s : State) (i : Nat) : State := s.addFlag (flagBase i + 8 * s.fld (BT_DM_KV_DONE_DONE_WORD i)) 1

def State.setConsumed (s : State) (i n : Nat) : State :=
  (s.setKv i { s.kv i with consumed := n % 2 ^ 64 }).setFld (BT_DM_KV_STAT_CONSUMED i) n

/-- A held write takes force: CONSUMED becomes the producer word's value (R379, R380). -/
def State.kvForce (s : State) (i : Nat) : State :=
  let k := s.kv i
  if k.cfg.isNone && k.done.isNone then s
  else
    let s := match k.cfg with
      | some v => (((s.setFld (BT_DM_KV_CFG_RING i) (bits v 0 31 / 128 * 128)).setFld (BT_DM_KV_CFG_ENABLE i) (bits v 31 1)).setFld
          (BT_DM_KV_CFG_RING_LOG2 i) (bits v 32 4)).setFld (BT_DM_KV_CFG_PROD_WORD i) (bits v 36 17)
      | none => s
    let s := match k.done with
      | some v => s.setFld (BT_DM_KV_DONE_DONE_WORD i) (bits v 0 17)
      | none => s
    let s := s.setKv i { s.kv i with cfg := none, done := none }
    s.setConsumed i (s.kvProd i)

/-- A write of BT_DM_KV_CFG, or of BT_DM_KV_DONE (R379): held for the next frame tick while the tenancy runs. -/
def State.kvWrite (s : State) (i : Nat) (done : Bool) (v : Nat) : State :=
  let k := s.kv i
  let s := s.setKv i (if done then { k with done := some v } else { k with cfg := some v })
  let runs : Bool := match s.tenOf i with
    | some t => s.fld (TN_STATE_STATE t) == 3
    | none => false
  if runs then s else s.kvForce i
/-- KV_CFG_WRITE (R379). -/
def execKvCfgWrite (i : Fin 16) (done : Bool) (v : BitVec 64) (s : State) : Out := .next (s.kvWrite i done v.toNat)

/-! ### Faults (R385) -/

def kfEntry : Nat := 1
def kfPosition : Nat := 2
def kfFormat : Nat := 3
def kfPoison : Nat := 4
def kfAddress : Nat := 5
def kfOverrun : Nat := 6

/-- A walker fault: recorded, the descriptor counted, EV_KV_FAULT raised. -/
def State.kvFault (s : State) (i code pos slot : Nat) : State :=
  let s := ((s.setFld (BT_DM_KV_STAT_FAULTED i) 1).setFld (BT_DM_KV_STAT_REASON i) code).setFld (BT_DM_KV_FAULT_POSITION i) pos
  let s := (s.setFld (BT_DM_KV_FAULT_SLOT i) slot).setFld (BT_DM_KV_STAT_BUSY i) 0
  let s := s.setKv i { s.kv i with todo := [], flight := [], ends := none }
  (s.kvCountDone i).raise 0x3008 i (srcIx 4 32) (code + pos % 2 ^ 24 * 2 ^ 8 + slot * 2 ^ 32)

/-! ### Carrying out a descriptor (R381 to R383) -/

/-- A walk descriptor (R382). -/
structure KvDesc where
  table : Nat
  first : Nat
  count : Nat
  log2e : Nat
  dest : Nat
  zeros : Bool

def KvDesc.of (v : Nat) : KvDesc :=
  { table := bits v 0 64, first := bits v 64 24, count := bits v 96 16, log2e := bits v 112 8, dest := bits v 128 64,
    zeros := bits v 88 8 == 0 && bits v 120 8 == 0 && bits v 192 64 == 0 }

/-- Faults found before any data moves. -/
def KvDesc.check (d : KvDesc) : Nat :=
  if d.count = 0 ∨ 2 ^ 24 < d.first + d.count then kfPosition
  else if d.log2e < 7 ∨ 16 < d.log2e ∨ !d.zeros ∨ d.table % 4 ≠ 0 ∨ d.dest % 128 ≠ 0 then kfFormat
  else if shoalSize < d.dest + d.count * 2 ^ d.log2e then kfAddress
  else 0

/-- The entry of page e: the page's island and offset, or a fault (R381, R385). -/
def State.kvEntry (s : State) (i t : Nat) (d : KvDesc) (e : Nat) : ((Nat × Nat) ⊕ Nat) × State :=
  let a := (d.table + 4 * e) % 2 ^ 64
  match (if 0x10000000000 ≤ a then s.localPhys i a else none) with
  | none => (.inr kfAddress, s.noteRefused i a reqDma)
  | some p =>
    let (v, bad, s) := s.physRead p 4 reqDma
    if bad then (.inr kfPoison, s)
    else if !bitOf v 31 then (.inr kfEntry, s)
    else
      match s.islandOf t (bits v 23 4) with
      | none => (.inr kfAddress, s)
      | some j =>
        let o := bits v 0 23 * 65536
        if o + 65536 ≤ s.extent j then (.inl (j, o), s) else (.inr kfAddress, s)

/-- The lines of positions p, p + 1, … of a descriptor; reading stops at a fault. `page`: the last entry read. -/
def State.kvLines (s : State) (i t : Nat) (d : KvDesc) : Nat → Nat → Option (Nat × Nat × Nat) → List KvLine × Option (Nat × Nat) × State
  | 0, _, _ => ([], none, s)
  | n + 1, p, page =>
    let e := 2 ^ d.log2e
    let per := 65536 / e
    let idx := p / per
    let r : ((Nat × Nat) ⊕ Nat) × State := match page with
      | some (k, j, o) => if k = idx then (.inl (j, o), s) else s.kvEntry i t d idx
      | none => s.kvEntry i t d idx
    match r with
    | (.inr code, s) => ([], some (code, p), s)
    | (.inl (j, o), s) =>
      let here := (List.range (e / 128)).map (fun k =>
        ({ pos := p, isl := j, off := o + p % per * e + 128 * k, dst := d.dest + (p - d.first) * e + 128 * k } : KvLine))
      let (rest, f, s) := s.kvLines i t d n (p + 1) (some (idx, j, o))
      (here ++ rest, f, s)

/-- What came back for the line `seq` of walker i: reason 0, the data, and 2^1024 × the poisoned words. -/
def State.kvBack (s : State) (i seq reason data : Nat) : State :=
  let k := s.kv i
  s.setKv i { k with flight := k.flight.map (fun f => if f.1 = seq then (f.1, f.2.1, some (reason, data)) else f) }

/-- Asks for the next line: an own page through the cache, another island's over the ferry (R383, R386). None when there is
none, or at a bound. -/
def State.kvAsk (s : State) (i : Nat) : Option State :=
  let k := s.kv i
  match k.todo with
  | [] => none
  | l :: r =>
    let no := k.reqNo
    let ask (s : State) (res : Option (Nat × Nat)) : State := s.setKv i { s.kv i with todo := r, reqNo := no + 1, flight := k.flight ++ [(no, l, res)] }
    let next (s : State) (res : Option (Nat × Nat)) : State := (ask s res).bump (BT_DM_KV_COUNT_LINES i) 1
    if 64 ≤ k.flight.length then none
    else if l.isl = i then
      if s.hbmOk i l.off then
        let (v, bad, s) := s.physLine (hbmBase i + l.off) reqDma
        some (next s (some (0, v + 2 ^ 1024 * poisonBits (hbmBase i + l.off) bad)))
      else some (ask (s.noteRetired i l.off reqDma) (some (1, 0)))
    else if s.ferryBusy i l.isl 1 then none
    else
      some ((next s none).request i [({ typ := ptRdReq, vc := 0, src := i, dst := l.isl, tile := true, addr := hbmBase l.isl + l.off }, .kv i no)])

/-- The oldest line has come: it is written with its poison marking, or the walk ends in a fault (R385). -/
def State.kvLand (s : State) (i : Nat) : Option State :=
  let k := s.kv i
  match k.flight with
  | (_, l, some (reason, v)) :: r =>
    let s := s.setKv i { k with flight := r }
    if reason ≠ 0 then some (s.kvFault i kfAddress l.pos k.slot)
    else some (s.shoalWrite i l.dst (leBytes 128 v) (fun w => bitOf (v / 2 ^ 1024) ((w - l.dst) / 8)))
  | [] =>
    match k.todo, k.ends with
    | [], some (code, pos) => some (s.kvFault i code pos k.slot)
    | _, _ => none
  | _ => none

/-- The walker lands what has come and asks for lines, each in its turn after the tile's channels (R386). -/
def State.kvPump (i : Nat) : Nat → State → State
  | 0, s => s
  | n + 1, s =>
    match s.kvLand i with
    | some s => s.kvPump i n
    | none =>
      match s.kvAsk i with
      | some s => ((s.dmaPeers (i * 32)).foldl (fun s k => (s.dmaTurn k 64).2) s).kvPump i n
      | none => s.setKv i { s.kv i with stalled := !(s.kv i).todo.isEmpty }

def State.kvGo (s : State) (i : Nat) : State := s.kvPump i (2 * ((s.kv i).todo.length + (s.kv i).flight.length) + 2)

/-- A walker stalled throughout a module slot counts its cycles, and tries again (R386). -/
def State.kvStallTick (s : State) : State :=
  s.kvs.foldl (fun s e => if e.2.stalled then (s.bump (BT_DM_KV_COUNT_STALL_CYCLES e.1) slotCycles).kvGo e.1 else s) s

/-- KV_DESCRIPTOR_TAKE (R380, R385): the next descriptor, or RING_OVERRUN; once faulted, each is counted complete without data. -/
def execKvDescriptorTake (i : Fin 16) (s : State) : Out :=
  let k := s.kv i
  match s.tenOf i with
  | none => .next s
  | some t =>
    let diff := (s.kvProd i + 2 ^ 64 - k.consumed) % 2 ^ 64
    let ring := s.kvRing i
    let slot := k.consumed % ring
    let faulted := s.fld (BT_DM_KV_STAT_FAULTED i) == 1
    if s.fld (BT_DM_KV_CFG_ENABLE i) = 0 ∨ s.fld (BT_DM_KV_STAT_BUSY i) = 1 ∨ s.fld (TN_STATE_STATE t) ≠ 3 ∨ diff = 0 ∨
        !k.flight.isEmpty ∨ k.quiet then .next s
    else
      let s := s.setConsumed i (k.consumed + 1)
      if ring < diff ∧ !faulted then .next (s.kvFault i kfOverrun 0 slot)
      else if faulted then .next (s.kvCountDone i)
      else
        let at_ := s.fld (BT_DM_KV_CFG_RING i) + 32 * slot
        if shoalSize < at_ + 32 then .next (s.kvFault i kfAddress 0 slot)
        else
          let (v, bad, s) := s.shoalRead i at_ 32
          let d := KvDesc.of v
          if !bad.isEmpty then .next (s.kvFault i kfPoison 0 slot)
          else if d.check ≠ 0 then .next (s.kvFault i d.check d.first slot)
          else
            let (todo, ends, s) := s.kvLines i t d d.count d.first none
            let s := (s.setKv i { s.kv i with slot := slot, todo := todo, ends := ends }).setFld (BT_DM_KV_STAT_BUSY i) 1
            .next (s.kvGo i)

/-- KV_WALK_COMPLETE (R384): every byte has landed. -/
def execKvWalkComplete (i : Fin 16) (s : State) : Out :=
  let k := s.kv i
  if s.fld (BT_DM_KV_STAT_BUSY i) = 0 ∨ !k.todo.isEmpty ∨ !k.flight.isEmpty ∨ k.ends.isSome then .next s
  else .next ((s.kvCountDone i).setFld (BT_DM_KV_STAT_BUSY i) 0)

/-- A tenancy halt (R386): no new line is asked for, and the descriptor in progress stays uncounted. -/
def State.kvHalt (s : State) (i : Nat) : State :=
  (s.setKv i { s.kv i with todo := [], ends := none }).setFld (BT_DM_KV_STAT_BUSY i) 0

end Sys2Proof.Machine
end

