-- ==== Sys2Proof/Machine/Ring.lean ====
section
/-!
DEFINITION. Completions of host commands and interrupt messages (R429 to R431, R433, R434, R416).
-/
namespace Sys2Proof.Machine

open Sys2Proof

/-! ### MSI-X (R414, R416, R434) -/

def State.msixMasked (s : State) (p v : Nat) : Bool := bitOf (s.msixTbl.get 1 (p * 8192 + 4 * v + 3)) 0

/-- Sends vector v of port p, at most once in a module slot tick: a second message of a tick goes at the next one. A masked vector
sets its pending bit. -/
def State.msix (s : State) (p v : Nat) : State :=
  if !s.msixOn.get false p then s
  else if s.msixMasked p v then { s with msixPba := s.msixPba.set (p * 2048 + v) true }
  else if s.msixSent.get 0 (p * 2048 + v) = s.now + 1 then
    (if s.msixNext.contains (p * 2048 + v) then s else { s with msixNext := s.msixNext ++ [p * 2048 + v] })
  else { s with msixSent := s.msixSent.set (p * 2048 + v) (s.now + 1), msixPba := s.msixPba.erase (p * 2048 + v) }.emit (.msix p v)

/-- At a module slot tick the vectors that wait send (R434). -/
def State.msixTick (s : State) : State := s.msixNext.foldl (fun (s : State) k => s.msix (k / 2048) (k % 2048)) { s with msixNext := [] }

/-! ### Completions (R430, R431, R433) -/

def csOk : Nat := 0x00
def csBadOpcode : Nat := 0x01
def csBadOperand : Nat := 0x02
def csBadState : Nat := 0x03
def csInUse : Nat := 0x04
def csImageRejected : Nat := 0x05
def csNotCommitted : Nat := 0x06
def csPoison : Nat := 0x07
def csRestoreFailed : Nat := 0x08
def csNoRegion : Nat := 0x09
def csLowSupply : Nat := 0x0A
def csTableFull : Nat := 0x0B
def csLinkPeer : Nat := 0x0C
def csUpdateRefused : Nat := 0x0D
def csNotOwner : Nat := 0x0E
def csRecordPoison : Nat := 0x0F

def State.ring (s : State) (k : Nat) : HRing := s.rings.get {} k
def State.setRing (s : State) (k : Nat) (r : HRing) : State := { s with rings := s.rings.set k r }

/-- Slots of a ring (R427, R437). -/
def State.ringSlots (s : State) (k : Nat) : Nat :=
  2 ^ (if k < 16 then s.fld (TN_RING_LOG2 k) else min (max (s.fld (HP_PORT_RING_LOG2 (k - 16))) 4) 12)
/-- Where a ring stands: module physical memory, or host memory. -/
def State.ringBase (s : State) (k : Nat) : Nat := if k < 16 then s.fld (TN_RING_BASE k) else s.fld (HP_PORT_RING_BASE (k - 16)) * 4096

/-- Writes `n` bytes of a ring at offset `o`: in HBM through the cache, or over the port while its ring is enabled. -/
def State.ringPut (s : State) (k o n v : Nat) : State :=
  if k < 16 then s.physWrite (s.ringBase k + o) n v reqHost
  else if s.fld (HP_PORT_RING_ENABLE (k - 16)) = 0 then s
  else
    let a := s.ringBase k + o
    s.emit (.hostWrite (k - 16) (a / 128 * 128) ((2 ^ n - 1) * 2 ^ (a % 128)) (v * 256 ^ (a % 128)))

/-- The completion record of a command (R431). -/
def State.cplRecord (s : State) (c : HCmd) (status result : Nat) : Nat :=
  c.op + status * 2 ^ 8 + c.ten * 2 ^ 16 + c.cnt % 2 ^ 32 * 2 ^ 32 + (if c.bad then 0 else c.seq) * 2 ^ 64
    + (if c.ten < 16 then s.fld (TN_STEP_STEP c.ten) else 0) * 2 ^ 128 + s.fld LH_SLOT_COUNT_COUNT * 2 ^ 192
    + result % 2 ^ 256 * 2 ^ 256

/-- A command ends (R430): its record, CPL_PROD and the interrupt, in that order; a management command's response. The
queue may go on with the next. `extra`: what a management response carries after the record. -/
def State.complete (s : State) (c : HCmd) (status : Nat) (result : Nat := 0) (extra : Nat := 0) : State :=
  let rec_ := s.cplRecord c status result
  let r := s.ring c.key
  let r := if r.cur = some c then { r with cur := none, wait := 0 } else r
  if c.mgmt then (s.setRing c.key r).emit (.mgmtReply (rec_ + 2 ^ 512 * extra))
  else
    let n := s.ringSlots c.key
    let s := s.ringPut c.key (0x1000 + 64 * n + 64 * (r.cpl % n)) 64 rec_
    let s := s.setRing c.key { r with cpl := (r.cpl + 1) % 2 ^ 64, pend := r.pend - 1 }
    let s := s.ringPut c.key 0x18 8 ((r.cpl + 1) % 2 ^ 64)
    if c.key < 16 then
      let s := if status = csOk then s else s.bump (TN_CMD_STAT_REFUSED c.key) 1
      s.msix (s.fld (TN_STATE_PORT c.key)) (32 + 2 * c.key)
    else s.msix (c.key - 16) 0

end Sys2Proof.Machine
end

