-- ==== Sys2Proof/Machine/Strait.lean ====
section
/-!
DEFINITION. The straits (R205 to R239): the crossing plan's permutations and pieces, segments and their checks, landing,
repair, dark sources, and the sum engine.
-/
namespace Sys2Proof.Machine

open Sys2Proof

def State.plan (s : State) (t : Nat) : Plan := s.plans.get {} t
def legKey (t l : Nat) : Nat := t * 16384 + l
def State.leg (s : State) (t l : Nat) : LegRun := s.legs.get {} (legKey t l)
def State.setLeg (s : State) (t l : Nat) (x : LegRun) : State := { s with legs := s.legs.set (legKey t l) x }
def State.xrun (s : State) (t x : Nat) : XferRun := s.xruns.get {} (t * 4096 + x)
def State.setXrun (s : State) (t x : Nat) (r : XferRun) : State := { s with xruns := s.xruns.set (t * 4096 + x) r }

def Plan.leg (p : Plan) (l : Nat) : LegEnt := p.legs.getD l ⟨0, 0, 0, 0, 0, 0⟩
def Plan.xfer (p : Plan) (x : Nat) : XferEnt := p.xfers.getD x ⟨0, 0, 0, 0, 0, 0, 0⟩
def XferEnt.legs (x : XferEnt) : List Nat := (List.range x.legCount).map (fun k => x.legFirst + k)
/-- The transfer a leg belongs to. -/
def Plan.xferOf (p : Plan) (l : Nat) : Nat :=
  ((List.range p.xfers.length).find? (fun x => let e := p.xfer x; decide (e.legFirst ≤ l) && decide (l < e.legFirst + e.legCount))).getD 0

/-! ### Permutations, guards, pieces (R217, R218) -/

/-- The permutation in force on a plane in plan slot n. -/
def Plan.perm (p : Plan) (plane n : Nat) : Option Nat :=
  ((p.changes.filter (fun c => c.plane == plane && decide (c.slot ≤ n))).getLast?).map (·.perm)
/-- Logical receiver of logical sender j. -/
def Plan.receiver (p : Plan) (plane n j : Nat) : Option Nat := (p.perm plane n).map (fun m => m / 16 ^ j % 16)
/-- The port of sender j on a plane is guarded in slot n (R217). -/
def Plan.guarded (p : Plan) (plane n j : Nat) : Bool := n == 0 || p.receiver plane n j != p.receiver plane (n - 1) j
def LegEnt.lanes (e : LegEnt) : Nat := 16 * e.planes
/-- C of a leg in its slot k (R218). -/
def Plan.capacity (p : Plan) (e : LegEnt) (k : Nat) : Nat :=
  if (List.range e.planes).any (fun j => p.guarded (e.plane0 + j) (e.slot0 + k) e.snd) then 49 else 53
/-- First piece of slot k. -/
def Plan.firstPiece (p : Plan) (e : LegEnt) (k : Nat) : Nat :=
  (List.range k).foldl (fun n j => n + e.lanes * p.capacity e j) 0
def pieceCount (bytes : Nat) : Nat := (bytes + 119) / 120
/-- Bytes of a leg carried in slot k: the first, and how many. -/
def Plan.slotBytes (p : Plan) (e : LegEnt) (bytes k : Nat) : Nat × Nat :=
  let a := min bytes (120 * p.firstPiece e k)
  (a, min bytes (120 * p.firstPiece e (k + 1)) - a)
/-- Pieces of segment (k, u): position and piece number (R218). -/
def Plan.segPieces (p : Plan) (e : LegEnt) (bytes k u : Nat) : List (Nat × Nat) :=
  (List.range (p.capacity e k)).filterMap (fun pos =>
    let c := p.firstPiece e k + pos * e.lanes + u
    if c < pieceCount bytes then some (pos, c) else none)
def segKey (k u : Nat) : Nat := k * 1024 + u
/-- Segments of a leg that carry some piece. -/
def Plan.usedSegs (p : Plan) (e : LegEnt) (bytes : Nat) : List Nat :=
  (List.range e.slots).flatMap (fun k => (List.range e.lanes).filterMap (fun u =>
    if p.firstPiece e k + u < pieceCount bytes ∧ p.firstPiece e k + u < p.firstPiece e (k + 1) then some (segKey k u) else none))

/-! ### Ports (R210, R228) -/

def State.lanePresent (s : State) (i plane j : Nat) : Bool := s.fldBit (BT_ST_PORT_PRESENT i plane) j
/-- Lanes present at both ports of a connection, ascending. -/
def State.width (s : State) (a b plane : Nat) : List Nat :=
  (List.range 16).filter (fun j => s.lanePresent a plane j && s.lanePresent b plane j)
/-- The leg that a connection from `snd` to `rcv` carries on a plane in plan slot n, if it carries one (R216, R219). -/
def Plan.legAt (p : Plan) (snd rcv plane n : Nat) : Option Nat :=
  (List.range p.legs.length).find? (fun l => let e := p.leg l; e.snd == snd && e.rcv == rcv && decide (e.plane0 ≤ plane) &&
    decide (plane < e.plane0 + e.planes) && decide (e.slot0 ≤ n) && decide (n < e.slot0 + e.slots))

/-- The logical plane that island i's port on physical plane P carries (R210). -/
def State.logPlane (s : State) (i P : Nat) : Option Nat :=
  if P < 64 ∧ s.fld (BT_ST_PORT_PHYS i P) = P then some P else (List.range 64).find? (fun p => s.fld (BT_ST_PORT_PHYS i p) == P)

/-- The island whose receive half a running plan connects to the transmit half of island i on physical plane P (R217, R220). -/
def State.planTo (s : State) (P i : Nat) : Option Nat :=
  match s.tenOf i, s.logPlane i P with
  | some t, some p =>
    if s.fld (TN_STATE_STATE t) = 3 then
      ((s.plan t).receiver p (s.fld (TN_SLOT_PLAN_SLOT t)) (s.logicalOf t i)).map (s.physOf t)
    else none
  | _, _ => none

/-- The permutation of a physical plane (R206, R220): the running tenancies' merged; a port that no running plan uses stands on its own
receive half, dark. -/
def State.physPerm (s : State) (P i : Nat) : Nat := (s.planTo P i).getD i

/-- The island whose light a running plan brings to island b's port on a logical plane. -/
def State.senderTo (s : State) (b plane : Nat) : Option Nat :=
  let P := s.fld (BT_ST_PORT_PHYS b plane)
  (List.range 16).find? (fun i => s.physPerm P i == b && (s.planTo P i).isSome)

/-! ### The transmit buffer (R221) -/

/-- Bytes of island i's 16 MiB transmit buffer that hold slots not yet sent. -/
def State.txHeld (s : State) (t i : Nat) : Nat :=
  let p := s.plan t
  (List.range p.legs.length).foldl (fun n l =>
    let e := p.leg l
    if s.physOf t e.snd = i then
      (s.leg t l).tx.foldl (fun n x => n + (p.slotBytes e (p.xfer (p.xferOf l)).bytes x.1).2) n
    else n) 0

def txBuffer : Nat := 16 * 2 ^ 20
def rxBuffer : Nat := 16 * 2 ^ 20

/-- Bytes that the legs of plan slot n bring to logical island j: its receive buffer, which segments leave as they land, must have room for
them (R221). -/
def Plan.slotInto (p : Plan) (n j : Nat) : Nat :=
  (List.range p.legs.length).foldl (fun a l =>
    let e := p.leg l
    if e.rcv = j ∧ e.slot0 ≤ n ∧ n < e.slot0 + e.slots then a + (p.slotBytes e (p.xfer (p.xferOf l)).bytes (n - e.slot0)).2 else a) 0

/-- Local-view address of a leg's source, once it may be read: its sender's ST.SEND's, or SRC_ADDR from the frame tick on. -/
def State.legSource (s : State) (t l : Nat) : Option Nat :=
  let p := s.plan t
  let x := p.xferOf l
  if (p.xfer x).src = 1 then some (p.xfer x).srcAddr
  else ((s.xrun t x).send.find? (fun q => q.1 == (p.leg l).snd)).map (·.2.addr)

/-- Another leg of the sender has an earlier slot to read (R221). -/
def State.earlierLeg (s : State) (t l : Nat) : Bool :=
  let p := s.plan t
  let next (m : Nat) : Nat := (p.leg m).slot0 + (s.leg t m).filled
  (List.range p.legs.length).any (fun m => (p.leg m).snd == (p.leg l).snd && (s.legSource t m).isSome &&
    decide ((s.leg t m).filled < (p.leg m).slots) && decide (next m < next l))

/-- ST_TX_BUFFER_FILL: the sender reads the next slot of a leg, in slot order, as room allows (R221). -/
def execStTxBufferFill (t : Fin 16) (l : Nat) (s : State) : Out :=
  let p := s.plan t
  let e := p.leg l
  let r := s.leg t l
  let i := s.physOf t e.snd
  let (a, n) := p.slotBytes e (p.xfer (p.xferOf l)).bytes r.filled
  match s.legSource t l with
  | none => .next s
  | some src =>
    if p.legs.length ≤ l ∨ s.fld (TN_STATE_STATE t) ≠ 3 ∨ e.slots ≤ r.filled ∨ !s.present i ∨ s.earlierLeg t l ∨ txBuffer < s.txHeld t i + n then .next s
    else
      let (v, bad, s) := s.readLocal i reqStrait (src + a) (spanLines (src + a) n) n
      let r := s.leg t l
      .next (s.setLeg t l { r with filled := r.filled + 1, tx := r.tx.set r.filled (v, bad.map (fun w => w - src)) })

/-! ### Segments (R212 to R215) -/

/-- Payload bytes and POISON bits of segment (k, u). `v`, `bad`: the slot's bits from byte `a` on, and the offsets of its
poisoned words. -/
def segPayload (pieces : List (Nat × Nat)) (codewords a v bytes : Nat) (bad : List Nat) : List Byte × Nat :=
  let body := (List.range codewords).flatMap (fun pos =>
    match pieces.find? (fun q => q.1 == pos) with
    | some (_, c) => leBytes 120 (if a ≤ 120 * c then v / 2 ^ (8 * (120 * c - a)) % 2 ^ (8 * min 120 (bytes - 120 * c)) else 0)
    | none => List.replicate 120 0)
  let marks := pieces.foldl (fun m q =>
    (List.range 15).foldl (fun m w => if bad.contains (120 * q.2 + 8 * w) then m ||| 2 ^ (15 * q.1 + w) else m) m) 0
  (body, marks)

/-- What a segment carries in its trailer beside the payload's marks (R213). -/
structure Trailer where
  lambda : Nat
  plane : Nat
  src : Nat
  dark : Bool
  idle : Bool
  guarded : Bool
  xfer : Nat
  lane : Nat
  seg : Nat
  pslot : Nat

def Trailer.bytes (t : Trailer) (marks : Nat) : List Byte :=
  leBytes 100 marks ++ [BitVec.ofNat 8 t.lambda, BitVec.ofNat 8 t.plane, BitVec.ofNat 8 t.src,
    BitVec.ofNat 8 ((if t.dark then 1 else 0) + (if t.idle then 2 else 0) + (if t.guarded then 4 else 0))]
    ++ leBytes 2 (if t.idle then 0 else t.xfer + t.lane * 4096) ++ leBytes 2 t.seg ++ leBytes 2 t.pslot ++ [0, 0]

/-- Segment CRC with the seed of a physical identity (R214). -/
def segCrc (plane isl lam : Nat) (payload trailer : List Byte) : Nat :=
  crc32c (0xA5000000 + plane * 2 ^ 16 + isl * 2 ^ 8 + lam) (payload ++ trailer)

/-- The codewords of a segment. -/
def segCodewords (payload trailer : List Byte) (crc : Nat) : List (List Byte) :=
  (runsOf 120 (payload.length + 1) payload).map rsLane ++ [rsLane (trailer ++ leBytes 4 crc ++ [0, 0, 0, 0])]

/-- What a receiver decodes of a segment: bytes corrected, codewords that failed, whether the last, the trailer, decoded, and the data of those
that did. -/
structure SegData where
  fixed : Nat := 0
  bad : Nat := 0
  trailer : Bool := false
  data : List Byte := []
def segDecode (cws : List (List Byte)) (noise : Noise) : SegData :=
  (List.range cws.length).foldl (fun (r : SegData) k =>
    let cw := addNoise ((noise.filter (fun e => e.1 / 128 == k)).map (fun e => (e.1 % 128, e.2))) (cws.getD k [])
    match rsLaneDecode cw with
    | some (d, n) => { fixed := r.fixed + n, bad := r.bad, trailer := true, data := r.data ++ d }
    | none => { fixed := r.fixed, bad := r.bad + 1, trailer := false, data := r.data ++ List.replicate 120 0 }) {}

/-! ### Landing (R223) -/

/-- Lands the pieces of a segment: for a COPY in the destination, for a REDUCE in the leaf's buffer. -/
def State.landSegment (s : State) (t l k u : Nat) (payload : List Byte) (marks : Nat) : State :=
  let p := s.plan t
  let e := p.leg l
  let x := p.xferOf l
  let ent := p.xfer x
  let i := s.physOf t e.rcv
  let dst := ((s.xrun t x).recv.find? (fun q => q.1 == e.rcv)).map (·.2)
  let s := (p.segPieces e ent.bytes k u).foldl (fun s q =>
    let n := min 120 (ent.bytes - 120 * q.2)
    let v := fieldAt payload (120 * q.1) n
    let bad (w : Nat) : Bool := bitOf marks (15 * q.1 + w)
    if ent.kind = 2 then
      let r := s.leg t l
      s.setLeg t l { r with buf := r.buf + v * 2 ^ (8 * 120 * q.2), bufBad := r.bufBad ++ ((List.range 15).filter bad).map (fun w => 120 * q.2 + 8 * w) }
    else
      match dst.bind (fun d => s.localPhys i (d.addr + 120 * q.2)) with
      | some a => s.storeBytes reqStrait a n v (fun w => bad ((w - a) / 8))
      | none => s) s
  let r := s.leg t l
  s.setLeg t l { r with landed := r.landed.set (segKey k u) true, failed := r.failed.erase (segKey k u), poison := r.poison || marks != 0 }

def State.failSegment (s : State) (t l k u : Nat) : State :=
  let r := s.leg t l
  if r.landed.get false (segKey k u) ∨ r.dark then s
  else s.setLeg t l { r with failed := r.failed.set (segKey k u) (s.runs.get {} t).slots }

/-- Wavelength of logical lane j at a plane port: a spare wavelength it has moved to, or its own number (R210, R501). -/
def State.laneLambda (s : State) (i plane j : Nat) : Nat :=
  if s.fld (BT_ST_PORT_ON_L16 i plane) = j then 16 else if s.fld (BT_ST_PORT_ON_L17 i plane) = j then 17 else j

/-- A dark source (R232): nothing more lands from the leg, and no repair is asked for. -/
def State.darkLeg (s : State) (t l : Nat) : State :=
  let p := s.plan t
  let e := p.leg l
  let r := s.leg t l
  if r.dark then s
  else ((s.setLeg t l { r with dark := true, failed := r.failed.filter (fun f => r.repairing.any (fun g => g.1 == f.1)) }).raise 0x4003 (s.physOf t e.rcv) (srcIx 6 e.plane0)
    (s.physOf t e.snd + p.xferOf l * 2 ^ 16))

/-- Marks a lane mislocked (R231). -/
def State.mislock (s : State) (i plane j lam : Nat) : State :=
  if s.mislocked.get false (laneKey i plane j) then s
  else ((({ s with mislocked := s.mislocked.set (laneKey i plane j) true }).setFld (BT_ST_PORT_MISLOCKED i plane) 1).bump
    (BT_ST_STAT_MISLOCKS i) 1).raise 0x4005 i (srcIx 6 plane) (j + lam * 2 ^ 8)

/-- The markers that a lane reads at training (R231), LAMBDA, PLANE, SRC: its port hears its own island (R220). -/
def State.trainMark (s : State) (b plane j m : Nat) : State :=
  if bits m 0 8 = s.laneLambda b plane j ∧ bits m 8 8 = s.fld (BT_ST_PORT_PHYS b plane) ∧ bits m 16 8 = b then s else s.mislock b plane j (bits m 0 8)

/-- A segment on its way (R212): the tenancy, sending and receiving islands, the logical plane and the lane that carries it, the leg that the
connection carries in the slot, and, in an extension slot, the absent lane whose segment it is. -/
structure SegWay where
  ten : Nat
  snd : Nat
  rcv : Nat
  plane : Nat
  lane : Nat
  leg : Option Nat
  late : Option Nat

/-- The port is guarded, and the segment has 49 payload codewords (R207, R212). -/
def State.segGuard (s : State) (w : SegWay) : Bool :=
  w.late.isNone && (s.plan w.ten).guarded w.plane (s.fld (TN_SLOT_PLAN_SLOT w.ten)) (s.logicalOf w.ten w.snd)

/-- SEG and the leg's lane index of the segment that logical lane `j` carries. -/
def State.segOf (s : State) (w : SegWay) (l j : Nat) : Nat × Nat :=
  let e := (s.plan w.ten).leg l
  (s.fld (TN_SLOT_PLAN_SLOT w.ten) - e.slot0, 16 * (w.plane - e.plane0) + w.late.getD j)

/-- The codewords that logical lane `j` of the sender's port transmits (R212 to R214): the leg's segment, dark where the sender is not
present (R232); IDLE where the connection carries no leg. -/
def State.segSent (s : State) (w : SegWay) (j : Nat) : List (List Byte) :=
  let p := s.plan w.ten
  let phys := s.fld (BT_ST_PORT_PHYS w.rcv w.plane)
  let lam := s.laneLambda w.rcv w.plane j
  let c := if s.segGuard w then 49 else 53
  let idle : Trailer := { lambda := lam, plane := phys, src := w.snd, dark := false, idle := true, guarded := s.segGuard w, xfer := 0, lane := 0,
                          seg := 0, pslot := s.fld (TN_SLOT_PLAN_SLOT w.ten) }
  let (body, tr) : List Byte × List Byte :=
    match w.leg with
    | none => (List.replicate (120 * c) 0, idle.bytes 0)
    | some l =>
      let e := p.leg l
      let bytes := (p.xfer (p.xferOf l)).bytes
      let (k, u) := s.segOf w l j
      let dark := !s.present w.snd
      let buf := (s.leg w.ten l).tx.get (0, []) k
      let seg := segPayload (if dark then [] else p.segPieces e bytes k u) c (p.slotBytes e bytes k).1 buf.1 bytes buf.2
      (seg.1, { idle with dark := dark, idle := false, xfer := p.xferOf l, lane := w.late.getD j, seg := k }.bytes seg.2)
  segCodewords body tr (segCrc phys w.snd lam body tr)

/-- The checks of a received segment (R215, R231): the counts of the lane, its marker comparison, the first check of a ring locked again
(R506). Answers whether it is good, its payload, and the trailer. -/
def State.segCheck (s : State) (w : SegWay) (from_ : Nat) (noise : Noise) : Bool × List Byte × List Byte × State :=
  let key := laneKey w.rcv w.plane w.lane
  let d := segDecode (s.segSent w from_) noise
  let c := if s.segGuard w then 49 else 53
  let phys := s.fld (BT_ST_PORT_PHYS w.rcv w.plane)
  let lam := s.laneLambda w.rcv w.plane w.lane
  let tr := d.data.drop (120 * c)
  let crcOk := fieldAt tr 112 4 == segCrc phys w.snd lam (d.data.take (120 * c)) (tr.take 112)
  let seen := s.laneCw.get 0 key + c + 1
  let periodic := decide (4096 ≤ seen) && d.trailer
  let markOk := fieldAt tr 100 1 == lam && fieldAt tr 101 1 == phys && fieldAt tr 102 1 == w.snd
  let good := d.bad == 0 && crcOk
  let s := { s with laneCw := s.laneCw.set key (if periodic then 0 else seen) }
  let s := ((s.bump (BT_ST_PORT_CORRECTED w.rcv w.plane) d.fixed).bump (BT_ST_FEC_CORRECTED w.rcv) d.fixed).bump (BT_ST_FEC_UNCORRECTABLE w.rcv) d.bad
  let s := s.countLaneErr w.rcv w.plane w.lane (c + 1) d.fixed d.bad
  let s := if d.bad == 0 && !crcOk then s.bump (BT_ST_FEC_CRC_FAIL w.rcv) 1 else s
  let s := if (periodic || (d.bad == 0 && !crcOk)) && !markOk then s.mislock w.rcv w.plane w.lane (fieldAt tr 100 1) else s
  let s := s.ringCheck w.rcv w.plane w.lane good
  (good && !s.mislocked.get false key, d.data.take (120 * c), tr, s)

/-- The segment of lane `w.lane` arrives, or the lane stays unlit (R215, R223, R232). -/
def State.segTake (s : State) (w : SegWay) (light : Option Nat) (noise : Noise) : State :=
  match light, w.leg with
  | none, none => s
  | none, some l =>
    let (k, u) := s.segOf w l w.lane
    let r := s.leg w.ten l
    if r.dark then s
    else if w.late.isSome then s.failSegment w.ten l k u
    else
      let n := r.unlit.get 0 (k * 64 + w.plane) + 1
      let s := s.setLeg w.ten l { r with unlit := r.unlit.set (k * 64 + w.plane) n }
      if (s.width w.snd w.rcv w.plane).length ≤ n then s.darkLeg w.ten l else s.failSegment w.ten l k u
  | some j, none => (s.segCheck w j noise).2.2.2
  | some j, some l =>
    let (k, u) := s.segOf w l w.lane
    let (good, body, tr, s) := s.segCheck w j noise
    if !good then s.failSegment w.ten l k u
    else if bitOf (fieldAt tr 103 1) 0 then
      let r := s.leg w.ten l
      ((s.setLeg w.ten l { r with darkRx := r.darkRx ++ [segKey k u] }).bump (BT_ST_STAT_DARK_RX w.rcv) 1).darkLeg w.ten l
    else if (s.leg w.ten l).dark then s
    else s.landSegment w.ten l k u body (fieldAt tr 0 100)

/-- SEGMENT_RX (R212 to R215, R223, R228, R229, R231, R232): lane `lane` of base tile b's port on a logical plane, in the tenancy slot under
way. `light`: the logical lane whose light reached the ring, or none; `noise`: bytes changed, byte b of codeword c numbered 128c + b. `late`: in an
extension slot, the absent lane whose segment the lane carries. -/
def execSegmentRx (b : Fin 16) (plane : Fin 64) (lane : Fin 16) (late light : Option (Fin 16)) (noise : List (Nat × Byte)) (s : State) : Out :=
  match s.tenOf b, s.senderTo b plane with
  | some t, some snd =>
    let r := s.runs.get {} t
    let n := s.fld (TN_SLOT_PLAN_SLOT t)
    let leg := (s.plan t).legAt (s.logicalOf t snd) (s.logicalOf t b) plane n
    let w : SegWay := ⟨t, snd, b, plane, lane, leg, late.map Fin.val⟩
    let key := laneKey b plane lane
    if r.fresh || r.await || s.segRx.contains key || !s.lanePresent snd plane lane || !s.lanePresent b plane lane then .next s
    else
      let go (s : State) : Out := .next ({ s with segRx := s.segRx ++ [key] }.segTake w (light.map Fin.val) noise)
      match late, leg with
      | none, _ => if s.stallNow.get false t then .next s else go s
      | some j, some l =>
        let (k, u) := s.segOf w l j
        let g := s.leg t l
        if s.extNow.get false t && g.deferred.contains (segKey k u) then go (s.setLeg t l { g with deferred := g.deferred.filter (· != segKey k u) })
        else .next s
      | some _, none => .next s
  | _, _ => .next s

/-! ### Repair (R226, R227) -/

/-- REPAIR_NOTICE_POST: in the slot after the failure the receiver posts a notice; a sender not present makes the
transfer dark (R226, R227). -/
def execRepairNoticePost (t : Fin 16) (l k u : Nat) (s : State) : Out :=
  let p := s.plan t
  let e := p.leg l
  let r := s.leg t l
  let rcv := s.physOf t e.rcv
  let snd := s.physOf t e.snd
  match r.failed.find? (fun f => f.1 == segKey k u) with
  | none => .next s
  | some (_, tick) =>
    if (s.runs.get {} t).slots ≤ tick ∨ r.repairing.any (fun f => f.1 == segKey k u) ∨ r.dark then .next s
    else if !s.present snd then .next (s.darkLeg t l)
    else
      let b := s.tile rcv
      let s := s.setTile rcv { b with notices := b.notices ++ [{ sender := snd, leg := l, plane := e.plane0 + u / 16, lane := u % 16, seg := k, xfer := p.xferOf l }] }
      .next ((s.setLeg t l { r with repairing := r.repairing.set (segKey k u) 0 }).bump (BT_ST_STAT_REPAIRED rcv) 1)

/-- Ferry writes of one piece: whole lines by mask. `d`: physical address of the piece; for a REDUCE, its byte offset. -/
def pieceWrites (snd rcv d n v : Nat) (bad : Nat → Bool) : List (Pkt × Nat) :=
  (List.range (spanLines d n)).map (fun q =>
    let line := d / 128 * 128 + 128 * q
    let lo := max d line
    let hi := min (d + n) (line + 128)
    let k := hi - lo
    ({ typ := ptWrReq, vc := 0, src := snd, dst := rcv, tile := true, addr := line,
       mask := (2 ^ k - 1) * 2 ^ (lo - line), data := v / 2 ^ (8 * (lo - d)) % 2 ^ (8 * k) * 2 ^ (8 * (lo - line)),
       poison := ((List.range 16).filter (fun w => bad (line + 8 * w) && decide (lo < line + 8 * w + 8) && decide (line + 8 * w < hi))).foldl (fun m w => m + 2 ^ w) 0 }, line))

/-- One acknowledged repair write; with the last, the segment has landed and EV_STRAIT_REPAIRED is raised (R226). -/
def State.repairAck (s : State) (t l k u : Nat) (poison : Bool) : State :=
  let p := s.plan t
  let e := p.leg l
  let r := s.leg t l
  let n := r.repairing.get 0 (segKey k u)
  if !r.repairing.any (fun f => f.1 == segKey k u) then s
  else if n ≤ 1 then
    (s.setLeg t l { r with repairing := r.repairing.erase (segKey k u), failed := r.failed.erase (segKey k u),
                           landed := r.landed.set (segKey k u) true, poison := r.poison || poison }).raise 0x7002
      (s.physOf t e.rcv) (srcIx 6 (e.plane0 + u / 16)) (u % 16 + p.xferOf l * 2 ^ 16)
  else s.setLeg t l { r with repairing := r.repairing.set (segKey k u) (n - 1), poison := r.poison || poison }

/-- A repair write of a COPY that carries poison lands poisoned (R223, R226). -/
def State.notePoison (s : State) (t l poison : Nat) : State :=
  if poison = 0 then s else s.setLeg t l { s.leg t l with poison := true }

/-- A repair that is not made, its sender not being present: the transfer ends dark (R227). -/
def State.noRepair (s : State) (t l k u : Nat) : State :=
  let r := s.leg t l
  (s.setLeg t l { r with repairing := r.repairing.erase (segKey k u), failed := r.failed.erase (segKey k u) }).darkLeg t l

/-- The leg that a notice names in the running plan of its tenancy, the island's own, and the segment's lane within the leg. -/
def State.noticeLeg (s : State) (b : Nat) (n : Notice) : Option (Nat × LegEnt × Nat) :=
  (s.tenOf b).bind (fun t =>
    let e := (s.plan t).leg n.leg
    if (s.plan t).xferOf n.leg = n.xfer ∧ e.plane0 ≤ n.plane then some (t, e, (n.plane - e.plane0) * 16 + n.lane) else none)

/-- REPAIR_RESEND: the sender, if it is still present (R227), rereads the segment's bytes from the leg's source, with their poison, and sends them as
tile-origin ferry writes on VC0 (R226). -/
def execRepairResend (b : Fin 16) (s : State) : Out :=
  let tl := s.tile b
  match tl.repairs with
  | [] => .next s
  | q :: rest =>
    let drop := s.setTile b { tl with repairs := rest }
    match s.noticeLeg b q.n with
    | none => .next drop
    | some (t, e, u) =>
      let l := q.n.leg
      let seg := q.n.seg
      if !s.present b then .next (drop.noRepair t l seg u)
      else
        let p := s.plan t
        let x := q.n.xfer
        let bytes := (p.xfer x).bytes
        let dst := ((s.xrun t x).recv.find? (fun y => y.1 == e.rcv)).map (·.2)
        match s.legSource t l, dst with
        | some src, some d =>
          let pieces := p.segPieces e bytes seg u
          let base := if (p.xfer x).kind = 2 then some 0 else s.localPhys q.recv d.addr
          if s.ferryBusy b q.recv (2 * pieces.length) then .next s
          else
            let go := pieces.foldl (fun (r : List (Pkt × Waiter) × State) y =>
              let n := min 120 (bytes - 120 * y.2)
              let (v, bad, s) := r.2.readLocal b reqStrait (src + 120 * y.2) (spanLines (src + 120 * y.2) n) n
              let at0 := base.getD 0 + 120 * y.2
              let ws := pieceWrites b q.recv at0 n v (fun w => bad.contains (w - at0 + (src + 120 * y.2)))
              (r.1 ++ ws.map (fun z => (z.1, Waiter.repair t l seg u y.2)), s)) ([], drop)
            let s := go.2.request b go.1
            let r := s.leg t l
            if go.1.isEmpty then .next (s.repairAck t l seg u false)
            else .next (s.setLeg t l { r with repairing := r.repairing.set (segKey seg u) go.1.length })
        | _, _ => .next drop

/-- A repair write applied at the receiver of a REDUCE goes to its leaf's buffer. -/
def State.landRepair (s : State) (t l : Nat) (k : Pkt) : State :=
  let r := s.leg t l
  let v := (List.range 128).foldl (fun v j => if bitOf k.mask j then v + k.data / 256 ^ j % 256 * 256 ^ j else v) 0
  s.setLeg t l { r with buf := r.buf + v * 256 ^ k.addr,
                        bufBad := r.bufBad ++ ((List.range 16).filter (bitOf k.poison)).map (fun w => k.addr + 8 * w) }

/-! ### The sum engine (R233 to R238) -/

def suElBytes (fmt : Nat) : Nat := if fmt = 6 then 2 else 4
def suFmt (fmt : Nat) : FFmt := if fmt = 6 then bf16 else fp32

/-- One element in TREE mode over sixteen positions: result and flags (R235, R237). -/
def suTree (inF outF : Nat) (leaves : List (Option Nat)) : Nat × Nat :=
  let vals := leaves.filterMap id
  let wide := leaves.map (Option.map (fun x => if inF = 6 then x * 65536 else x))
  let (r, fl) := treeUp (fAdd fp32 .rne) 4 wide
  let root := r.getD 0
  let (o, fl2) := fCvt fp32 (suFmt outF) .rne root
  let f := fl ||| (if outF = 6 then fl2 else 0)
  let isInf (x : Nat) : Bool := match decodeF (suFmt inF) x with
    | .inf _ => true
    | _ => false
  (o, (if bitOf f 0 then 1 else 0) ||| (if bitOf f 2 then 2 ||| 8 else 0)
    ||| (if bitOf f 4 || vals.any (fun x => (decodeF (suFmt inF) x).isNan) then 4 else 0)
    ||| (if vals.any isInf then 8 else 0))

/-- One element in WIDE mode (R236, R237). -/
def suWide (inF outF : Nat) (anchor : Int) (leaves : List (Option Nat)) : Nat × Nat :=
  let lsb := anchor - 110
  let st := (leaves.filterMap id).foldl (fun (t : RowSum) x => rowSumAdd lsb t (decodeF (suFmt inF) x) (.fin false 1 0)) {}
  let (q, sat) := addSat 0 st.sum
  let (o, fl) := drainEl outF .rne st.spec q.toInt lsb
  (o, (st.fl &&& 13) ||| (if sat then 2 else 0) ||| (if st.spec = 3 then 4 else 0) ||| (if bitOf fl 6 then 10 else 0))

/-- The leaves of element n by logical position, and whether one is poisoned. `srcs`: position, bits, poisoned words. -/
def suLeaves (inF n : Nat) (srcs : List (Nat × Nat × List Nat)) : List (Option Nat) × Bool :=
  let w := suElBytes inF
  ((List.range 16).map (fun j => (srcs.find? (fun x => x.1 == j)).map (fun x => bits x.2.1 (8 * w * n) (8 * w))),
   srcs.any (fun x => x.2.2.contains (w * n / 8 * 8)))

/-- The reduced output: bits, poisoned words, flags. -/
def suReduce (m : SumEnt) (elements : Nat) (srcs : List (Nat × Nat × List Nat)) : Nat × List Nat × Nat :=
  let wo := suElBytes m.outFmt
  (List.range elements).foldl (fun (r : Nat × List Nat × Nat) n =>
    let (leaves, bad) := suLeaves m.inFmt n srcs
    let (o, fl) := if m.mode = 1 then suTree m.inFmt m.outFmt leaves else suWide m.inFmt m.outFmt m.anchor leaves
    (r.1 + o * 2 ^ (8 * wo * n), if bad then r.2.1 ++ [wo * n / 8 * 8] else r.2.1, r.2.2 ||| fl ||| (if bad then 16 else 0))) (0, [], 0)

/-! ### Completion (R223, R224, R232) -/

/-- Every segment of a leg has landed. -/
def State.legLanded (s : State) (t l : Nat) : Bool :=
  let p := s.plan t
  (p.usedSegs (p.leg l) (p.xfer (p.xferOf l)).bytes).all (fun k => (s.leg t l).landed.get false k)

/-- ST_RECV_COMPLETE (R223, R232): every byte of every leg of the transfer has landed, or its source was dark; DARK ends the receiver of a leg
whose source was. A REDUCE is summed and its output written. -/
def execStRecvComplete (t : Fin 16) (x : Nat) (rcv : Fin 16) (s : State) : Out :=
  let p := s.plan t
  let ent := p.xfer x
  let r := s.xrun t x
  let i := s.physOf t rcv
  let legs := ent.legs.filter (fun l => (p.leg l).rcv == rcv.val)
  match r.recv.find? (fun q => q.1 == rcv.val) with
  | none => .next s
  | some (_, d) =>
    let dark := legs.any (fun l => (s.leg t l).dark)
    if p.xfers.length ≤ x ∨ r.recvDone.get false rcv ∨ !(dark || ent.legs.all (fun l => s.legLanded t l || (s.leg t l).dark)) then .next s
    else
      let s := s.setXrun t x { r with recvDone := r.recvDone.set rcv true }
      let c := coreOf d.core
      if dark then .next (s.finishNo c d.no xsDark 0)
      else if ent.kind = 2 then
        let m := (s.sums.get [] (t * 16 + rcv)).getD ent.sum ⟨1, 8, 8, 0, 0, 0⟩
        let n := ent.bytes / suElBytes m.inFmt
        let (lv, lbad, s) := if m.loc = 1 then s.readLocal i reqStrait m.locAddr (spanLines m.locAddr ent.bytes) ent.bytes else (0, [], s)
        let srcs := legs.map (fun l => ((p.leg l).snd, (s.leg t l).buf, (s.leg t l).bufBad)) ++
          (if m.loc = 1 then [(rcv.val, lv, lbad.map (fun w => w - m.locAddr))] else [])
        let (o, bad, fl) := suReduce m n srcs
        let s := match s.localPhys i d.addr with
          | some a => s.storeBytes reqStrait a (n * suElBytes m.outFmt) o (fun w => bad.contains (w - a))
          | none => s
        let s := (s.orFld (BT_SU_STAT_FLAGS i) fl).bump (BT_SU_STAT_REDUCTIONS i) 1
        let s := legs.foldl (fun s l => let g := s.leg t l; s.setLeg t l { g with buf := 0, bufBad := [] }) s
        .next (s.finishNo c d.no (if bad.isEmpty then 0 else xsPoison) (((s.localPhys i d.addr).getD 0) + bad.headD 0))
      else .next (s.finishNo c d.no (if legs.any (fun l => (s.leg t l).poison) then xsPoison else 0) ((s.localPhys i d.addr).getD 0))

/-- ST_SEND_COMPLETE (R224): logical island `snd`'s sending of transfer x ends at the tick that ends the slot after the last slot of its legs,
when no notice has come, or when every repair write has been acknowledged. -/
def execStSendComplete (t : Fin 16) (x : Nat) (snd : Fin 16) (s : State) : Out :=
  let p := s.plan t
  let r := s.xrun t x
  let legs := (p.xfer x).legs.filter (fun l => (p.leg l).snd == snd.val)
  let past (l : Nat) : Bool :=
    match (s.leg t l).lastTick with
    | none => false
    | some k => decide (k + 1 ≤ (s.runs.get {} t).slots) && (s.leg t l).failed.isEmpty && (s.leg t l).repairing.isEmpty
  if p.xfers.length ≤ x ∨ r.sendDone.get false snd ∨ legs.isEmpty ∨ !legs.all past then .next s
  else
    let s := s.setXrun t x { r with sendDone := r.sendDone.set snd true }
    match r.send.find? (fun q => q.1 == snd.val) with
    | none => .next s
    | some (_, d) => .next (s.finishNo (coreOf d.core) d.no 0 0)

/-- BT_SU_STAT.BUF_PEAK: bytes that the reductions open in plan slot n hold at receiver island i (R238, R239). -/
def State.suHeld (s : State) (t rcv n : Nat) : Nat :=
  let p := s.plan t
  p.xfers.foldl (fun (h : Nat) (e : XferEnt) =>
    let legs := e.legs.map p.leg
    let first := (legs.map (·.slot0)).foldl min 8192
    let last := (legs.map (fun g => g.slot0 + g.slots)).foldl max 0
    if e.kind = 2 ∧ (legs.headD ⟨0, 0, 0, 0, 0, 0⟩).rcv = rcv ∧ first ≤ n ∧ n < last then
      let m := (s.sums.get [] (t * 16 + rcv)).getD e.sum ⟨1, 8, 8, 0, 0, 0⟩
      let el := e.bytes / suElBytes m.inFmt
      h + (if m.mode = 1 then 4 * el * e.legCount else 17 * el)
    else h) 0

end Sys2Proof.Machine
end

