-- ==== Sys2Proof/Machine/Mesh.lean ====
section
/-!
DEFINITION. The die mesh (R196 to R202) and the execution of the instruction at the head of a unit's queue (R108).
-/
namespace Sys2Proof.Machine

open Sys2Proof

def meshRoute (m : Mesh) (w : MeshWin) : MeshRoute := m.routes.getD w.route ⟨0, 0, 0, 0, false⟩

/-- A window names a unit (R197). -/
def names (m : Mesh) (w : MeshWin) : UnitId → Bool
  | .array j => bitOf (meshRoute m w).arrays j
  | .vec j => bitOf (meshRoute m w).vcores j

/-- The units of a window. -/
def winUnits (m : Mesh) (w : MeshWin) : List UnitId :=
  (bitList 64 (meshRoute m w).arrays).map (fun j => .array (Fin.ofNat 64 j)) ++
  (bitList 32 (meshRoute m w).vcores).map (fun j => .vec (Fin.ofNat 32 j))

def winAt (m : Mesh) (k : Nat) : MeshWin := m.wins.getD k ⟨0, 0, 0, 0⟩

/-- Index of the unit's next window, taken in START order (R199). -/
def nextWin (m : Mesh) (u : UnitId) (pos : Nat) : Option Nat :=
  (List.range m.wins.length).find? (fun k => decide (pos ≤ k) && names m (winAt m k) u && !m.done.get false k)

def State.arrOf (s : State) (i : Nat) : UnitId → MatArray
  | .array j => s.arr i j
  | .vec _ => {}

/-- Ranges of a queued instruction on a unit. -/
def State.rangesOf (s : State) (i : Nat) (u : UnitId) (q : QOp) : List (Nat × Nat) := (q.op.ranges (s.arrOf i u)).getD []

/-- Sectors of the lines of some ranges. -/
def sectorsOk (mask : Nat) (rs : List (Nat × Nat)) : Bool :=
  rs.all (fun r => (List.range ((r.1 + r.2 - 1) / 128 - r.1 / 128 + 1)).all (fun k => bitOf mask ((r.1 / 128 + k) % 16)))

/-- The head of a unit's queue suits window k (R199): the OP and the sectors. -/
def State.suits (s : State) (i : Nat) (u : UnitId) (k : Nat) (q : QOp) : Bool :=
  let m := s.mesh i
  let w := winAt m k
  q.op.winOp == w.op && sectorsOk (meshRoute m w).sectors (s.rangesOf i u q)

/-- A head that takes a window it does not suit, or has none left, takes a deferred OPERAND trap; the window counts as
taken by the unit (R199). Answers the state and whether it trapped. -/
def State.bindHead (s : State) (i : Nat) (u : UnitId) : State × Bool :=
  let q := s.issue i u
  match q.queue.head? with
  | none => (s, false)
  | some h =>
    if h.op.winOp = 0 ∨ q.granted then (s, false)
    else
      match nextWin (s.mesh i) u q.wpos with
      | none => (s.unitFault i u h trOperand none, true)
      | some k =>
        if s.suits i u k h then (s, false)
        else ((s.setIssue i u { q with wpos := k + 1 }).unitFault i u h trOperand none, true)

/-- Bytes of the distinct lines of some ranges that fall in sector σ (R199). -/
def sectorBytes (rs : List (Nat × Nat)) (σ : Nat) : Nat :=
  let lines := (rs.map (fun r => (List.range ((r.1 + r.2 - 1) / 128 - r.1 / 128 + 1)).map (fun k => r.1 / 128 + k))).flatten
  128 * ((lines.filter (fun l => l % 16 == σ)).foldl (fun a l => insertNat l a) []).length

/-- Groups of its sectors that a window may use, by local index (R184). -/
def meshGroups (r : MeshRoute) : List Nat := (List.range 117).filter (fun l => if r.write then decide (79 ≤ l) else decide (1 ≤ l) && decide (l < 78))

/-- Cycles in which a sector's groups at full width, less those of the windows in progress, cannot carry window k, whose lines there hold
`bytes`: each uses a half-width group and holds the island for one more (R188). -/
def State.halfCycles (s : State) (i k σ bytes : Nat) : Nat :=
  let m := s.mesh i
  let w := winAt m k
  let r := meshRoute m w
  let full := ((meshGroups r).filter (fun l => s.fld (IS_BOND_GROUP_HALF i (195 * σ + l)) == 0)).length
  let busy := (((List.range m.wins.length).filter (fun x => x != k && m.done.get false x && decide ((winAt m x).start ≤ w.start) &&
    decide (w.start < (winAt m x).start + (winAt m x).len))).map (fun x => meshRoute m (winAt m x))).filter (fun q => q.write == r.write && bitOf q.sectors σ)
  let free := full - (busy.map (·.groups)).sum
  let flits := bytes / 32
  if r.groups ≤ free then 0 else flits / r.groups + (if free < flits % r.groups then 1 else 0)

/-- The cycles that half-width groups hold the island for window k (R188): sectors in step. -/
def State.halfHold (s : State) (i k : Nat) (rs : List (Nat × Nat)) : Nat :=
  if s.fld (IS_BOND_STAT_HALF_GROUPS i) = 0 then 0
  else ((bitList 16 (meshRoute (s.mesh i) (winAt (s.mesh i) k)).sectors).map (fun σ => s.halfCycles i k σ (sectorBytes rs σ))).foldl max 0

/-- Every scalar core of a window's units has retired FEND (R202). -/
def State.winDead (s : State) (i k : Nat) : Bool :=
  let m := s.mesh i
  (winUnits m (winAt m k)).all (fun u => s.scState ⟨Fin.ofNat 16 i, Fin.ofNat 8 (unitOwner u)⟩ == stFend)

/-- Skips window k: no data moves, EV_MESH_MISMATCH, SKIPPED counts (R202). -/
def State.skipWin (s : State) (i k : Nat) : State :=
  let m := s.mesh i
  ((s.setMesh i { m with done := m.done.set k true }).bump (IS_MESH_STAT_SKIPPED i) 1).raise 0x3004 i (srcIx 0 0) (k % 2 ^ 18)

/-- A unit holds window k's instruction: its head suits it and it is the unit's next, or it already took the window
in a trap (R199, R200). -/
def State.holds (s : State) (i k : Nat) (u : UnitId) : Bool :=
  let q := s.issue i u
  decide (k < q.wpos) ||
  (match q.queue.head? with
   | none => false
   | some h => !q.granted && nextWin (s.mesh i) u q.wpos == some k && s.suits i u k h)

/-- MESH_WINDOW_START (R200 to R202): window w of the island starts once t has reached its START and each of its units
holds its instruction; `held` cycles of the hold before it are counted, with those of half-width groups (R188). A window whose cores have all retired FEND is
skipped. The capacity test of R199 fails the window's instructions. After a halt the work already issued completes (R44). -/
def execMeshWindowStart (isl : Fin 16) (w held : Nat) (s : State) : Out :=
  let i := isl.val
  let m := s.mesh i
  let t := (s.tenOf i).getD 16
  let win := winAt m w
  let runs := s.fld (TN_STATE_STATE t) == 3
  if m.wins.length ≤ w ∨ m.done.get false w ∨ (!runs ∧ s.fld (TN_STATE_STATE t) ≠ 4) ∨
      (runs ∧ s.fld (TN_SLOT_PLAN_SLOT t) ≠ win.start / 800) ∨
      !(List.range m.wins.length).all (fun k => decide (win.start ≤ (winAt m k).start) || m.done.get false k) then .next s
  else if runs ∧ s.winDead i w then .next (s.skipWin i w)
  else
    let us := winUnits m win
    let s1 := us.foldl (fun s u => if decide (w < (s.issue i u).wpos) then s else (s.bindHead i u).1) s
    if !us.all (fun u => s1.holds i w u) then .next s1
    else
      let takers := us.filter (fun u => !decide (w < (s1.issue i u).wpos))
      let rs := (takers.map (fun u => match (s1.issue i u).queue.head? with
        | some h => s1.rangesOf i u h
        | none => [])).flatten
      let cap := win.len * (meshRoute m win).groups * 32
      let past := (List.range 16).any (fun σ => decide (cap < sectorBytes rs σ))
      let s2 := takers.foldl (fun s u =>
        let q := s.issue i u
        let s := s.setIssue i u { q with wpos := w + 1, granted := !past }
        match q.queue.head?, past with
        | some h, true => s.unitFault i u h trOperand none
        | _, _ => s) s1
      let m2 := s2.mesh i
      .next ((s2.setMesh i { m2 with done := m2.done.set w true, t := max m2.t win.start }).holdIsland i (held + if past then 0 else s1.halfHold i w rs))

/-- Runs the instruction at the head of a unit's queue; a deferred fault in place of its effect. -/
def State.runHead (s : State) (i : Nat) (u : UnitId) (h : QOp) : State :=
  let q := s.issue i u
  let pop (s : State) : State :=
    let s := s.leaveWin i u
    let q' := s.issue i u
    s.setIssue i u { q' with queue := q'.queue.tail, granted := false }
  match outside (s.rangesOf i u h) with
  | some a => s.unitFault i u h trAddress (some (BitVec.ofNat 64 a))
  | none =>
    match u, h.op with
    | .vec j, .vec op a x y seed step pos bad =>
      match s.runVec i j op a x y seed step pos bad with
      | (s, none) => pop s
      | (s, some ad) => s.unitFault i u h trAddress (some ad)
    | .array j, .wload b f sp ad =>
      match s.runWload i j b f sp ad.toNat with
      | (true, s) => pop s
      | (false, s) => s.unitFault i u h trOperand none
    | .array j, .mac b buf fa rows r0 ad st pre => pop (s.runMac i j b buf fa rows r0 ad.toNat st.toNat pre)
    | .array j, .scan b buf fa rows ad st ew => pop (s.runScan i j b buf fa rows ad.toNat st.toNat ew)
    | .array j, .anchor b v =>
      let x := s.arr i j
      let k := x.bank b
      let a : Option Int := if v.toNat % 4096 = 2048 then none else some (sext 12 v.toNat)
      pop (s.setArr i j (x.setBank b { k with anchor := a }))
    | .array j, .zero b =>
      let x := s.arr i j
      let s := s.setArr i j (x.setBank b (x.bank b).zeroed)
      let s := { s with flips := s.flips.filter (fun p => decide (p.1 < (FlipAt.acc i j b 0).key) || decide ((FlipAt.acc i j b 0).key + 32768 ≤ p.1)) }
      pop (s.armAcc i j b 0)
    | .array j, .drain b f first n ad st clr stoch rule1 seed step stream base bad =>
      pop (s.runDrain i j b f first n ad.toNat st.toNat clr stoch rule1 seed step stream base bad)
    | _, _ => s.setIssue i u { q with queue := q.queue.tail }

/-- UNIT_OP_EXECUTE (R108): the head of the queue executes; an instruction that moves data between the unit and the
shoal first needs its mesh window (R199, R200), without which the unit waits. -/
def execUnitOpExecute (isl : Fin 16) (u : UnitId) (s : State) : Out :=
  let i := isl.val
  let q := s.issue i u
  match q.queue.head? with
  | none => .next s
  | some h =>
    if !s.avail i then .next s
    else if h.op.winOp = 0 ∨ q.granted then .next (s.runHead i u h)
    else .next (s.bindHead i u).1

end Sys2Proof.Machine
end

