-- ==== Sys2Proof/Machine/Transfer.lean ====
section
/-!
DEFINITION. Transfer instructions (R155 to R165, R225) and the instruction fetch (R112 to R114).
-/
namespace Sys2Proof.Machine

open Sys2Proof

/-! ### Instruction fetch (R112 to R114) -/

/-- A line of the core's section enters the instruction cache, marked bad when uncorrectable or poisoned. A full set gives up a line of
its own (4 ways, 128 sets). -/
def State.icacheFill (s : State) (c : CoreId) (line : Nat) : State :=
  let a := s.progAddr c + 128 * line
  let (_, bad, s) := s.physLine (a / 128 * 128) reqCore
  let x := s.core c
  let set := x.icache.filter (fun e => e.1 % 128 == line % 128 && e.1 != line)
  let s1 := s.setCore c { x with icache := (if set.length < 4 then x.icache
    else x.icache.erase ((set.getD (Config.icacheVictim (line % 128) s.freeCtr % 4) (0, false)).1)).set line (!bad.isEmpty) }
  { s1 with freeCtr := s1.freeCtr + 1 }

/-- IFETCH_LINE_FILL (R113, R114, R300): a line of the core's section arrives; the line that pc stands in was a miss; a page that is
retired refuses the fetch. `flip`: the line is in the cache and a word of it has changed: one bit is corrected, an uncorrectable word
invalidates the line, which is fetched again. -/
def execIfetchLineFill (c : CoreId) (line : Nat) (flip : Option (BitVec 64 × BitVec 8)) (s : State) : Out :=
  let held := (s.core c).icache.any (fun e => e.1 == line)
  if (s.core c).sect ≤ 128 * line then .next s
  else
    match flip with
    | none =>
      if s.fetchRefused c line then .next (s.noteFetch c line)
      else .next ((if (s.core c).pc.toNat / 128 = line ∧ !held then s.bump (IS_SC_ICACHE_MISSES c.isl c.sc) 1 else s).icacheFill c line)
    | some (d, k) =>
      if !held then .next s
      else
        match Flip.report ⟨d, k⟩ false with
        | .good => .next s
        | .corrected => .next (s.bump (IS_SC_ICACHE_CORRECTED c.isl c.sc) 1)
        | .wrong _ => .next (s.bump (IS_SC_ICACHE_CORRECTED c.isl c.sc) 1)
        | _ =>
          let x := s.core c
          let s := (s.setCore c { x with icache := x.icache.erase line }).bump (IS_SC_ICACHE_REFETCHED c.isl c.sc) 1
          .next (if s.fetchRefused c line then s.noteFetch c line else s.icacheFill c line)

/-! ### Issue (R157 to R163) -/

/-- Adds a transfer to the core's queue (R163). -/
def State.addXfer (s : State) (c : CoreId) (kind : XKind) (cnt left : Nat) (status detail : Nat := 0) : State :=
  let x := s.core c
  s.setCore c { x with xfers := x.xfers ++ [{ no := x.issueNo, pc := x.pc, kind := kind, cnt := cnt, left := left, status := status, detail := detail }],
                       issueNo := x.issueNo + 1 }

/-- The queue of 32 transfers is full (R163). -/
def State.xfersFull (s : State) (c : CoreId) : Bool := decide (32 ≤ (s.core c).xfers.length)
def State.stallOn (s : State) (c : CoreId) : State := s.bump (IS_SC_STATUS_ISSUE_STALLS c.isl c.sc) 1

/-- XF.MOVE (R157). -/
def execXfMove (c : CoreId) (rd rs1 rs2 : Reg) (cnt : Fin 16) (s : State) : Out :=
  .next (issueWith c [.g rd, .g rs1, .g rs2] (fun s =>
    let x := s.core c
    let d := (x.gGet rd).toNat
    let a := (x.gGet rs1).toNat
    let n := (x.gGet rs2).toNat
    if d % 128 ≠ 0 ∨ a % 128 ≠ 0 ∨ n = 0 ∨ n % 128 ≠ 0 ∨ 2 ^ 32 ≤ n then .trap s trOperand 0
    else if !s.localSpanOk c.isl a n then .trap s trAddress (x.gGet rs1)
    else if !s.localSpanOk c.isl d n then .trap s trAddress (x.gGet rd)
    else if s.xfersFull c then .stall (s.stallOn c)
    else .done (s.addXfer c (.xfMove d a n) cnt 0)) s)

/-- The legs of a transfer, and its roles, for a logical island (R158). -/
def Plan.sends (p : Plan) (x j : Nat) : Bool := decide (x < p.xfers.length) && (p.xfer x).legs.any (fun l => (p.leg l).snd == j)
def Plan.receives (p : Plan) (x j : Nat) : Bool := decide (x < p.xfers.length) && (p.xfer x).legs.any (fun l => (p.leg l).rcv == j)

/-- ST.SEND (R158, R225). -/
def execStSend (c : CoreId) (rs1 : Reg) (xfer : BitVec 12) (cnt : Fin 16) (s : State) : Out :=
  .next (issueWith c [.g rs1] (fun s =>
    let t := (s.tenOf c.isl).getD 0
    let p := s.plan t
    let x := xfer.toNat
    let a := ((s.core c).gGet rs1).toNat
    let j := s.logicalOf t c.isl
    let r := s.xrun t x
    if !p.sends x j || (p.xfer x).src == 1 || r.send.any (fun e => e.1 == j) || decide (a % 128 ≠ 0) || decide (0x10000000000 ≤ a) then .trap s trOperand 0
    else if shoalSize < a + (p.xfer x).bytes then .trap s trAddress ((s.core c).gGet rs1)
    else if s.xfersFull c then .stall (s.stallOn c)
    else
      let no := (s.core c).issueNo
      .done ((s.addXfer c (.stSend a x) cnt 1).setXrun t x { r with send := r.send.set j ⟨coreKey c, no, a⟩ })) s)

/-- Bytes the region of ST.RECV holds (R225): a REDUCE's output, in its receiver's sum entry. -/
def State.recvBytes (s : State) (t x j : Nat) : Nat :=
  let e := (s.plan t).xfer x
  if e.kind = 2 then
    let m := (s.sums.get [] (t * 16 + j)).getD e.sum ⟨1, 8, 8, 0, 0, 0⟩
    e.bytes / suElBytes m.inFmt * suElBytes m.outFmt
  else e.bytes

/-- ST.RECV (R158, R225). -/
def execStRecv (c : CoreId) (rs1 : Reg) (xfer : BitVec 12) (cnt : Fin 16) (s : State) : Out :=
  .next (issueWith c [.g rs1] (fun s =>
    let t := (s.tenOf c.isl).getD 0
    let p := s.plan t
    let x := xfer.toNat
    let a := ((s.core c).gGet rs1).toNat
    let j := s.logicalOf t c.isl
    let r := s.xrun t x
    if !p.receives x j || r.recv.any (fun e => e.1 == j) || decide (a % 128 ≠ 0) then .trap s trOperand 0
    else if !s.localSpanOk c.isl a (s.recvBytes t x j) then .trap s trAddress ((s.core c).gGet rs1)
    else if s.xfersFull c then .stall (s.stallOn c)
    else
      let no := (s.core c).issueNo
      .done ((s.addXfer c (.stRecv a x) cnt 1).setXrun t x { r with recv := r.recv.set j ⟨coreKey c, no, a⟩ })) s)

/-- What R160 says of a module address and line count: 0 good, else the trap cause. -/
def State.fyCheck (s : State) (c : CoreId) (sh a n : Nat) : Nat :=
  let isl : Option (Nat × Bool) := match place a, place (a + 128 * n - 1) with
    | .hbm i _, .hbm j _ => if i = j then some (i, true) else none
    | .shoal i _, .shoal j _ => if i = j then some (i, false) else none
    | _, _ => none
  let own : Bool := match place a with
    | .hbm i _ => i == c.isl.val
    | .shoal i _ => i == c.isl.val
    | _ => false
  if n = 0 ∨ 64 < n ∨ sh % 128 ≠ 0 ∨ a % 128 ≠ 0 ∨ own then trOperand
  else
    match isl with
    | none => trAddress
    | some (i, _) =>
      if s.tenOf i = none ∨ s.tenOf i ≠ s.tenOf c.isl ∨ shoalSize < sh + 128 * n then trAddress else 0

/-- FY.RD (R160): one read request a line, each with its own tag. -/
def execFyRd (c : CoreId) (rd rs1 rs2 : Reg) (cnt : Fin 16) (s : State) : Out :=
  .next (issueWith c [.g rd, .g rs1, .g rs2] (fun s =>
    let x := s.core c
    let sh := (x.gGet rd).toNat
    let a := (x.gGet rs1).toNat
    let n := (x.gGet rs2).toNat
    let e := s.fyCheck c sh a n
    if e ≠ 0 then .trap s e (if e = trAddress then x.gGet rs1 else 0)
    else if s.xfersFull c ∨ s.ferryBusy c.isl (islOfLine a) n then .stall (s.stallOn c)
    else
      let no := x.issueNo
      let ps := (List.range n).map (fun k =>
        (({ typ := ptRdReq, vc := 0, src := c.isl, dst := islOfLine a, tile := false, addr := a + 128 * k } : Pkt), Waiter.xfer (coreKey c) no k))
      .done ((s.addXfer c (.fyRd sh a n) cnt n).request c.isl ps)) s)

/-- The write requests of `n` lines read from the shoal at `sh`: the packets' data, with the words that are poisoned. -/
def State.fyLines (s : State) (i sh a : Nat) : Nat → Nat → List (Nat × Nat × Nat) × List Nat × State
  | 0, _ => ([], [], s)
  | n + 1, k =>
    let (v, bad, s) := s.shoalRead i (sh + 128 * k) 128
    let (r, bs, s) := s.fyLines i sh a n (k + 1)
    ((a + 128 * k, v, poisonBits (sh + 128 * k) bad) :: r, bad ++ bs, s)

/-- FY.WR (R160, R164). -/
def execFyWr (c : CoreId) (rd rs1 rs2 : Reg) (cnt : Fin 16) (s : State) : Out :=
  .next (issueWith c [.g rd, .g rs1, .g rs2] (fun s =>
    let x := s.core c
    let sh := (x.gGet rd).toNat
    let a := (x.gGet rs1).toNat
    let n := (x.gGet rs2).toNat
    let e := s.fyCheck c sh a n
    if e ≠ 0 then .trap s e (if e = trAddress then x.gGet rs1 else 0)
    else if s.xfersFull c ∨ s.ferryBusy c.isl (islOfLine a) n then .stall (s.stallOn c)
    else
      let (ls, bad, s) := s.fyLines c.isl sh a n 0
      let no := x.issueNo
      let ps := (List.range n).map (fun k =>
        let l := ls.getD k (0, 0, 0)
        (({ typ := ptWrReq, vc := 0, src := c.isl, dst := islOfLine a, tile := false, addr := l.1, mask := fullMask, data := l.2.1, poison := l.2.2 } : Pkt),
          Waiter.xfer (coreKey c) no k))
      .done ((s.addXfer c (.fyWr sh a n) cnt n (if bad.isEmpty then 0 else xsPoison) (shoalBase c.isl + bad.headD 0)).request c.isl ps)) s)

/-! ### Fabric operations (R161, R162) -/

/-- Carries an FB operation: over the ferry, or by the own base tile, when the node is the own one (R161, R351, R421); else
over the fabric. `p`: the ferry packet. -/
def State.fbGo (s : State) (c : CoreId) (kind : XKind) (cnt node off : Nat) (write : Bool) (p : Pkt) (poison : Bool) (detail : Nat) : Act :=
  let no := (s.core c).issueNo
  let st := if poison then xsPoison else 0
  if s.xfersFull c then .stall (s.stallOn c)
  else if node = s.node then
    match s.ownNode off write with
    | .line a =>
      if s.ferryBusy c.isl (islOfLine a) 1 then .stall (s.stallOn c)
      else .done ((s.addXfer c kind cnt 1 st detail).request c.isl [({ p with dst := islOfLine a, addr := a }, .xfer (coreKey c) no 0)])
    | _ => .done (s.addXfer c kind cnt 0 (if st ≠ 0 then st else xsUnmapped) detail)
  else
    let t := (s.tenOf c.isl).getD 0
    let typ := if p.typ = ptRdReq then ftRdReq else if p.typ = ptWrReq then ftWrReq else ftAtomReq
    match s.originate { unit := c.isl, tbl := t, node := node, off := off, typ := typ, vc := 0, mask := p.mask, data := p.data, aop := p.aop,
                        poison := poison, who := .xfer (coreKey c) no 0 } with
    | .stall => .stall (s.stallOn c)
    | .noRoute s => .done (s.addXfer c kind cnt 0 xsUnreachable 0)
    | .sent s => .done (s.addXfer c kind cnt 1 st detail)

/-- FB.RD (R161). -/
def execFbRd (c : CoreId) (rd rs1 rs2 : Reg) (cnt : Fin 16) (s : State) : Out :=
  .next (issueWith c [.g rd, .g rs1, .g rs2] (fun s =>
    let x := s.core c
    let line := (x.gGet rd).toNat
    let node := (x.gGet rs1).toNat % 65536
    let off := (x.gGet rs2).toNat % 2 ^ 48
    if line % 128 ≠ 0 ∨ off % 128 ≠ 0 then .trap s trOperand 0
    else if shoalSize < line + 128 then .trap s trAddress (x.gGet rd)
    else s.fbGo c (.fbRd line node off) cnt node off false { typ := ptRdReq, vc := 0, src := c.isl, dst := 0, tile := false } false 0) s)

/-- FB.WR (R161): the byte mask is g[rs3] and g[rs3 + 1]. -/
def execFbWr (c : CoreId) (rd rs1 rs2 rs3 : Reg) (cnt : Fin 16) (s : State) : Out :=
  let hi : Reg := Fin.ofNat 32 (rs3.val + 1)
  .next (issueWith c [.g rd, .g rs1, .g rs2, .g rs3, .g hi] (fun s =>
    let x := s.core c
    let line := (x.gGet rd).toNat
    let node := (x.gGet rs1).toNat % 65536
    let off := (x.gGet rs2).toNat % 2 ^ 48
    let mask := (x.gGet rs3).toNat + (x.gGet hi).toNat * 2 ^ 64
    if line % 128 ≠ 0 ∨ off % 128 ≠ 0 ∨ rs3.val % 2 = 1 then .trap s trOperand 0
    else if shoalSize < line + 128 then .trap s trAddress (x.gGet rd)
    else
      let (v, bad, s) := s.shoalRead c.isl line 128
      s.fbGo c (.fbWr line node off (BitVec.ofNat 128 mask)) cnt node off true
        { typ := ptWrReq, vc := 0, src := c.isl, dst := 0, tile := false, mask := mask, data := v, poison := poisonBits line bad }
        (!bad.isEmpty) (shoalBase c.isl + bad.headD 0)) s)

/-- FB.ATOM (R162). -/
def execFbAtom (c : CoreId) (rd rs1 rs2 rs3 rs4 : Reg) (aop : BitVec 3) (s : State) : Out :=
  .next (issueWith c [.g rs1, .g rs2, .g rs3, .g rs4] (fun s =>
    let x := s.core c
    let node := (x.gGet rs1).toNat % 65536
    let off := (x.gGet rs2).toNat % 2 ^ 48
    let opnd := x.gGet rs3
    let cmp := x.gGet rs4
    if off % 8 ≠ 0 ∨ 5 < aop.toNat then .trap s trOperand 0
    else
      match s.fbGo c (.fbAtom rd node off aop.toNat opnd cmp) 0 node off true
        { typ := ptAtomReq, vc := 0, src := c.isl, dst := 0, tile := false, aop := aop.toNat, data := opnd.toNat + cmp.toNat * 2 ^ 64 } false 0 with
      | .done s2 =>
        let y := s2.core c
        .done (s2.setCore c { y with xfers := (x.overtake rd).xfers ++ y.xfers.drop x.xfers.length })
      | r => r) s)

/-! ### Completion (R155, R157, R164) -/

/-- Moves the lines of an XF.MOVE in ascending order; a refused line ends it, with that status whatever came before (R157). `page`: the line's page is written whole (R289). -/
def State.moveLines (s : State) (c : CoreId) (page : Nat → Bool) : Nat → Nat → Nat → Nat × Nat × State
  | 0, _, _ => (0, 0, s)
  | n + 1, d, a =>
    match s.localPhys c.isl a, s.localPhys c.isl d with
    | some pa, some pd =>
      let (v, bad, s) := s.physLine pa reqMove
      let s := s.physLineStore (page d) pd v fullMask reqMove (fun w => bad.contains (pa + 8 * w))
      let (st, det, s) := s.moveLines c page n (d + 128) (a + 128)
      if bad.isEmpty || st == xsUnmapped then (st, det, s) else (xsPoison, bad.headD 0, s)
    | some _, none => (xsUnmapped, 0, s.noteRefused c.isl d reqMove)
    | none, _ => (xsUnmapped, 0, s.noteRefused c.isl a reqMove)

/-- TRANSFER_COMPLETE (R155, R157, R164): an XF.MOVE copies its lines; any other transfer has no line outstanding. -/
def execTransferComplete (c : CoreId) (no : Nat) (s : State) : Out :=
  match (s.core c).xfers.find? (fun x => x.no == no) with
  | none => .next s
  | some x =>
    match x.kind with
    | .xfMove d a n =>
      let (st, det, s) := s.moveLines c (coversPage d n) (n / 128) d a
      .next (s.finishXfer c (x.fail st det))
    | _ => if x.left = 0 then .next (s.finishXfer c x) else .next s

/-- One line of a ferry transfer has been answered (R164, R246): a read line is written to the shoal, whole with the
poison marking when the source was poisoned. -/
def State.xferLine (s : State) (core no line status data : Nat) : State :=
  let c := coreOf core
  match (s.core c).xfers.find? (fun x => x.no == no) with
  | none => s
  | some x =>
    let put (s : State) (o : Nat) : State := s.shoalWrite c.isl o (leBytes 128 data) (fun _ => status == fsPoison)
    let ok := status == fsOk || status == fsPoison
    let (src, s) : Nat × State := match x.kind with
      | .fyRd d a _ => (a + 128 * line, if ok && s.present c.isl then put s (d + 128 * line) else s)
      | .fbRd d _ off => (off, if ok && s.present c.isl then put s d else s)
      | .fyWr _ a _ => (a + 128 * line, s)
      | .fbWr _ _ off _ => (off, s)
      | .fbAtom _ _ off _ _ _ => (off, s)
      | _ => (0, s)
    s.mapXfer c no (fun x => { (if status = 0 then x else x.fail status src) with left := x.left - 1, val := BitVec.ofNat 64 data })

end Sys2Proof.Machine
end

