-- ==== Sys2Proof/Machine/Sync.lean ====
section
/-!
DEFINITION. Synchronisation and frame control (R166 to R174, R178, R202): waits, releases and their retirement.
-/
namespace Sys2Proof.Machine

open Sys2Proof

/-- The core waits; its pc stays at the waiting instruction until it retires. -/
def State.waitOn (s : State) (c : CoreId) (w : Nat → Wait) : Act :=
  let x := s.core c
  .jump (s.setCore c { x with wait := w x.issueNo, issueNo := x.issueNo + 1 }) x.pc

/-- The waiting instruction retires: the core goes on at pc + 8. -/
def State.retire (s : State) (c : CoreId) : State :=
  let x := s.core c
  s.setCore c { x with wait := .none, pc := x.pc + 8 }

/-- Units of the command group of a core. -/
def coreUnits (n : Nat) (arrays vcs : Nat) : List UnitId := (groupArrays n arrays).map .array ++ (groupVecs n vcs).map .vec

/-- Every instruction the core issued to these units before `before` has completed (R166). -/
def State.unitsClear (s : State) (c : CoreId) (arrays vcs before : Nat) : Bool :=
  (coreUnits c.sc arrays vcs).all (fun u => (s.issue c.isl u).clearBefore before)

def XKind.inSync : XKind → Bool
  | .xfMove _ _ _ => true
  | .stRecv _ _ => true
  | .fyRd _ _ _ => true
  | .fbRd _ _ _ => true
  | _ => false
def XKind.inFend : XKind → Bool
  | .xfMove _ _ _ => true
  | .stRecv _ _ => true
  | .stSend _ _ => true
  | _ => false
/-- Carried over the ferry: FY operations, and FB operations on the own node (R161, R168). -/
def XKind.onFerry (node : Nat) : XKind → Bool
  | .fyRd _ _ _ => true
  | .fyWr _ _ _ => true
  | .fbRd _ n _ => n == node
  | .fbWr _ n _ _ => n == node
  | .fbAtom _ n _ _ _ _ => n == node
  | _ => false
def XKind.onFabric (node : Nat) (k : XKind) : Bool :=
  match k with
  | .fbRd _ n _ => n != node
  | .fbWr _ n _ _ => n != node
  | .fbAtom _ n _ _ _ _ => n != node
  | _ => false

/-- No transfer of the kind, issued before `before`, is still to complete. -/
def Core.xfersClear (x : Core) (sel : XKind → Bool) (before : Nat) : Bool :=
  x.xfers.all (fun y => decide (before ≤ y.no) || !sel y.kind)

/-! ### SYNC, WAITC, FENCE (R166 to R169) -/

def execSync (c : CoreId) (arrays : BitVec 8) (vcs : BitVec 4) (xfer : Bool) (s : State) : Out :=
  .next (issueWith c [] (fun s =>
    if arrays = 0 ∧ vcs = 0 ∧ !xfer then .trap s trOperand 0
    else s.waitOn c (fun n => .sync arrays vcs xfer n)) s)

/-- SYNC_RETIRE (R166). -/
def execSyncRetire (c : CoreId) (s : State) : Out :=
  match (s.core c).wait with
  | .sync a v x before =>
    if s.unitsClear c a.toNat v.toNat before && (!x || (s.core c).xfersClear XKind.inSync before) then .next (s.retire c) else .next s
  | _ => .next s

def execWaitc (c : CoreId) (cnt : Fin 16) (rs1 : Reg) (s : State) : Out :=
  .next (issueWith c [.g rs1] (fun s =>
    let v := ((s.core c).gGet rs1).setWidth 32
    s.waitOn c (fun _ => .waitc cnt v)) s)

/-- WAITC_RETIRE (R167): (counter − value) mod 2^32 is below 2^31; the counter is read through the checker (R110). -/
def execWaitcRetire (c : CoreId) (s : State) : Out :=
  match (s.core c).wait with
  | .waitc k v =>
    let (n, s) := s.hwRead c (0x040 + k)
    let n : BitVec 32 := n.setWidth 32 - v
    if n.toNat < 2 ^ 31 then .next (s.retire c) else .next s
  | _ => .next s

def execFence (c : CoreId) (fabric ferry : Bool) (s : State) : Out :=
  .next (issueWith c [] (fun s =>
    if !fabric && !ferry then .trap s trOperand 0
    else s.waitOn c (fun n => .fence fabric ferry n s.now)) s)

/-- FENCE_COMPLETE (R168): each covered request has been acknowledged once, or has completed with a status. -/
def execFenceComplete (c : CoreId) (s : State) : Out :=
  match (s.core c).wait with
  | .fence fab fy before _ =>
    let covered (k : XKind) : Bool := (fy && k.onFerry s.node) || (fab && k.onFabric s.node)
    if (s.core c).xfers.all (fun y => decide (before ≤ y.no) || !covered y.kind || y.left == 0) then .next (s.retire c) else .next s
  | _ => .next s

/-- FENCE limit in module slot ticks (R156, R169). -/
def fenceTicks (limit : Word) : Nat := if limit = 0 then 10000 else limit.toNat

/-- FENCE_TIMEOUT (R169): after cw.fence_limit module slot ticks a precise trap with cw.tpc at the FENCE; the word is read through the
checker (R110). -/
def execFenceTimeout (c : CoreId) (s : State) : Out :=
  match (s.core c).wait with
  | .fence _ _ _ since =>
    let (l, s) := s.hwRead c cwFenceLimit
    if since + fenceTicks l ≤ s.now then .next (s.preciseTrap c trFence) else .next s
  | _ => .next s

/-! ### Flags and barriers (R170 to R173) -/

/-- An address of a 64-bit word in the flag space of an island of the core's tenancy (R170): 0, else the trap cause. -/
def State.flagCheck (s : State) (c : CoreId) (a : Nat) (own : Bool) : Nat :=
  match place a with
  | .flag i _ =>
    if (if own then i ≠ c.isl.val else s.tenOf i = none ∨ s.tenOf i ≠ s.tenOf c.isl) then trAddress
    else if a % 8 ≠ 0 then trAlign else 0
  | _ => trAddress

/-- FLAG.SET and FLAG.ADD: the signal is kept until it may be sent. -/
def flagSignal (c : CoreId) (kind : Nat) (rs1 rs2 : Reg) (s : State) : State :=
  issueWith c [.g rs1, .g rs2] (fun s =>
    let x := s.core c
    let a := x.gGet rs1
    let e := s.flagCheck c a.toNat false
    if e ≠ 0 then .trap s e a
    else .done (s.setCore c { x with rels := x.rels ++ [⟨x.issueNo, kind, a.toNat, x.gGet rs2⟩], issueNo := x.issueNo + 1 })) s

def execFlagSet (c : CoreId) (rs1 rs2 : Reg) (s : State) : Out := .next (flagSignal c 0 rs1 rs2 s)
def execFlagAdd (c : CoreId) (rs1 rs2 : Reg) (s : State) : Out := .next (flagSignal c 1 rs1 rs2 s)

/-- A release may send its signal: everything the core issued before it has completed and been acknowledged, and every
earlier signal has gone (R173, R176). -/
def State.mayRelease (s : State) (c : CoreId) (no : Nat) : Bool :=
  s.unitsClear c 255 15 no && (s.core c).xfersClear (fun _ => true) no && (s.core c).rels.all (fun r => decide (no ≤ r.no))

/-- The tile of a flag word. -/
def flagTile (a : Nat) : Nat := (a - flagBase 0) / 0x100000

/-- A signal on channel VC2 from the core's island, island origin (R170, R172, R241). -/
def State.sendSignal (s : State) (i typ a data : Nat) : State :=
  s.postPkts i [{ typ := typ, vc := 2, src := i, dst := flagTile a, tile := false, addr := a, data := data }]

/-- RELEASE_SIGNAL_SEND (R172, R173): the signal of FLAG.SET, FLAG.ADD or BARRIER number `no` goes; it waits while the ferry queues of its
tile are full (R255). -/
def execReleaseSignalSend (c : CoreId) (no : Nat) (s : State) : Out :=
  let x := s.core c
  if !s.mayRelease c no then .next s
  else
    match x.rels.find? (fun r => r.no == no) with
    | some r =>
      if s.ferryBusy c.isl (flagTile r.addr) 0 then .next s
      else
      let s := s.setCore c { x with rels := x.rels.filter (fun y => y.no != no) }
      .next (s.sendSignal c.isl (if r.kind = 0 then ptFlagSet else ptFlagAdd) r.addr r.val.toNat)
    | none =>
      match x.wait with
      | .barrier a n before false =>
        if before = no ∧ !s.ferryBusy c.isl (flagTile a) 0 then .next ((s.setCore c { x with wait := .barrier a n before true }).sendSignal c.isl ptBarArrive a n)
        else .next s
      | _ => .next s

def execFlagWait (c : CoreId) (rs1 rs2 : Reg) (rel : BitVec 2) (s : State) : Out :=
  .next (issueWith c [.g rs1, .g rs2] (fun s =>
    let x := s.core c
    let a := x.gGet rs1
    let v := x.gGet rs2
    let e := s.flagCheck c a.toNat true
    if rel = 3 then .trap s trOperand 0
    else if e ≠ 0 then .trap s e a
    else s.waitOn c (fun _ => .flagWait a.toNat v rel.toNat (flagHolds rel.toNat (s.peek a.toNat 8) v.toNat))) s)

/-- FLAG_WAIT_RETIRE (R171): the condition held at issue or at a change of the word. -/
def execFlagWaitRetire (c : CoreId) (s : State) : Out :=
  match (s.core c).wait with
  | .flagWait _ _ _ true => .next (s.retire c)
  | _ => .next s

def execBarrier (c : CoreId) (rs1 : Reg) (count : BitVec 8) (s : State) : Out :=
  .next (issueWith c [.g rs1] (fun s =>
    let a := (s.core c).gGet rs1
    let e := s.flagCheck c a.toNat false
    if count = 0 ∨ 128 < count.toNat then .trap s trOperand 0
    else if e ≠ 0 then .trap s e a
    else s.waitOn c (fun n => .barrier a.toNat count.toNat n false)) s)

/-! ### FEND (R174, R202) -/

def execFend (c : CoreId) (s : State) : Out := .next (issueWith c [] (fun s => s.waitOn c (fun n => .fend n)) s)

/-- Windows that can no longer be taken are skipped, with EV_MESH_MISMATCH (R202). -/
def State.skipWindows (s : State) (i : Nat) : State :=
  (List.range (s.mesh i).wins.length).foldl (fun s w =>
    if (s.mesh i).done.get false w || !s.winDead i w then s else s.skipWin i w) s

/-- FEND_RETIRE (R174): the core's array and vector instructions and its XF.MOVE, ST.SEND and ST.RECV have completed; it
issues nothing more until its next frame start. -/
def execFendRetire (c : CoreId) (s : State) : Out :=
  match (s.core c).wait with
  | .fend before =>
    if s.unitsClear c 255 15 before && (s.core c).xfersClear XKind.inFend before then
      .next (((s.retire c).setScState c stFend).skipWindows c.isl)
    else .next s
  | _ => .next s

/-- A tenancy halt abandons what waits, and the releases not yet sent (R178). -/
def State.abandonCore (s : State) (c : CoreId) : State :=
  let x := s.core c
  s.setCore c { x with wait := .none, rels := [], pend := none, xfers := x.xfers.filter (fun y => match y.kind with
    | .stSend _ _ => false
    | .stRecv _ _ => false
    | _ => true) }

end Sys2Proof.Machine
end

