-- ==== Sys2Proof/Machine/Respond.lean ====
section
/-!
DEFINITION. Who a response goes to: ferry responses by their tag's waiter (R247, R250), fabric responses by what the
request was for (R164, R319, R363, R366, R367, R374).
-/
namespace Sys2Proof.Machine

open Sys2Proof

/-- The mailbox's request ends with STATUS `st`; a read that came back takes its word of the line (R374). -/
def State.mboxEnd (s : State) (st : Nat) (line : Option Nat) : State :=
  let s1 := { (s.setFld FB_MBOX_CTL_BUSY 0).setFld FB_MBOX_CTL_STATUS st with mbox := none }
  match s.mbox, line with
  | some q, some v =>
    let n := if q.wide then 8 else 4
    if q.write then s1 else s1.setFld FB_MBOX_DATA_DATA (v / 256 ^ (q.off % 128 / n * n) % 256 ^ n)
  | _, _ => s1

/-- A ferry response reaches its waiter (R250): `status` as R246, `poison` by word. -/
def State.respond (s : State) (w : Waiter) (status data poison : Nat) : State :=
  match w with
  | .xfer core no line => s.xferLine core no line status data
  | .dmaRead ch seq => (s.dmaBack ch seq (ferryReason status) data).dmaGo ch
  | .dmaWrite ch seq => (s.dmaBack ch seq (ferryReason status) data).dmaGo ch
  | .dmaSignal ch => s.dmaSignalled ch
  | .host port req line =>
    if status = fsOk ∨ status = fsPoison then s.emit (.barData port req line status data) else s.emit (.barRefused port req)
  | .hostWrite _ => s
  | .repair ten leg seg lane _ => s.repairAck ten leg seg lane (poison != 0)
  | .kv b seq => (s.kvBack b seq (if status = fsPoison then 0 else ferryReason status) (data + 2 ^ 1024 * poison)).kvGo b
  | .mbox => s.mboxEnd (if status = fsOk then 0 else 9) (if status = fsOk then some data else none)
  | .gone _ => s

/-! ### Fabric completions (R366, R367) -/

/-- Status of cw.xerr, halt reason of a DMA channel and mailbox STATUS of a fabric request's end. -/
structure FEnd where
  xerr : Nat
  dma : Nat
  mbox : Nat
  deriving DecidableEq, Repr

/-- The end a final NACK code gives (R366). -/
def FEnd.ofCode (code : Nat) : FEnd :=
  match code with
  | 1 => ⟨xsUnmapped, drAddress, 1⟩
  | 2 => ⟨xsUnmapped, drRemote, 2⟩
  | 3 => ⟨xsReset, drReset, 3⟩
  | 8 => ⟨xsUnknown, drRemote, 8⟩
  | c => ⟨xsUnreachable, drRemote, c⟩
def FEnd.ok : FEnd := ⟨0, 0, 0⟩
def FEnd.poison : FEnd := ⟨xsPoison, drPoison, 0⟩
/-- Retries exhausted: a read or write, an atomic (R363, R367). -/
def FEnd.unreachable : FEnd := ⟨xsUnreachable, drRemote, 0xFF⟩
def FEnd.unknown : FEnd := ⟨xsUnknown, drRemote, 0xFF⟩

/-- A fabric request ends for its waiter. `tag` names an atomic held UNKNOWN. -/
def State.fabricEnd (s : State) (w : Waiter) (e : FEnd) (tag data : Nat) : State :=
  match w with
  | .xfer core no line =>
    if e.xerr = xsUnknown then s.mapXfer (coreOf core) no (fun x => { x.fail xsUnknown tag with left := x.left - 1 })
    else s.xferLine core no line e.xerr data
  | .dmaRead ch seq => (s.dmaBack ch seq e.dma data).dmaGo ch
  | .dmaWrite ch seq => (s.dmaBack ch seq e.dma data).dmaGo ch
  | .mbox => s.mboxEnd e.mbox (if e.xerr = 0 then some data else none)
  | _ => s

end Sys2Proof.Machine
end

