-- ==== Sys2Proof/Machine/Halt.lean ====
section
/-!
DEFINITION. Tenancies' pending halts (R35, R50, R539, R545) and an island's going down (R451, R452).
-/
namespace Sys2Proof.Machine

open Sys2Proof

def State.run (s : State) (t : Nat) : TenRun := s.runs.get {} t
def State.setRun (s : State) (t : Nat) (r : TenRun) : State := { s with runs := s.runs.set t r }

def tnCreated : Nat := 1
def tnLoaded : Nat := 2
def tnRunning : Nat := 3
def tnHalted : Nat := 4
def State.tn (s : State) (t : Nat) : Nat := s.fld (TN_STATE_STATE t)
def State.running (s : State) (t : Nat) : Bool := s.tn t == tnRunning
def State.runningTens (s : State) : List Nat := (List.range 16).filter s.running

def hkClean : Nat := 1
def hkBoundary : Nat := 2
def hkTick : Nat := 3

/-- A halt of a running tenancy is set to act (R50). -/
def State.pendHalt (s : State) (t kind code : Nat) : State :=
  if s.running t then s.setRun t { s.run t with halts := (s.run t).halts ++ [⟨kind, code⟩] } else s

/-- A halt of this kind has been overtaken (R51): an equal or stronger one is pending. A clean halt is never overtaken by
one that prevents commit (R35). -/
def State.overtaken (s : State) (t kind : Nat) : Bool :=
  (s.run t).halts.any (fun h => if kind = hkClean then h.kind == hkClean else decide (kind ≤ h.kind))

/-- Registers of an island's IS_ block that a reset of its dies returns to their reset values: all but its straps, its fence record,
its clock record and its bonds' spares and half widths. -/
def State.clearIsRegs (s : State) (i : Nat) : State :=
  let lo := (0x2000000 + i * 0x100000) * 64
  let keep (k : Nat) : Bool := decide (k < lo) || decide (lo + 0x100000 * 64 ≤ k) ||
    (let o := (k - lo) / 64; o == 0x810 || o == 0xA00 || o == 0xA18 || o == 0xB00)
  { s with regs := s.regs.filter (fun e => keep e.1) }.setFld (IS_BOND_STAT_REPLAYS i) 0

/-- The compute die of island i loses its state (R449, R453). -/
def State.clearDie (s : State) (i : Nat) : State :=
  { s.clearIsRegs i with
    cores := s.cores.filter (fun e => e.1 / 8 != i),
    arrays := s.arrays.filter (fun e => e.1 / 64 != i),
    vcores := s.vcores.filter (fun e => e.1 / 32 != i),
    meshes := s.meshes.erase i,
    bonds := s.bonds.filter (fun e => e.1 / 4096 != i) }

/-- The shoal of island i is zeroed (R453, R426). -/
def State.zeroShoal (s : State) (i : Nat) : State :=
  let out (a : Nat) : Bool := !(decide (shoalBase i ≤ a) && decide (a < shoalBase i + shoalSize))
  { s with mem := s.mem.filter (fun c => out c.1), poison := s.poison.filter (fun c => out c.1), flips := s.flips.filter (fun c => out c.1) }

/-- Every word of the shoal has been written: an armed pattern takes the word of lowest offset of its sector (R296). -/
def State.armShoal (s : State) (i : Nat) : State := (List.range 16).foldl (fun (s : State) σ => s.armIs i 1 σ (.mem (shoalBase i + 128 * σ))) s

/-- The lock of the island's 16 region clocks (R444, R453). -/
def State.pllLocked (s : State) (i v : Nat) : State := (List.range 16).foldl (fun s r => s.setFld (IS_CLK_REGION_PLL_LOCKED i r) v) s

/-- The bonds and queues of island i are trained (R445, R446): delay lines and read points are set anew, and stay in service. -/
def State.train (s : State) (i : Nat) : State := { s with trained := s.trained.set i s.freeCtr, freeCtr := s.freeCtr + 1 }
/-- The delay line of bond group g of island i, in taps of 2 ps (R446). -/
def State.delayTap (s : State) (i g : Nat) : Nat := (Config.delayTap (i * 4096 + g) (s.trained.get 0 i)).toNat

/-- The calibration of a rejoin (R445, R447, R453): clocks locked, read points set, no voltage step, margins counted anew. -/
def State.calibrated (s : State) (i : Nat) : State :=
  let s := s.train i
  (List.range 16).foldl (fun s r => ((s.setFld (IS_CLK_REGION_VSTEPS i r) 0).setFld (IS_CLK_REGION_MIN_MARGIN i r) 255).setFld (IS_CLK_REGION_DRIFT i r) 0)
    (s.pllLocked i 1)

/-- The base tile acts on the island at once (R451): vertical ports clamped, ISLAND_PRESENT dropped, the island masked. -/
def State.islandDown (s : State) (i : Nat) : State :=
  let s : State := { s with freqs := s.freqs.map (fun (e : Nat × FReq) => (e.1, { e.2 with who := e.2.who.fallen i })) }
  (((s.maskIsland i).clearDie i).pllLocked i 0).setFldBit LH_RESET_STAT_DOWN i true

def State.setRejoin (s : State) (i : Nat) (r : Rejoin) : State := { s with rejoins := s.rejoins.set i r }

/-- A lowering of the tenancy's operating point is called for (R46, R447, R483). -/
def State.callLower (s : State) (t : Nat) : State := s.setRun t { s.run t with lower := true }

/-- An orderly stop of island i (R479): cause as BT_TH_STAT.STOP_CAUSE, temperature in 0.1 °C. -/
def State.orderlyStop (s : State) (i cause src : Nat) (temp : Int) : State :=
  ((s.setFld (BT_TH_STAT_STOP_CAUSE i) cause).setFld (BT_TH_ILIM_LIMIT i) 500).raise 0x1001 i src (cause + wrap 16 temp * 2 ^ 8)

end Sys2Proof.Machine
end

