-- ==== Sys2Proof/Machine/Degrade.lean ====
section
/-!
DEFINITION. Degradation and repair in service (19), with the bond groups of 07 and the island rules of 17: ladders of
bonds, lanes, planes and comb chiplets; fences, resets and rejoins; the tide keepers.
-/
namespace Sys2Proof.Machine

open Sys2Proof

/-! ### Fences, resets, rejoins (R451, R453, R498, R499, R512, R513) -/

/-- The event of a fence; the fence acts at its sampling (R498). -/
def State.askFence (s : State) (i cause : Nat) : State := s.raise 0x2003 i (srcIx 0 0) cause

/-- The fence acts (R498): the island goes down, its pending repairs are discarded, no rejoin follows. -/
def State.fence (s : State) (i cause : Nat) : State :=
  if s.fldBit LH_FENCE_FENCED i then s
  else
    let s := if s.fldBit LH_RESET_STAT_DOWN i then s else s.islandDown i
    let s := ((s.setFld (IS_FENCE_CAUSE i) cause).setFldBit LH_FENCE_FENCED i true).setAvail i false
    { s with rejoins := s.rejoins.erase i,
             repairs := (s.repairs.map (fun r => { r with isls := putBits r.isls i 1 0 })).filter (fun r => r.isls != 0) }

/-- FENCE_REQUEST (R498): a management write of LH_FENCE.REQUEST. -/
def State.fenceRequest (s : State) (mask : Nat) : State := (bitList 16 mask).foldl (fun s i => s.askFence i 6) s
def execFenceRequest (mask : BitVec 16) (s : State) : Out := .next (s.fenceRequest mask.toNat)

/-- ISLAND_RESET (R449, R451): the islands of a write of LH_RESET.ISLAND. -/
def State.islandReset (s : State) (mask : Nat) : State :=
  (bitList 16 mask).foldl (fun s i =>
    if s.fldBit LH_FENCE_FENCED i then s
    else
      -- an island powered down for its heat still waits until it is cool (R481)
      let hot := (s.rejoins.get { since := 0 } i).thermal
      ((((s.islandDown i).setFld (IS_CLK_STAT_CLOCK_LOST i) 0).setFld (IS_CLK_STAT_DRIFTED i) 0).setRejoin i { since := s.now, thermal := hot }).raise
        0x2001 i (srcIx 0 0) 0) s
def execIslandReset (mask : BitVec 16) (s : State) : Out := .next (s.islandReset mask.toNat)

/-- Losses of the last 600 s. -/
def State.losses600 (s : State) (i : Nat) : List Nat := (s.losses.get [] i).filter (fun t => s.now - t < 600 * second)

/-- The island loses its clock (R451): by its edges or by drift; a third loss within 600 s fences it (R498, R513). -/
def State.clockLoss (s : State) (i : Nat) (drift : Bool) : State :=
  if s.fldBit LH_FENCE_FENCED i ∨ s.fldBit LH_RESET_STAT_DOWN i then s
  else
    let ls := s.losses600 i ++ [s.now]
    let s := { s.islandDown i with losses := s.losses.set i ls }
    let s := ((s.setFld (IS_CLK_STAT_CLOCK_LOST i) (if drift then 0 else 1)).setFld (IS_CLK_STAT_DRIFTED i) (if drift then 1 else 0)).setFld
      (IS_FENCE_LOSSES_600S i) (min ls.length 15)
    let s := (s.setRejoin i { since := s.now }).raise 0x2002 i (srcIx 0 0) (if drift then 1 else 0)
    if 3 ≤ ls.length then s.askFence i 4 else s

/-- ISLAND_CLOCK_LOSS (R451). -/
def execIslandClockLoss (i : Fin 16) (s : State) : Out := .next (s.clockLoss i false)

/-- QUEUE_DRIFT (R445): the worst drift of region r's crossings, in eighths of a cycle; beyond ±12 the clock is lost. -/
def execQueueDrift (i r : Fin 16) (drift : BitVec 8) (s : State) : Out :=
  let s := s.setFld (IS_CLK_REGION_DRIFT i r) drift.toNat
  .next (if 12 < drift.toInt ∨ drift.toInt < -12 then s.clockLoss i true else s)

/-- ISLAND_REJOIN (R453, R512, R513): the steps have ended, or step `failed` failed; the island rejoins 300 ms after it
began, with its tenancy not running. -/
def execIslandRejoin (i : Fin 16) (failed : Fin 6) (s : State) : Out :=
  match s.rejoins.find? (fun e => e.1 == i.val) with
  | none => .next s
  | some (_, r) =>
    if r.thermal ∨ r.retry then .next s
    else if failed ≠ 0 then
      let s := (s.setFld (IS_FENCE_REJOIN_FAILED i) 1).raise 0x2004 i (srcIx 0 0) failed
      if 1 ≤ r.tries then .next ({ s with rejoins := s.rejoins.erase i }.askFence i 5)
      else .next (s.setRejoin i { r with since := s.now, tries := r.tries + 1, retry := true })
    else if s.now - r.since < ms 300 ∨ ((s.tenOf i).any s.running) = true then .next s
    else
      let s := { (((s.zeroShoal i).armShoal i).calibrated i).setPresent i true with
        rejoins := s.rejoins.erase i, repairs := s.repairs.filter (fun x => !(x.isls == 2 ^ i.val && (match x.kind with | .vstep _ _ => true | _ => false))) }
      let s := ((s.setFldBit LH_RESET_STAT_DOWN i false).setAvail i true).setFld (IS_FENCE_REJOIN_FAILED i) 0
      .next (s.raise 0x700C i (srcIx 0 0) 0)

/-- REJOIN_RETRY (R513): one second after the failure. -/
def execRejoinRetry (i : Fin 16) (s : State) : Out :=
  match s.rejoins.find? (fun e => e.1 == i.val) with
  | some (_, r) => if r.retry ∧ ms 1000 ≤ s.now - r.since then .next (s.setRejoin i { r with since := s.now, retry := false }) else .next s
  | none => .next s

/-- THERMAL_REJOIN_READY (R481): every sensor cool for 1 s. -/
def execThermalRejoinReady (i : Fin 16) (s : State) : Out :=
  match s.rejoins.find? (fun e => e.1 == i.val) with
  | some (_, r) =>
    match r.thermal, r.cool with
    | true, some t => if ms 1000 ≤ s.now - t then .next (s.setRejoin i { r with since := s.now, thermal := false }) else .next s
    | _, _ => .next s
  | none => .next s

/-- MARGIN_LOW (R447, R448): region r of island i reports its margin in ps. -/
def execMarginLow (i r : Fin 16) (margin : BitVec 8) (s : State) : Out :=
  let m := margin.toNat
  let s := (s.setFld (IS_CLK_REGION_MARGIN i r) m).setFld (IS_CLK_REGION_MIN_MARGIN i r) (min m (s.fld (IS_CLK_REGION_MIN_MARGIN i r)))
  let waiting := (s.repairs.filter (fun x => x.kind == .vstep i r)).length
  if 20 ≤ m then .next s
  else if 10 ≤ m ∧ s.fld (IS_CLK_REGION_VSTEPS i r) + waiting < 6 then
    .next { s with repairs := s.repairs ++ [⟨.vstep i r, 2 ^ i.val, s.now⟩] }
  else
    let s := (s.bump (IS_CLK_STAT_LOWERINGS i) 1).raise 0x5006 i (srcIx 0 0) (r.val + m * 2 ^ 8)
    match s.tenOf i with
    | some t => .next ((s.callLower t).setRun t { (s.callLower t).run t with hold := 4096 })
    | none => .next s

/-! ### Repairs taking force (R491 to R494) -/

/-- A tenancy's plan uses the plane port of one of its islands (R230). -/
def State.usesPort (s : State) (t i plane : Nat) : Bool :=
  s.fldBit (TN_ISLANDS_ISLANDS t) i &&
  (s.plan t).legs.any (fun e => decide (e.plane0 ≤ plane) && decide (plane < e.plane0 + e.planes) && (s.physOf t e.snd == i || s.physOf t e.rcv == i))

/-- A degraded element is in force for tenancy t (R494). -/
def State.degraded (s : State) (t : Nat) : Bool :=
  (s.tnIslands t).any (fun i => decide (0 < s.fld (IS_FENCE_LASTING_HALF i)) ||
    (List.range 64).any (fun p => decide (s.fld (BT_ST_PORT_WIDTH i p) < 16) && s.usesPort t i p))

/-- EV_TIMING_DEGRADED, once, when the first degraded element takes force for the tenancy. -/
def State.noteDegraded (s : State) (t : Nat) : State :=
  let now := s.degraded t
  let was := (s.run t).degraded
  let s := s.setRun t { s.run t with degraded := now }
  let s := if now then s.setFld (TN_DET_DEGRADED t) 1 else s
  if was ∨ !now then s
  else
    let j := (s.tnIslands t).headD 0
    let i := ((s.tnIslands t).find? (fun i => decide (0 < s.fld (IS_FENCE_LASTING_HALF i)) ||
      (List.range 64).any (fun p => decide (s.fld (BT_ST_PORT_WIDTH i p) < 16) && s.usesPort t i p))).getD j
    s.raise 0x5003 i (srcIx 0 0) 0

/-- A repair takes force at island i. -/
def State.applyRep (s : State) (i : Nat) : RepKind → State
  | .bond _ g =>
    let s := if s.fld (IS_BOND_GROUP_INTERIM i g) = 1 then (s.setFld (IS_BOND_GROUP_HALF i g) 0).setFld (IS_BOND_STAT_HALF_GROUPS i)
      (s.fld (IS_BOND_STAT_HALF_GROUPS i) - 1) else s
    (((s.incFld (IS_BOND_GROUP_SPARES i g) 1).setFld (IS_BOND_GROUP_INTERIM i g) 0).setFld (IS_BOND_GROUP_HEALTH i g) 0).incFld (IS_BOND_STAT_SPARES_USED i) 1
  | .half _ g =>
    let lasting := s.fld (IS_BOND_GROUP_HALF i g) = 1 ∧ s.fld (IS_BOND_GROUP_INTERIM i g) = 0
    let s := if s.fld (IS_BOND_GROUP_HALF i g) = 1 then s else (s.setFld (IS_BOND_GROUP_HALF i g) 1).incFld (IS_BOND_STAT_HALF_GROUPS i) 1
    let s := if lasting then s else s.incFld (IS_FENCE_LASTING_HALF i) 1
    (s.setFld (IS_BOND_GROUP_INTERIM i g) 0).setFld (IS_BOND_GROUP_HEALTH i g) 0
  | .lane p l sp =>
    let s := ({ s with laneCnt := s.laneCnt.erase (laneKey i p l) }).ringLocked i p l
    if sp = 16 then s.setFld (BT_ST_PORT_ON_L16 i p) l
    else
      let s := s.setFld (BT_ST_PORT_ON_L17 i p) l
      if s.fld (BT_ST_PORT_ON_L16 i p) = l then s.setFld (BT_ST_PORT_ON_L16 i p) 255 else s
  | .plane p n =>
    let s := (List.range 16).foldl (fun (s : State) l =>
      ({ s with laneCnt := s.laneCnt.erase (laneKey i p l) }).ringLocked i p l) s
    ((((s.setFld (BT_ST_PORT_PHYS i p) (68 + n)).setFld (BT_ST_PORT_ON_L16 i p) 255).setFld (BT_ST_PORT_ON_L17 i p) 255).setFld
      (BT_ST_PORT_PRESENT i p) 0xFFFF).setFld (BT_ST_PORT_WIDTH i p) 16
  | .absent p l _ =>
    let s := { s.setFldBit (BT_ST_PORT_PRESENT i p) l false with laneCnt := s.laneCnt.erase (laneKey i p l) }
    s.setFld (BT_ST_PORT_WIDTH i p) (popc 16 (s.fld (BT_ST_PORT_PRESENT i p)))
  | .withdraw p _ => ((s.setFld (BT_ST_PORT_WITHDRAWN i p) 1).setFld (BT_ST_PORT_PRESENT i p) 0).setFld (BT_ST_PORT_WIDTH i p) 0
  | .comb _ c => ((s.setFldBit (BT_ST_COMB_IN_USE i) c false).setFldBit (BT_ST_COMB_IN_USE i) 9 true).setFld (BT_ST_COMB_SPARE_FOR i) c
  | .vstep _ r => (s.incFld (IS_CLK_REGION_VSTEPS i r) 1).bump (IS_CLK_STAT_VSTEP_RAISES i) 1

/-- A repair that selects among spares: its selection goes to flash (R493). -/
def RepKind.selects : RepKind → Bool
  | .bond _ _ | .half _ _ | .lane _ _ _ | .plane _ _ | .comb _ _ => true
  | .absent _ _ _ | .withdraw _ _ | .vstep _ _ => false

/-- Repairs decided before tick `due` take force at the islands of `mask`, in the order in which they were decided (R491, R492). -/
def State.forceRepairs (s : State) (mask due : Nat) : State :=
  let s := { s with selNew := s.selNew || s.repairs.any (fun x => x.kind.selects && x.isls &&& mask != 0 && decide (x.at_ < due)) }
  let (s, left) := s.repairs.foldl (fun (r : State × List Rep) x =>
    let mask := if x.at_ < due then mask else 0
    let s := (bitList 16 (x.isls &&& mask)).foldl (fun s i => s.applyRep i x.kind) r.1
    let rest := clearBits x.isls mask
    (s, if rest = 0 then r.2 else r.2 ++ [{ x with isls := rest }])) (s, [])
  { s with repairs := left }

/-- A repair is decided at this module slot tick, or at the next one: that of a cause which arises between ticks. -/
def State.addRep (s : State) (k : RepKind) (isls : Nat) : State := { s with repairs := s.repairs ++ [⟨k, isls, s.now⟩] }
def State.addRepNext (s : State) (k : RepKind) (isls : Nat) : State := { s with repairs := s.repairs ++ [⟨k, isls, s.now + 1⟩] }

/-! ### Lanes and planes (R500 to R504, R264) -/

/-- Spare plane reserved for logical plane p, and the physical plane it is on (decided). -/
def subLplane (n : Nat) : Fld := match n with | 0 => LH_PLANE_SUB_LPLANE0 | 1 => LH_PLANE_SUB_LPLANE1 | 2 => LH_PLANE_SUB_LPLANE2 | _ => LH_PLANE_SUB_LPLANE3
def subFailed (n : Nat) : Fld := match n with | 0 => LH_PLANE_SUB_FAILED0 | 1 => LH_PLANE_SUB_FAILED1 | 2 => LH_PLANE_SUB_FAILED2 | _ => LH_PLANE_SUB_FAILED3
def subInUse (n : Nat) : Fld := match n with | 0 => LH_PLANE_SUB_IN_USE0 | 1 => LH_PLANE_SUB_IN_USE1 | 2 => LH_PLANE_SUB_IN_USE2 | _ => LH_PLANE_SUB_IN_USE3
def State.physPlane (s : State) (p : Nat) : Nat :=
  match (List.range 4).reverse.find? (fun n => s.fld (subInUse n) == 1 && s.fld (subFailed n) == 0 && s.fld (subLplane n) == p) with
  | some n => 68 + n
  | none => p
def State.freeSpare (s : State) : Option Nat := (List.range 4).find? (fun n => s.fld (subInUse n) == 0 && s.fld (subFailed n) == 0)

/-- Logical plane p moves to spare plane n (R501, R503). -/
def State.sparePlane (s : State) (b p n : Nat) : State :=
  let s := s.setFldBit LH_PLANE_FAIL_FAILED (s.physPlane p) (decide (s.physPlane p < 64) || s.fldBit LH_PLANE_FAIL_FAILED (s.physPlane p))
  let s := ((s.setFld (subLplane n) p).setFld (subInUse n) 1).raise 0x4007 b (srcIx 6 p) (68 + n)
  s.addRep (.plane p n) 0xFFFF

/-- The port of a plane that a lane's or a plane's repair concerns. -/
def RepKind.onPlane (k : RepKind) (p : Nat) : Bool :=
  match k with
  | .lane q _ _ | .plane q _ | .absent q _ _ => q == p
  | _ => false

/-- The port of island a on logical plane p is withdrawn (R230, R501): the tenancies using it halt, and a repair decided for the port that
has not taken force is discarded (R51, R492). -/
def State.withdrawStrait (s : State) (a p : Nat) : State :=
  let s := { s with repairs := (s.repairs.map (fun (r : Rep) => if r.kind.onPlane p then { r with isls := putBits r.isls a 1 0 } else r)).filter (fun (r : Rep) => r.isls != 0) }
  let s := { s with arisen := addEv { code := 0x4004, isl := a, src := srcIx 6 p, detail := a, tens := (List.range 16).filter (fun t => s.usesPort t a p) } s.arisen }
  s.addRep (.withdraw p a) (2 ^ a)

/-- Lanes of a port that will remain when the decided repairs have taken force. -/
def State.lanesLeft (s : State) (a p : Nat) : List Nat :=
  (bitList 16 (s.fld (BT_ST_PORT_PRESENT a p))).filter (fun l => !s.repairs.any (fun r => r.kind == .absent p l a))

/-- A repair decided for lane l of plane p has still to take force somewhere: the failing element goes on carrying data (R491). -/
def State.mending (s : State) (p l : Nat) : Bool :=
  s.repairs.any (fun r => match r.kind with | .lane q m _ => q == p && m == l | .plane q _ => q == p | _ => false)

/-- The ladder of a strait lane (R501): receiver b; `a` the island the failure is attributed to. -/
def State.straitLadder (s : State) (b a p l : Nat) : State :=
  let ph := s.physPlane p
  if s.mending p l then s
  else if s.spareUse.get 0 (ph * 2) = 0 then
    ({ s with spareUse := s.spareUse.set (ph * 2) (l + 1) }.raise 0x4006 b (srcIx 6 p) (l + 16 * 2 ^ 8)).addRep (.lane p l 16) 0xFFFF
  else if s.spareUse.get 0 (ph * 2 + 1) = 0 then
    ({ s with spareUse := s.spareUse.set (ph * 2 + 1) (l + 1) }.raise 0x4006 b (srcIx 6 p) (l + 17 * 2 ^ 8)).addRep (.lane p l 17) 0xFFFF
  else
    match (if ph < 64 then s.freeSpare else none) with
    | some n => s.sparePlane b p n
    | none =>
      let left := s.lanesLeft a p
      if !left.contains l then s
      else if left.length ≤ 12 then s.withdrawStrait a p
      else (s.raise 0x4008 a (srcIx 6 p) (l + (left.length - 1) * 2 ^ 16)).addRep (.absent p l a) (2 ^ a)

/-- The ladder of a ferry lane (R264, R504): a spare wavelength, an absent lane, withdrawal below 12; in the next quiet
window. -/
def State.ferryLadder (s : State) (b a p l : Nat) : State :=
  let key := (64 + p) * 2
  let change (s : State) (n : Nat) : State := s.setArb p { s.arb p with laneChanges := (s.arb p).laneChanges ++ [(a, l, n)] }
  if (s.arb p).laneChanges.any (fun c => c.2.1 == l && decide (c.2.2 < 18)) then s
  else if s.spareUse.get 0 key = 0 then
    change ({ s with spareUse := s.spareUse.set key (l + 1) }.raise 0x4006 b (srcIx 7 p) (l + 16 * 2 ^ 8)) 16
  else if s.spareUse.get 0 (key + 1) = 0 then
    change ({ s with spareUse := s.spareUse.set (key + 1) (l + 1) }.raise 0x4006 b (srcIx 7 p) (l + 17 * 2 ^ 8)) 17
  else
    let left := (bitList 16 (s.fyMask p a)).filter (fun j => !(s.arb p).laneChanges.any (fun c => c.1 == a && c.2.1 == j && decide (18 ≤ c.2.2)))
    if !left.contains l then s
    else if left.length ≤ 12 then (s.withdrawPort p a).raise 0x4009 a (srcIx 7 p) 0
    else change (s.raise 0x4008 a (srcIx 7 p) (l + (left.length - 1) * 2 ^ 16)) 255

/-- A lane failed at receiver b (R500): attributed to the sender when receivers at two islands report it within 1 s. -/
def State.laneFail (s : State) (b sender plane lane : Nat) : State :=
  let two := s.laneReps.any (fun r => r.sender == sender && r.plane == plane && r.lane == lane && r.recv != b)
  let a := if two then sender else b
  if plane < 64 then s.straitLadder b a plane lane else s.ferryLadder b a (plane - 64) lane

/-- A physical plane of which an element cannot hold its bias (R503): the logical plane goes to a spare plane, or every port of it is withdrawn. -/
def State.elementFail (s : State) (phys : Nat) : State :=
  let p := if phys < 64 then phys else if 68 ≤ phys then s.fld (subLplane (phys - 68)) else 64
  let s := if phys < 64 then s.setFldBit LH_PLANE_FAIL_FAILED phys true else if 68 ≤ phys then s.setFld (subFailed (phys - 68)) 1 else s
  if (phys < 64 ∧ s.physPlane phys ≠ phys) ∨ (68 ≤ phys ∧ s.fld (subInUse (phys - 68)) = 0) then s
  else if p = 64 then (List.range 16).foldl (fun s b => (s.withdrawPort (phys - 64) b).raise 0x4009 b (srcIx 7 (phys - 64)) 0) s
  else
    match s.freeSpare with
    | some n => s.sparePlane 0 p n
    | none => (List.range 16).foldl (fun s b => s.withdrawStrait b p) s

/-- Chiplet `chip` of base tile i fails (R505): the spare takes its feeds, or the lanes that its line fed fail, at their transmit half. -/
def State.combFail (s : State) (i chip : Nat) (lanes : List (Nat × Nat)) : State :=
  let s1 := s.setFldBit (BT_ST_COMB_FAILED i) chip true
  let pending := s.repairs.any (fun r => match r.kind with | .comb j _ => j == i | _ => false)
  let dark (s : State) : State := lanes.foldl (fun s x => s.straitLadder i i x.1 x.2) s
  if s.fldBit (BT_ST_COMB_FAILED i) chip ∧ !lanes.isEmpty then dark s
  else if chip ≠ 9 ∧ !s.fldBit (BT_ST_COMB_FAILED i) 9 ∧ s.fld (BT_ST_COMB_SPARE_FOR i) = 15 ∧ !pending then
    (s1.raise 0x400A i (srcIx 0 0) chip).addRep (.comb i chip) (2 ^ i)
  else if chip = 9 ∧ s.fld (BT_ST_COMB_SPARE_FOR i) = 15 then s1
  else dark (s1.raise 0x400B i (srcIx 0 0) chip)

/-! ### Decisions (R491, R492) -/

def State.addCause (s : State) (c : Cause) : State := { s with causes := s.causes ++ [c] }

/-- Island and source index of the event that a cause leads to (R49), as one number. -/
def Cause.rank : Cause → Nat
  | .lane b _ p _ => b * 65536 + (if p < 64 then srcIx 6 p else srcIx 7 (p - 64))
  | .element phys => srcIx 6 phys
  | .comb i _ _ => i * 65536 + srcIx 0 0
/-- The element group of a cause: a plane, or a base tile's comb chiplets; the index of the failing element in it. -/
def Cause.group : Cause → Nat
  | .lane _ _ p _ => p
  | .element phys => phys
  | .comb i _ _ => 128 + i
def Cause.index : Cause → Nat
  | .lane _ _ _ l => l
  | .element _ => 0
  | .comb _ c _ => c
/-- Groups in the precedence order of their first events, in a group the elements in ascending index (R492). -/
def Cause.key (l : List Cause) (c : Cause) : Nat :=
  let first := ((l.filter (fun x => x.group == c.group)).map Cause.rank).foldl min c.rank
  ((first * 256 + c.group) * 16 + c.index) * 2 ^ 24 + c.rank
def putCause (all : List Cause) (c : Cause) : List Cause → List Cause
  | [] => [c]
  | x :: r => if Cause.key all c < Cause.key all x then c :: x :: r else x :: putCause all c r

def State.decideCause (s : State) : Cause → State
  | .lane b sender p l => s.laneFail b sender p l
  | .element phys => s.elementFail phys
  | .comb i c lanes => s.combFail i c lanes

/-- The causes that have arisen are sampled: every report of a lane is noted, then each repair is decided, in order (R491, R492, R500). -/
def State.decideRepairs (s : State) : State :=
  let near := s.laneReps.filter (fun r => s.now - r.at_ < second)
  let now := s.causes.filterMap (fun c => match c with | .lane b sender p l => some { sender := sender, plane := p, lane := l, recv := b, at_ := s.now : LaneRep } | _ => none)
  (s.causes.foldl (fun l c => putCause s.causes c l) []).foldl State.decideCause { s with causes := [], laneReps := near ++ now }

/-- LANE_FAIL (R500, R501, R504): the counts of the lane at receiver b pass BT_ST_SPARE_CFG. -/
def execLaneFail (b sender : Fin 16) (plane : Fin 68) (lane : Fin 16) (s : State) : Out :=
  let key := laneKey b plane lane
  let c := s.laneCnt.get {} key
  let sym := s.fld (BT_ST_SPARE_CFG_SPARE_SYM b)
  let unc := s.fld (BT_ST_SPARE_CFG_SPARE_UNC b)
  if (sym ≠ 0 ∧ sym < c.sym) ∨ (unc ≠ 0 ∧ unc < c.unc) then
    .next ({ s with laneCnt := s.laneCnt.set key { since := s.now } }.addCause (.lane b sender plane lane))
  else .next s

/-- RING_SWEEP (R506): an attempt at a mislocked ring finds a peak, whose lock the lane's next segment or flit decides, or finds none. -/
def execRingSweep (b : Fin 16) (plane : Fin 68) (lane : Fin 16) (ok : Bool) (s : State) : Out :=
  let key := laneKey b plane lane
  if !s.mislocked.get false key ∨ s.trials.contains key then .next s
  else if ok then .next { s with trials := s.trials ++ [key] }
  else .next (s.ringMissed b plane lane)

/-- MZ_ELEMENT_FAIL (R503): sampled at the next module slot tick. -/
def execMzElementFail (phys : Fin 72) (s : State) : Out := .next (s.addCause (.element phys))

/-- COMB_LINE_FAIL (R505): chiplet c of base tile i fails; `lanes`: the plane ports' lanes that its line fed. -/
def execCombLineFail (i : Fin 16) (chip : Fin 10) (lanes : List (Fin 64 × Fin 16)) (s : State) : Out :=
  .next (s.addCause (.comb i chip (lanes.map (fun x => (x.1.val, x.2.val)))))

/-! ### Bonds (R185 to R187, R495, R496) -/

/-- A bond of the group is suspect: a spare, half width, another of the good bonds, or a dead group (R187, R495). -/
def State.bondSuspect (s : State) (i g : Nat) : State :=
  let k := i * 4096 + g
  let dead := s.bondDead.get 0 k + 1
  let s := { s with bondDead := s.bondDead.set k dead }
  if dead ≤ 4 then (s.raise 0x7006 i (srcIx 8 g) dead).addRepNext (.bond i g) (2 ^ i)
  else if dead = 5 then
    let n : Nat := (s.bondDead.filter (fun e => e.1 / 4096 == i && decide (5 ≤ e.2))).length
    let s := (s.raise 0x400C i (srcIx 8 g) n).addRepNext (.half i g) (2 ^ i)
    if 8 ≤ n then s.askFence i 1 else s
  else if 37 ≤ dead then s.askFence i 2
  else s.addRepNext (.half i g) (2 ^ i)

/-- The flit as it crosses the bonds: beats 0 to 3, then beat 4 with KIND, FSEQ and the CRC (R185). -/
def BondFlit.wire (f : BondFlit) : Nat :=
  let v := f.words.toNat + (f.poison.toNat + f.kind * 16 + f.fseq * 256) * 2 ^ 256
  v + bondCrc v * 2 ^ 304
/-- The flit that a receiver reads off the bonds. -/
def BondFlit.ofWire (v : Nat) : BondFlit :=
  { words := BitVec.ofNat 256 v, poison := BitVec.ofNat 4 (bits v 256 4), kind := bits v 260 4, fseq := bits v 264 8 }

/-- The shoal die is the group's sender (R184). -/
def shoalSends (g : Nat) : Bool := decide (g % 195 < 78) || decide (156 ≤ g % 195)

/-- Four words of the shoal, low word first, with those that are delivered poisoned or uncorrectable (R190). -/
def State.bondWords (s : State) (i block : Nat) : BitVec 256 × BitVec 4 :=
  let ws := (List.range 4).map (fun j => s.shoalWord i (32 * block + 8 * j))
  (BitVec.ofNat 256 (ws.foldr (fun w n => w.1 + 2 ^ 64 * n) 0), BitVec.ofNat 4 (ws.foldr (fun w n => (if w.2.1 then 1 else 0) + 2 * n) 0))

/-- What the sender of a group puts into its next new flit: KIND, words, POISON; none where that end does not send such data. -/
def State.bondData (s : State) (i g : Nat) : BondSrc → Option (Nat × BitVec 256 × BitVec 4)
  | .idle => some (0, 0, 0)
  | .shoal a => if shoalSends g then some (1, s.bondWords i a.toNat) else none
  | .data w p => if shoalSends g then none else some (1, w, p)

/-- The next flit of a group (R185, R186): the one of which a replay is asked, with KIND 2; else a new one, which joins the last 16. -/
def State.bondSend (s : State) (i g : Nat) (src : BondSrc) : Option (BondFlit × Bond) :=
  let b := s.bonds.get {} (i * 4096 + g)
  match b.sent.find? (fun f => b.again == some f.fseq) with
  | some f => some ({ f with kind := 2 }, b)
  | none =>
    match s.bondData i g src with
    | some (kind, w, p) =>
      let f : BondFlit := ⟨b.next, kind, w, p⟩
      some (f, { b with next := (b.next + 1) % 256, sent := (b.sent ++ [f]).drop (b.sent.length - 15), again := none, run := 0 })
    | none => none

/-- The group falls to half width until a frame boundary restores it (R187). -/
def State.bondInterim (s : State) (i g : Nat) : State :=
  if s.fld (IS_BOND_GROUP_HALF i g) = 1 then s
  else ((s.setFld (IS_BOND_GROUP_HALF i g) 1).setFld (IS_BOND_GROUP_INTERIM i g) 1).incFld (IS_BOND_STAT_HALF_GROUPS i) 1

/-- BOND_FLIT_RX (R185 to R187): the group's next flit arrives with the bits of `noise` changed. A CRC that does not match discards it, asks
for a replay and holds the mesh on a compute-side group; three failed replays in succession halve the group at once. -/
def execBondFlitRx (i : Fin 16) (g : Fin 3120) (sends : BondSrc) (noise : BitVec 320) (s : State) : Out :=
  let k := i.val * 4096 + g.val
  match s.bondSend i g sends with
  | none => .next s
  | some (f, b) =>
    let rx := f.wire ^^^ noise.toNat
    if bondCrc rx = bits rx 304 16 then
      .next { s with bonds := s.bonds.set k { b with again := none, run := 0, got := some (.ofWire rx) } }
    else
      let n := b.run + 1
      let h := s.fld (IS_BOND_GROUP_HEALTH i g)
      let s := { s with bonds := s.bonds.set k { b with again := some f.fseq, run := n }, bondHot := insertNat k s.bondHot }
      let s := ((s.bump (IS_BOND_GROUP_HEALTH i g) 1).bump (IS_BOND_GROUP_CRC_ERRORS i g) 1).bump (IS_BOND_STAT_REPLAYS i) 1
      let s := if g.val % 195 < 117 then s.holdIsland i 12 else s
      let s := if 4 ≤ n then s.bondInterim i g else s
      let pending := s.repairs.any (fun r => r.kind == .bond i g || r.kind == .half i g)
      .next (if !pending ∧ ((h < 32 ∧ s.fld (IS_BOND_GROUP_HEALTH i g) = 32) ∨ n = 4) then s.bondSuspect i g else s)

/-- Health counters lose one at a committed frame (R187). -/
def State.bondHeal (s : State) (mask : Nat) : State :=
  let s := s.bondHot.foldl (fun s k =>
    let f := IS_BOND_GROUP_HEALTH (k / 4096) (k % 4096)
    if bitOf mask (k / 4096) then s.setFld f (s.fld f - 1) else s) s
  { s with bondHot := s.bondHot.filter (fun k => s.fld (IS_BOND_GROUP_HEALTH (k / 4096) (k % 4096)) != 0) }

/-- BOND_COPY_DROP (R496): a copy of a control (0), clock (1) or sense (2) pair; the second fences the island. -/
def execBondCopyDrop (i : Fin 16) (kind : Fin 3) (pair : BitVec 16) (s : State) : Out :=
  let p := (i.val, kind.val, pair.toNat)
  if s.singles.contains p then .next (s.askFence i 3)
  else .next (({ s with singles := s.singles ++ [p] }.bump (IS_FENCE_SINGLE_COPY i) 1).raise 0x400D i (srcIx 0 0) kind)

/-! ### Tide keepers (R509 to R511) -/

/-- The module enters STOPPING (R475): `soft` lets the frames commit. Running tenancies halt at their next frame tick. -/
def State.stopping (s : State) (soft : Bool) : State :=
  if s.fld LH_PWR_STAT_STATE = 4 then s
  else
    let s := { s.setFld LH_PWR_STAT_STATE 4 with softStop := soft }
    if soft then s.runningTens.foldl (fun s t => s.pendHalt t hkClean 0) s else s

def keeperCause (k : Nat) : Fld := match k with | 0 => LH_KEEPER_A_CAUSE | 1 => LH_KEEPER_B_CAUSE | _ => LH_KEEPER_C_CAUSE
def State.keepers (s : State) : List Nat := bitList 3 (s.fld LH_KEEPER_PRESENT)

/-- A keeper withdraws (R510); with one left the module stops (R511). -/
def State.keeperWithdraw (s : State) (k cause : Nat) : State :=
  if !s.fldBit LH_KEEPER_PRESENT k then s
  else
    let s := ((s.setFldBit LH_KEEPER_PRESENT k false).setFld (keeperCause k) cause).raise 0x0005 16 (srcIx 1 k) cause
    let s := { s with keeperOut := s.keeperOut.filter (fun e => e.1 != k) }
    if s.keepers.length ≤ 1 then s.stopping false else s

/-- KEEPER_HASH_EXCHANGE (R509): a keeper whose state hash differs from both peers' withdraws at the next tick. -/
def execKeeperHashExchange (a b c : BitVec 384) (s : State) : Out :=
  if s.fld LH_SLOT_COUNT_COUNT % 256 ≠ 0 ∨ s.keepers.length < 3 then .next s
  else
    let odd (x y z : BitVec 384) : Bool := x != y && x != z
    .next { s with keeperOut := s.keeperOut ++ (if odd a b c then [(0, 3)] else []) ++ (if odd b a c then [(1, 3)] else []) ++
                     (if odd c a b then [(2, 3)] else []) }

/-- KEEPER_CRC_CHECK (R509): a keeper whose program store fails its CRC withdraws at the next tick. -/
def execKeeperCrcCheck (k : Fin 3) (ok : Bool) (s : State) : Out :=
  if ok ∨ !s.fldBit LH_KEEPER_PRESENT k then .next s else .next { s with keeperOut := s.keeperOut ++ [(k.val, 2)] }

/-- KEEPER_WITHDRAW (R509, R510): by its own check or outvoted; `outvotes`: minority reports counted. -/
def execKeeperWithdraw (k : Fin 3) (cause : Fin 5) (outvotes : BitVec 32) (s : State) : Out :=
  let s := s.bump LH_KEEPER_OUTVOTES outvotes.toNat
  let c := ((s.keeperOut.find? (fun e => e.1 == k.val)).map (·.2)).getD cause.val
  .next (s.keeperWithdraw k c)

/-- KEEPER_DISAGREE (R511): the two keepers left disagree at a voter. -/
def execKeeperDisagree (s : State) : Out :=
  if s.keepers.length ≠ 2 then .next s
  else .next ((s.raise 0x0006 16 (srcIx 1 (s.keepers.headD 0)) (s.fld LH_KEEPER_PRESENT)).stopping false)

end Sys2Proof.Machine
end

