-- ==== Sys2Proof/Machine/Flash.lean ====
section
/-!
DEFINITION. Flash: the security record (R520), update packages and their checks (R523 to R525), the calibration store
(R456 to R461).
-/
namespace Sys2Proof.Machine

open Sys2Proof

/-! ### Update packages (R523 to R525) -/

def mebi : Nat := 0x100000
def pkgMax : Nat := 56 * mebi

/-- Fields of a manifest, read from a package's bytes. -/
def pkgSvn (p : List Byte) : Nat := fieldAt p 8 4
def pkgFloor (p : List Byte) : Nat := fieldAt p 0xC 4
def pkgRoot (p : List Byte) : Nat := fieldAt p 6 1
def pkgRevoke (p : List Byte) : Nat := fieldAt p 7 1
def pkgTotal (p : List Byte) : Nat := fieldAt p 0x20 8
def pkgCertLen (p : List Byte) : Nat := fieldAt p 0x14 4
def certOff : Nat := 0xB0 + 80 * 7
def pkgCert (p : List Byte) : List Byte := (p.drop certOff).take (pkgCertLen p)
/-- The signed block: header, root key, part table and certificate. -/
def pkgSigned (p : List Byte) : List Byte := p.take (certOff + pkgCertLen p)
def pkgDigest (p : List Byte) : BitVec 384 := digestBv (pkgSigned p)
def manifestEnd (p : List Byte) : Nat := certOff + pkgCertLen p + 96
def partAt (p : List Byte) (k : Nat) : List Byte := (p.drop (0xB0 + 80 * k)).take 80
def partId (e : List Byte) : Nat := fieldAt e 0 2
def partOff (e : List Byte) : Nat := fieldAt e 0x10 8
def partSize (e : List Byte) : Nat := fieldAt e 0x18 8
def pkgParts (p : List Byte) : List (List Byte) := (List.range 7).map (partAt p)
/-- TARGET of each part (R524). -/
def partTarget (id : Nat) : Nat :=
  match id with | 1 => 1 | 2 => 7 | 3 => 1 | 4 => 0xFFFF | 5 => 0xFFFF | 6 => 0xFFFFFFFF | 7 => 0xFFFF | _ => 0

/-- No two of the stretches (offset, size) share a byte. -/
def disjoint : List (Nat × Nat) → Bool
  | [] => true
  | (a, n) :: r => r.all (fun x => decide (a + n ≤ x.1) || decide (x.1 + x.2 ≤ a) || n == 0 || x.2 == 0) && disjoint r

/-- Check 1 of R525. -/
def pkgFormat (p : List Byte) : Bool :=
  fieldAt p 0 4 == 0x464D514C && fieldAt p 4 1 == 1 && fieldAt p 5 1 == 7 && decide (pkgRoot p < 4) && decide (pkgRevoke p < 16) &&
  decide (fieldAt p 0x13 1 < 4) && fieldAt p 0x2C 20 == 0 && fieldAt p 0xA1 15 == 0 && decide (1 ≤ pkgCertLen p) && decide (pkgCertLen p ≤ 4096) &&
  decide (pkgTotal p ≤ pkgMax) && decide (pkgTotal p ≤ p.length) && decide (manifestEnd p ≤ pkgTotal p) &&
  (pkgParts p).all (fun e =>
    fieldAt e 2 2 == 0 && fieldAt e 0xC 4 == 0 && fieldAt e 4 4 == partTarget (partId e) && partOff e % 4096 == 0 &&
    decide (partOff e + partSize e ≤ pkgTotal p)) &&
  (List.range 7).all (fun k => ((pkgParts p).filter (fun e => partId e == k + 1)).length == 1) &&
  disjoint ((0, manifestEnd p) :: (pkgParts p).map (fun e => (partOff e, partSize e)))

/-- The manifest checks of R525: 0, or the reason of the first that fails. -/
def manifestCheck (p : List Byte) (counter revoked lifecycle : Nat) : Nat :=
  if !pkgFormat p then 0x09
  else if fieldAt p 0x10 2 ≠ 0x1652 ∨ fieldAt p 0x12 1 ≠ 0xB0 ∨ bitOf (fieldAt p 0x13 1) lifecycle = false ∨
      (fieldAt p 0x18 8 ≠ 0 ∧ fieldAt p 0x18 8 ≠ Config.serial.toNat) then 0x0D
  else
    let key : BitVec 776 := BitVec.ofNat 776 (fieldAt p 0x40 97)
    let signed : Bool := match Config.certKey (pkgCert p) key with
      | some k => Config.verify k (pkgDigest p) (BitVec.ofNat 768 (fieldAt p (certOff + pkgCertLen p) 96))
      | none => false
    let root := digestBv ((p.drop 0x40).take 97) == Config.rootHash (pkgRoot p) && !bitOf revoked (pkgRoot p)
    if !((root && signed) || (lifecycle == 0 && Config.testFirmware (pkgDigest p))) then 0x0A
    else if pkgSvn p < counter ∨ pkgSvn p < pkgFloor p ∨ bitOf (pkgRevoke p) (pkgRoot p) then 0x0B
    else if !(pkgParts p).all (fun e => sha384 ((p.drop (partOff e)).take (partSize e)) == (e.drop 0x20).take 48) then 0x0C
    else 0

/-! ### The security record (R520, R522) -/

/-- A copy whose MAC verifies against its device's present counter. -/
def Flash.secCopy (f : Flash) (n : Nat) : Option (Nat × SecRec) := f.sec.find? (fun e => e.1 == n && e.2.mono == f.mono.get 0 n)
/-- The copy in force: the later generation. -/
def Flash.secRec (f : Flash) : SecRec :=
  match f.secCopy 0, f.secCopy 1 with
  | some a, some b => if a.2.gen < b.2.gen then b.2 else a.2
  | some a, none => a.2
  | none, some b => b.2
  | none, none => {}

/-- A write of the region of device n, whose counter advances with it; one that is cut short leaves a copy that fails its MAC. -/
def Flash.writeSec (f : Flash) (n : Nat) (r : SecRec) (cut : Bool) : Flash :=
  let m := f.mono.get 0 n + 1
  { f with mono := f.mono.set n m, sec := if cut then f.sec.erase n else f.sec.set n { r with mono := m } }
/-- A store of the security record (R520): device 1 first, then device 0. `cut`: 0 complete, 1 cut short while it writes
device 1, 2 while it writes device 0 (R535). -/
def Flash.storeSec (f : Flash) (r : SecRec) (cut : Nat) : Flash :=
  let r := { r with gen := f.secRec.gen + 1 }
  if cut = 1 then f.writeSec 1 r true
  else (f.writeSec 1 r false).writeSec 0 r (decide (cut = 2))

def Flash.slot (f : Flash) (n : Nat) : List Byte := f.slots.get [] n
def State.secRec (s : State) : SecRec := s.flash.secRec
/-- The slot not in force. -/
def State.inactive (s : State) : Nat := 1 - s.secRec.select
/-- The slot whose firmware runs (R522). -/
def State.bootSlot (s : State) : Nat := if s.fld SEC_STAT_FALLBACK = 1 then s.inactive else s.secRec.select
def State.slotCheck (s : State) (n : Nat) : Nat := manifestCheck (s.flash.slot n) s.secRec.counter s.secRec.revoked s.secRec.lifecycle

/-- Six registers take the bytes of a digest. -/
def State.setDigest (s : State) (f : Nat → Fld) (d : Nat) : State := (List.range 6).foldl (fun s k => s.setFld (f k) (d / 2 ^ (64 * k) % 2 ^ 64)) s

/-- The SEC_ registers that show flash and the manifest in force (R536). -/
def State.showSec (s : State) : State :=
  let r := s.secRec
  let p := s.flash.slot s.bootSlot
  let q := s.flash.slot s.inactive
  let s := ((s.setFld SEC_STAT_SLOT r.select).setFld SEC_STAT_LIFECYCLE r.lifecycle).setFld SEC_STAT_STAGED (if s.flash.staged then 1 else 0)
  let s := ((s.setFld SEC_SVN_COUNTER r.counter).setFld SEC_SVN_ACTIVE_SVN (pkgSvn p)).setFld SEC_LOCK_CLOSED (if r.lock then 1 else 0)
  let s := ((s.setFld SEC_LOCK_HOLDER r.holder).setFld SEC_LOCK_REVOKED r.revoked).setFld SEC_LOCK_ROOT (pkgRoot p)
  let s := s.setFld SEC_STAGE_STAGED_SVN (if s.flash.staged then pkgSvn q else 0)
  (s.setDigest SEC_DIGEST_BYTES (pkgDigest p).toNat).setDigest SEC_STAGED_DIGEST_BYTES (if s.flash.staged then (pkgDigest q).toNat else 0)

/-! ### The calibration store (R458, R459) -/

/-- The retirements of island i as its record holds them. -/
def State.retireRec (s : State) (i : Nat) : List Nat :=
  s.retPages.filter (fun a => a / 0x6000000000 == i) ++
  (s.retBanks.filter (fun b => b.getD 0 0 == i)).map (fun b => 2 ^ 63 + b.getD 1 0 * 2 ^ 32 + b.getD 2 0 * 2 ^ 24 + b.getD 3 0 * 2 ^ 16 + b.getD 4 0)

/-- The bond groups of island i that a spare or half width serves (R493): local index, bonds lost, spares in use, lasting half width. -/
def State.bondRec (s : State) (i : Nat) : List Nat :=
  (s.bondDead.filter (fun e => e.1 / 4096 == i)).map (fun e =>
    let g := e.1 % 4096
    let half := s.fld (IS_BOND_GROUP_HALF i g) == 1 && s.fld (IS_BOND_GROUP_INTERIM i g) == 0
    g * 2 ^ 16 + e.2 * 2 ^ 8 + (if half then 128 else 0) + s.fld (IS_BOND_GROUP_SPARES i g))

/-- A value that may be below zero, as a word of a record. -/
def recInt (x : Int) : Nat := (x + 2 ^ 31).toNat
def intRec (n : Nat) : Int := (n : Int) - 2 ^ 31

/-- Comb selection and ring trims of base tile i (R493, R508): the chiplet whose feeds the spare carries, then each trimmed ring and its trim. -/
def State.ringRec (s : State) (i : Nat) : List Nat :=
  s.fld (BT_ST_COMB_SPARE_FOR i) ::
  (s.ringTrim.filter (fun e => e.1 / 2592 == i)).map (fun e => e.1 % 2592 * 2 ^ 32 + recInt e.2)

/-- Physical plane ph (R493, R508): the logical lanes on λ16 and λ17 (plus 1; 0: none) and, of a spare plane, the logical plane that it serves
(plus 1), each once it is in force; then each trimmed element and its trim. -/
def State.planeRec (s : State) (ph : Nat) : List Nat :=
  let p := if ph < 68 then ph else s.fld (subLplane (ph - 68))
  let waits (k : RepKind) : Bool := s.repairs.any (fun r => r.kind == k && r.isls == 0xFFFF)
  let lane (n : Nat) : Nat :=
    let l := s.spareUse.get 0 (ph * 2 + n)
    if waits (.lane p (l - 1) (16 + n)) then 0 else l
  let on := decide (68 ≤ ph) && s.fld (subInUse (ph - 68)) == 1 && s.fld (subFailed (ph - 68)) == 0 && !waits (.plane p (ph - 68))
  [if 64 ≤ ph ∧ ph < 68 then 0 else lane 0, if 64 ≤ ph ∧ ph < 68 then 0 else lane 1, if on then p + 1 else 0] ++
  (s.mzTrim.filter (fun e => e.1 / 56 == ph)).map (fun e => e.1 % 56 * 2 ^ 32 + recInt e.2)

/-- Sensor offsets of island i and the factory coefficients of its shoal estimator (R442, R487). -/
def State.sensorRec (s : State) (i : Nat) : List Nat :=
  (List.range 28).map (fun j => recInt (s.tempOff.get 0 (i * 32 + j))) ++ [1, 2, 3].map (fun k => recInt (Config.estCoeff i k))

/-- Every calibration record (R456), as the module holds it now. -/
def State.calRecs (s : State) : List CalRec :=
  let items (kind n : Nat) : List CalRec := (List.range n).map (fun i => { kind := kind, inst := i })
  (List.range 16).map (fun i => { kind := 1, inst := i, val := [s.trained.get 0 i] }) ++ (List.range 16).map (fun i => { kind := 2, inst := i, val := s.bondRec i }) ++ (List.range 16).map (fun i => { kind := 3, inst := i, val := s.ringRec i }) ++
  items 4 16 ++ (List.range 72).map (fun p => { kind := 5, inst := p, val := s.planeRec p }) ++ (List.range 16).map (fun i => { kind := 6, inst := i, val := s.sensorRec i }) ++ items 7 16 ++ items 8 128 ++ items 9 32 ++
  (List.range 16).map (fun i => { kind := 10, inst := i, val := [s.trained.get 0 i] }) ++
  (List.range 16).map (fun i => { kind := 11, inst := i, val := s.retireRec i }) ++
  (List.range 16).map (fun i => { kind := 12, inst := i, val := [(s.therms.get {} i).half, if (s.therms.get {} i).up then 1 else 0, ((s.therms.get {} i).ext + 32768).toNat] }) ++
  [{ kind := 13, inst := 0, val := [s.fld FB_NODE_INCARN] }]

/-! ### The bytes of a copy (R457, R458) -/

/-- CRC-32 of R282, with no address appended. -/
def calCheck (bs : List Byte) : Nat := crcBytes 0xEDB88320 0xFFFFFFFF bs ^^^ 0xFFFFFFFF
/-- A header of 16 bytes whose check word stands over its first 12 and the payload; one that does not pass carries its complement. -/
def calHeader (head payload : List Byte) (good : Bool) : List Byte :=
  let c := calCheck (head ++ payload)
  head ++ leBytes 4 (if good then c else c ^^^ 0xFFFFFFFF)

/-- Payload of a record: the coefficients of each heater neighbourhood (kind 0x04), the delay lines of the bond groups (kind 0x01), else its words. -/
def CalRec.payload (r : CalRec) : List Byte :=
  match r.kind with
  | 1 => (List.range 3120).flatMap (fun g => leBytes 1 (Config.delayTap (r.inst * 4096 + g) (r.val.headD 0)).toNat)
  | 4 => (List.range 324).flatMap (fun n => (List.range 64).flatMap (fun e => leBytes 2 (Config.crosstalk r.inst n e).toNat))
  | _ => r.val.flatMap (leBytes 8)
def CalRec.bytes (r : CalRec) : List Byte :=
  let p := r.payload
  calHeader (leBytes 2 r.kind ++ leBytes 2 r.inst ++ leBytes 4 p.length ++ leBytes 4 0) p r.good ++ p ++ List.replicate ((16 - p.length % 16) % 16) 0
def CalCopy.bytes (c : CalCopy) : List Byte :=
  calHeader (leBytes 4 0x4143514C ++ leBytes 4 c.gen ++ leBytes 4 c.recs.length) [] c.good ++ c.recs.flatMap CalRec.bytes

/-- Kind and instance of the records found from here on that pass their check words. -/
def calWalk : Nat → List Byte → List (Nat × Nat)
  | 0, _ => []
  | n + 1, b =>
    let len := fieldAt b 4 4
    let ok := decide (16 + len ≤ b.length) && fieldAt b 12 4 == calCheck (b.take 12 ++ (b.drop 16).take len)
    (if ok then [(fieldAt b 0 2, fieldAt b 2 2)] else []) ++ calWalk n (b.drop (16 + (len + 15) / 16 * 16))

/-- A copy as it is read when some of its bytes, by offset, do not read as written. -/
def CalCopy.reread (c : CalCopy) (bad : List (Nat × Byte)) : CalCopy :=
  if bad.isEmpty then c
  else
    let b := bad.foldl (fun (b : List Byte) x => b.set x.1 (b.getD x.1 0 ^^^ x.2)) c.bytes
    let found := calWalk (fieldAt b 8 4) (b.drop 16)
    { c with good := fieldAt b 0 4 == 0x4143514C && fieldAt b 12 4 == calCheck (b.take 12),
             recs := c.recs.map (fun r => { r with good := found.contains (r.kind, r.inst) }) }

/-- The copy a store writes. -/
def Flash.spare (f : Flash) : Nat := match f.inUse with | some k => 1 - k | none => 0

/-- A store begins (R459): the copy not in use loses its header until the store has ended. -/
def State.calBegin (s : State) : State :=
  let k := s.flash.spare
  { s with storing := true, flash := { s.flash with cal := s.flash.cal.set k { s.flash.copy k with good := false } } }

/-- A store ends: its copy is the copy in use. `fresh` kinds are written as the module holds them; of the others those
that are not missing. -/
def State.calEnd (s : State) (fresh : Nat → Bool) : State :=
  let k := s.flash.spare
  let gen := match s.flash.inUse with | some j => ((s.flash.copy j).gen + 1) % 2 ^ 32 | none => 1
  let s := { s with storing := false, flash := { s.flash with cal := s.flash.cal.set k { gen := gen, good := true, recs := s.calRecs.filter (fun r => fresh r.kind || (s.flash.calRec r.kind r.inst).isSome) } } }
  ((s.setFld LH_CAL_STAT_COPY k).setFld LH_CAL_STAT_GENERATION gen).setFld LH_CAL_STAT_STORE_PENDING 0

/-- A whole store at once, of retirements (kind 0x0B) or of the incarnation (kind 0x0D). -/
def State.calStore (s : State) (kind : Nat) : State := s.calBegin.calEnd (fun k => k == kind)

/-- The bus is below 49.0 V or the supply in its low state (R459, R470). -/
def State.lowSupply (s : State) : Bool := s.fld LH_PWR_STAT_LOW_SUPPLY == 1

/-- Repair selections that have taken force go to flash at that tick (R493); in the low-supply state they wait (R459). A store under way
writes them with the rest. -/
def State.storeSelected (s : State) : State :=
  if !s.selNew then s
  else if s.storing then { s with selNew := false }
  else if s.fld LH_PWR_STAT_STATE = 4 then s
  else if s.lowSupply then { s with selNew := false, storeTried := s.now }.setFld LH_CAL_STAT_STORE_PENDING 1
  else { s.calBegin.calEnd (fun k => k == 2 || k == 3 || k == 5) with selNew := false }

/-- CAL_STORE (R459, R460): a store of values calibrated in service begins, or (`done`) the one under way ends. None begins in the low-supply
state, in STOPPING, within 600 s of the last, or while no value has `moved` beyond its item's tolerance. -/
def execCalStore (done moved : Bool) (s : State) : Out :=
  if done then .next (if s.storing then s.calEnd (fun _ => true) else s)
  else if !moved ∨ s.storing ∨ s.fld LH_PWR_STAT_STATE = 4 ∨ (s.storedAt.any (fun a => decide (s.now < a + 600 * second))) = true then .next s
  else if s.lowSupply then .next ({ s with storeTried := s.now }.setFld LH_CAL_STAT_STORE_PENDING 1)
  else .next { s.calBegin with storeTried := s.now, storedAt := some s.now }

/-- CAL_STORE_RETRY (R459): 600 s after the refusal. -/
def execCalStoreRetry (s : State) : Out :=
  if s.fld LH_CAL_STAT_STORE_PENDING = 0 ∨ s.storing ∨ s.fld LH_PWR_STAT_STATE = 4 ∨ s.now - s.storeTried < 600 * second then .next s
  else if s.lowSupply then .next { s with storeTried := s.now }
  else .next { s.calBegin with storeTried := s.now, storedAt := some s.now }

end Sys2Proof.Machine
end

