-- ==== Sys2Proof/Machine/Clock.lean ====
section
/-!
DEFINITION. Clocks, resets and the start-up sequence (17), with the boot of 20.
-/
namespace Sys2Proof.Machine

open Sys2Proof

/-! ### The start-up sequence (R462, R463) -/

/-- The module without power: what is left is flash. Commands waiting and what has left the module are the environment's. -/
def State.powerOff (s : State) : State :=
  { State.reset with pending := s.pending, out := s.out, freeCtr := s.freeCtr, flash := s.flash, ckBanks := s.ckBanks }

/-- Flash as assembly test left it, on the first power-up. -/
def Flash.stock (f : Flash) (k : FlashStock) : Flash :=
  if !f.sec.isEmpty ∨ !f.slots.isEmpty then f
  else
    let r : SecRec := { gen := 1, select := if k.select then 1 else 0, counter := k.counter.toNat, revoked := k.revoked.toNat, lifecycle := if k.shipped then 1 else 0 }
    { f with sec := [(0, r), (1, r)], slots := [(0, k.slotA), (1, k.slotB)] }

/-- The calibration copies as this start-up reads them (R458, R459). -/
def Flash.spoil (f : Flash) (p : StartPlan) : Flash :=
  let copy (k : Nat) : CalCopy :=
    (f.copy k).reread ((p.badBytes.filter (fun b => (if b.1 then 1 else 0) == k)).map (fun b => (b.2.1.toNat, b.2.2)))
  { f with cal := [(0, copy 0), (1, copy 1)] }

/-- Calibration begins from the stored selections (R493): the bond groups of island i. -/
def State.loadBonds (s : State) (i : Nat) : State :=
  ((s.flash.calRec 2 i).elim [] (·.val)).foldl (fun (s : State) v =>
    let g := v / 2 ^ 16
    let s := { s with bondDead := s.bondDead.set (i * 4096 + g) (bits v 8 8) }
    let s := (List.range (bits v 0 7)).foldl (fun (s : State) _ => s.applyRep i (.bond i g)) s
    if bitOf v 7 then s.applyRep i (.half i g) else s) s

/-- The comb chiplet on the spare's feeds, and the ring trims, of base tile i (R493, R508). -/
def State.loadRings (s : State) (i : Nat) : State :=
  match (s.flash.calRec 3 i).elim [] (·.val) with
  | [] => s
  | c :: trims =>
    let s := if c = 15 then s else (s.setFldBit (BT_ST_COMB_FAILED i) c true).applyRep i (.comb i c)
    trims.foldl (fun (s : State) v => { s with ringTrim := s.ringTrim.set (i * 2592 + v / 2 ^ 32) (intRec (v % 2 ^ 32)) }) s

/-- Plane substitution, lane map and bias trims of physical plane ph (R493, R508). -/
def State.loadPlane (s : State) (ph : Nat) : State :=
  let v := (s.flash.calRec 5 ph).elim [] (·.val)
  let all (s : State) (k : RepKind) : State := (List.range 16).foldl (fun s i => s.applyRep i k) s
  let on := v.getD 2 0
  let s := if on = 0 then s
    else all ((s.setFldBit LH_PLANE_FAIL_FAILED (on - 1) true).setFld (subLplane (ph - 68)) (on - 1) |>.setFld (subInUse (ph - 68)) 1) (.plane (on - 1) (ph - 68))
  let lane (s : State) (n : Nat) : State :=
    let l := v.getD n 0
    if l = 0 then s
    else
      let s := { s with spareUse := s.spareUse.set (ph * 2 + n) l }
      if ph < 68 ∧ s.physPlane ph ≠ ph then s else all s (.lane (if ph < 68 then ph else on - 1) (l - 1) (16 + n))
  (v.drop 3).foldl (fun (s : State) x => { s with mzTrim := s.mzTrim.set (ph * 56 + x / 2 ^ 32) (intRec (x % 2 ^ 32)) }) (lane (lane s 0) 1)

/-- Sensor offsets of island i (R442), as stored. -/
def State.loadOffsets (s : State) (i : Nat) : State :=
  match s.flash.calRec 6 i with
  | some r => { s with tempOff := (List.range 28).foldl (fun (o : Tbl Int) j => o.set (i * 32 + j) (intRec (r.val.getD j (2 ^ 31)))) s.tempOff }
  | none => s

/-- The end of the soak (R442): `raw` what each island's sensors read. -/
def State.endSoak (s : State) (raw : List (List (BitVec 16))) : State :=
  let rd (i j : Nat) : Int := ((raw.getD i []).getD j 0).toInt
  let cds := (List.range 16).flatMap (fun i => (List.range 16).map (rd i))
  let near := cds.all (fun a => cds.all (fun b => decide (a - b ≤ 20)))
  if s.fld LH_COOLANT_VALID = 1 ∧ near then
    { s with tempOff := (List.range 16).foldl (fun (o : Tbl Int) i =>
        (List.range 28).foldl (fun (o : Tbl Int) j => o.set (i * 32 + j) (sext 16 (s.fld LH_COOLANT_TEMP) - rd i j)) o) [] }.setFld LH_CAL_STAT_TEMP_UNTRACED 0
  else s.setFld LH_CAL_STAT_TEMP_UNTRACED 1

/-- What the module takes from the calibration store (R300, R459, R489, R493). -/
def State.loadCal (s : State) : State :=
  let s := match s.flash.inUse with
    | some k => (s.setFld LH_CAL_STAT_COPY k).setFld LH_CAL_STAT_GENERATION (s.flash.copy k).gen
    | none => s
  let s := (List.range 72).reverse.foldl (fun s p => s.loadPlane p) ((List.range 16).foldl (fun s i => ((s.loadBonds i).loadRings i).loadOffsets i) s)
  (List.range 16).foldl (fun s i =>
    let s := match s.flash.calRec 11 i with
      | some r => r.val.foldl (fun (s : State) v =>
          if v < 2 ^ 63 then (s.retirePage i (v - hbmBase i)).2
          else (s.retireBank i (bits v 32 8) (bits v 24 8) (bits v 16 8) (bits v 0 16)).2) s
      | none => s
    match s.flash.calRec 12 i with
    | some r =>
      let th : Therm := { half := r.val.getD 0 0, up := r.val.getD 1 1 == 1, ext := ((r.val.getD 2 32768 : Nat) : Int) - 32768 }
      { s with therms := s.therms.set i th }.setFld (BT_TH_WEAR_CYCLES i) (th.half / 2)
    | none => s) s

/-- The module stops in FAILED (R463). -/
def State.startFailed (s : State) (reason : Nat) : State := { (s.setFld LH_START_PHASE 15).setFld LH_START_FAIL_REASON reason with start := none }

/-- Keeper vote (R26, R350, R441, R462): ticks count from here; the incarnation advances; phase 2 begins. -/
def State.vote (s : State) (p : StartPlan) : State :=
  let s := { s with flash := s.flash.spoil p, now := 0 }
  let n := popc 3 p.keepers.toNat
  let s := s.setFld LH_KEEPER_PRESENT p.keepers.toNat
  if n < 2 then s.startFailed 2
  else
    let s := s.loadCal
    let inc := match s.flash.calRec 13 0 with | some r => r.val.getD 0 0 | none => 0
    let s := s.setFld FB_NODE_INCARN (inc + 1)
    let s := if s.lowSupply then { s with storeTried := s.now }.setFld LH_CAL_STAT_STORE_PENDING 1 else s.calStore 13
    let ppb := match p.calref with | some x => if x.toInt ≤ 50000 ∧ -50000 ≤ x.toInt then some x.toNat else none | none => none
    let s := ((s.setFld LH_CLK_STAT_REF_OK 1).setFld LH_CLK_STAT_CALREF_OK (if ppb.isSome then 1 else 0)).setFld LH_CLK_STAT_REF_PPB (ppb.getD 0)
    { (s.setFld LH_CAL_STAT_FREQ_UNTRACED (if ppb.isSome then 0 else 1)).setFld LH_START_PHASE 2 with start := some p }

/-- The dies of island i read `v` from their straps (R454): IS_IDENT [15:0]. -/
def State.readStraps (s : State) (i v : Nat) : State :=
  (((((((s.setFld (IS_IDENT_CD_POS i) v).setFld (IS_IDENT_CD_ROT i) (v / 16)).setFld (IS_IDENT_CD_MIRROR i) (v / 64)).setFld (IS_IDENT_CD_OK i) (v / 128)).setFld
    (IS_IDENT_SH_POS i) (v / 256)).setFld (IS_IDENT_SH_ROT i) (v / 4096)).setFld (IS_IDENT_SH_MIRROR i) (v / 16384)).setFld (IS_IDENT_SH_OK i) (v / 32768)

/-- Where a die's grid position stands in the base's coordinates (R455): mirrored first, then rotated clockwise. Die row `a`, column
`b`, both 0 to 3; answers base row and column. -/
def toBase (rot mirror a b : Nat) : Nat × Nat :=
  let b := if mirror = 1 then 3 - b else b
  match rot with
  | 0 => (a, b)
  | 1 => (b, 3 - a)
  | 2 => (3 - a, 3 - b)
  | _ => (3 - b, a)
/-- Base position of a region, sector, bond group's sector or control bond `r` (0 to 15, die row r / 4 and column r mod 4) of island
i's compute die, and of its shoal die, under the straps as read (R454, R455). -/
def State.regionAt (s : State) (i r : Nat) : Nat × Nat := toBase (s.fld (IS_IDENT_CD_ROT i)) (s.fld (IS_IDENT_CD_MIRROR i)) (r / 4) (r % 4)
def State.sectorAt (s : State) (i r : Nat) : Nat × Nat := toBase (s.fld (IS_IDENT_SH_ROT i)) (s.fld (IS_IDENT_SH_MIRROR i)) (r / 4) (r % 4)

/-- The stand-alone test mode entered at a cold reset (R465): with TESTEN high, in the manufacturing state only. The fixture of a compute die forces
its MIRROR strap to 1. -/
def State.enterTest (s : State) (p : StartPlan) : State :=
  let s := { s with testMode := if s.secRec.lifecycle = 0 then p.testen else none }
  if s.testMode = some .cd then (List.range 16).foldl (fun (s : State) i => s.setFld (IS_IDENT_CD_MIRROR i) 1) s else s

/-- Power comes valid (R462, R559): phases 0 and 1. -/
def State.powerUp (s : State) (p : StartPlan) : State :=
  let s := match p.flash with | some k => { s with flash := s.flash.stock k } | none => s
  let s := { (p.straps.foldl (fun (s : State) x => s.readStraps x.1 x.2.toNat) s).enterTest p with mgmtAddr := 0x60 + p.mgmtAddr.toNat }
  if p.romFails then s.startFailed 1 else s.vote p

/-- POWER_VALID (R449, R555). -/
def execPowerValid (plan : StartPlan) (s : State) : Out :=
  if s.start.isSome ∨ s.fld LH_START_PHASE ≠ 0 then .next s else .next (s.powerOff.powerUp plan)

/-- Tiles whose ring codes are missing (R461). -/
def State.coldTiles (s : State) : Nat := ofBitList ((List.range 16).filter (fun i => (s.flash.calRec 3 i).isNone))

/-- A cold ring search lengthens this start-up (R461): until ring lock ends the store says so, and LH_START from then on. -/
def State.coldStart (s : State) : Bool := if s.fld LH_START_PHASE ≤ 5 then s.coldTiles != 0 else s.fld LH_START_COLD_RINGS == 1

/-- Milliseconds from the vote to the end of a phase (R462). -/
def phaseEnd (cold : Bool) (phase : Nat) : Nat :=
  match phase with
  | 2 => 250
  | 3 => 350
  | 4 => 500
  | 5 => if cold then 12100 else 1100
  | 6 => if cold then 12300 else 1300
  | 7 => if cold then 12700 else 1700
  | _ => if cold then 13300 else 2300

/-- The straps of island i let it start (R454). -/
def State.identOk (s : State) (i : Nat) : Bool :=
  s.fld (IS_IDENT_CD_OK i) == 1 && s.fld (IS_IDENT_SH_OK i) == 1 && s.fld (IS_IDENT_CD_POS i) == s.fld (IS_IDENT_SH_POS i) &&
  s.fld (IS_IDENT_CD_ROT i) == s.fld (IS_IDENT_SH_ROT i)
/-- IS_IDENT [15:0]. -/
def State.ident (s : State) (i : Nat) : Nat :=
  s.fld (IS_IDENT_CD_POS i) + s.fld (IS_IDENT_CD_ROT i) * 16 + s.fld (IS_IDENT_CD_MIRROR i) * 64 + s.fld (IS_IDENT_CD_OK i) * 128
    + s.fld (IS_IDENT_SH_POS i) * 256 + s.fld (IS_IDENT_SH_ROT i) * 4096 + s.fld (IS_IDENT_SH_MIRROR i) * 16384 + s.fld (IS_IDENT_SH_OK i) * 32768

/-- The boot of phase 2 (R522): slot SELECT, then the other. -/
def State.boot (s : State) : State :=
  let n := s.secRec.select
  if s.slotCheck n = 0 then (s.setFld SEC_STAT_FALLBACK 0).showSec.setFld LH_START_PHASE 3
  else if s.slotCheck (1 - n) = 0 then (s.setFld SEC_STAT_FALLBACK 1).showSec.setFld LH_START_PHASE 3
  else s.startFailed 3

/-- A phase ends, and the next begins. -/
def State.endPhase (s : State) (p : StartPlan) (phase : Nat) : State :=
  let next (s : State) : State := s.setFld LH_START_PHASE (phase + 1)
  match phase with
  | 2 => (s.endSoak p.raw).boot
  | 3 =>
    let s := (List.range 16).foldl (fun s i =>
      if s.identOk i then (List.range 16).foldl (fun s r => s.setFld (IS_CLK_REGION_PLL_LOCKED i r) 1) s
      else { s.raise 0x2007 i (srcIx 0 0) (s.ident i) with leftOut := s.leftOut ||| 2 ^ i }) s
    next { s with leftOut := s.leftOut ||| p.failed3.toNat }
  | 4 => next { (List.range 16).foldl (fun s i => s.train i) s with leftOut := s.leftOut ||| p.failed4.toNat }
  | 5 =>
    let cold := s.coldTiles
    let s := (s.setFld LH_CAL_STAT_COLD_TILES cold).setFld LH_START_COLD_RINGS (if cold = 0 then 0 else 1)
    next ((bitList 16 cold).foldl (fun s i => s.raise 0x700A i (srcIx 0 0) 0) s)
  | 6 => next ((p.lanes.foldl (fun s x => s.addCause (.lane x.1 x.1 x.2.1 x.2.2)) (p.marks.foldl (fun s m => s.trainMark m.1 m.2.1 m.2.2.1 m.2.2.2.toNat) s)).decideRepairs.forceRepairs 0xFFFF (s.now + 2)).storeSelected
  | 7 => next { s with leftOut := s.leftOut ||| p.failed7.toNat }
  | _ => s

/-- Start-up at a module slot tick: a phase of 2 to 7 that has taken its time ends. -/
def State.startTick (s : State) : State :=
  match s.start with
  | some p =>
    let ph := s.fld LH_START_PHASE
    if 2 ≤ ph ∧ ph ≤ 7 ∧ ms (phaseEnd s.coldStart ph) ≤ s.now then s.endPhase p ph else s
  | none => s

/-- The stack page whose record the metadata unit at stack address `a` begins in (R286). -/
def State.recordPage (s : State) (i a : Nat) : Nat :=
  ((List.range 4).foldl (fun (r : Option Nat × Nat) k =>
    let m := recordBytes (s.fld (BT_MC_REGION_LEVEL i k))
    let n := if s.fld (BT_MC_REGION_VALID i k) = 1 then s.regionPages i k else 0
    if r.1.isNone && decide (a < r.2 + n * m) then (some (s.regionFirst i k + (a - r.2) / m), r.2) else (r.1, r.2 + n * m))
    (none, s.fld (BT_MC_LAYOUT_META_BASE i) * 32)).1.getD 0

/-- A line of stack n, data or record, that the self-test found to miscompare, at stack address `a` (R294, R299). -/
def State.logDefect (s : State) (i n a : Nat) : State :=
  let a := a / 128 * 128
  let rec_ := decide (s.fld (BT_MC_LAYOUT_META_BASE i) * 32 ≤ a)
  let q := if rec_ then s.recordPage i a else a / 4096
  s.logMem i (elogRec 9 n a reqSelfTest (hbmBase i + q * 32768 + n * 4096) 0 0 (if rec_ then 0 else 2 ^ (a / 128 % 32)) (s.fld LH_SLOT_COUNT_COUNT))

/-- The results of the self-test (R294, R295). -/
def State.selfTest (s : State) (p : StartPlan) : State :=
  let s := (List.range 16).foldl (fun s i => ((s.setFld (BT_MC_SELFTEST_DONE i) 0xFF).setFld (BT_MC_SELFTEST_CHECKERS_OK i) 0xFF)) s
  let s := p.checkers.foldl (fun (s : State) c =>
    { (s.setFldBit (BT_MC_SELFTEST_CHECKERS_OK c.1) c.2.1 false).raise 0x2006 c.1 (stkSrc c.2.1) (if c.2.2 then 3 else 2) with
      leftOut := s.leftOut ||| 2 ^ c.1.val }) s
  let s := p.channels.foldl (fun (s : State) c => s.orFld (BT_MC_STK_ERASE_FAILED c.1 c.2.1) c.2.2.toNat) s
  p.defects.foldl (fun (s : State) d =>
    (s.logDefect d.1 d.2.1 d.2.2.toNat).bump (BT_MC_SELFTEST_DEFECT_LINES d.1) 1) s

/-- MODULE_READY (R463): phase 8 has ended on every island still in start-up. -/
def execModuleReady (s : State) : Out :=
  match s.start with
  | some p =>
    if s.fld LH_START_PHASE ≠ 8 ∨ s.now < ms (phaseEnd s.coldStart 8) then .next s
    else
      let s := s.selfTest p
      let avail := 0xFFFF - s.leftOut % 65536
      if avail = 0 then
        let (v, s) := s.free
        .next (s.startFailed (v.toNat % 256))
      else
        let s := (List.range 16).foldl (fun s i =>
          let s := (List.range 4).foldl (fun s k => s.setFld (BT_MC_REGION_DETECT_ONLY i k) 0) s
          let s := (List.range 8).foldl (fun (s : State) n => { s with laps := s.laps.set (i * 8 + n) { since := s.now } }) s
          if bitOf avail i then s.setPresent i true else s) s
        let s := ((s.noteAvail.setFld LH_CAP_ISLANDS_AVAIL avail).setFld LH_START_PHASE 9).setFld LH_START_READY_MS
          (s.now / 2000 + (if s.fld LH_START_WARM = 1 then 20 else 70))
        let s := (List.range 4).foldl (fun s n => s.setFld (HP_STAT_MODULE_READY n) 1) s
        let s := if s.fld SEC_STAT_FALLBACK = 1 then s.raise 0x7013 16 (srcIx 7 0) s.bootSlot else s
        .next ({ s with start := none }.raise 0x7012 16 (srcIx 0 0) avail)
  | none => .next s

/-- COOLANT_WRITE (R442): taken during the soak. -/
def State.coolantWrite (s : State) (v : Nat) : State :=
  if s.start.isSome ∧ s.fld LH_START_PHASE = 2 then (s.setFld LH_COOLANT_TEMP (bits v 0 16)).setFld LH_COOLANT_VALID (bits v 16 1) else s
def execCoolantWrite (v : BitVec 64) (s : State) : Out := .next (s.coolantWrite v.toNat)

/-! ### Resets (R449, R450) -/

/-- What a warm reset keeps beside flash: RWS fields, every LAST_SEQ (R429), the node number, the ports' links; and fields that show what it
does not reset: the supply, the straps. -/
def warmKeeps : List Fld :=
  LH_RESET_STAT_WARM_RESETS :: FB_NODE_NODE :: FB_NODE_VALID :: (List.range 16).map BT_TH_WEAR_CYCLES ++
  (List.range 16).map TN_RING_SEQ_LAST_SEQ ++
  (List.range 4).flatMap (fun n => [HP_PORT_SEQ_LAST_SEQ n, HP_STAT_SPEED n, HP_STAT_WIDTH n, HP_STAT_FLIT n, HP_STAT_SRIS n]) ++
  [LH_PWR_STAT_LOW_SUPPLY, LH_PWR_STAT_MARGIN, LH_PWR_STAT_CONV_FAILED, LH_PWR_STAT_BUS] ++
  (List.range 16).flatMap (fun i => [IS_IDENT_CD_POS i, IS_IDENT_CD_ROT i, IS_IDENT_CD_MIRROR i, IS_IDENT_CD_OK i, IS_IDENT_SH_POS i, IS_IDENT_SH_ROT i,
    IS_IDENT_SH_MIRROR i, IS_IDENT_SH_OK i])

/-- A count of temperature cycles goes on over a warm reset (R449, R489). -/
def State.keepWear (s z : State) (i : Nat) : State :=
  let x := s.therms.get {} i
  { z with therms := z.therms.set i { z.therms.get {} i with half := x.half, up := x.up, ext := x.ext } }.setFld (BT_TH_WEAR_CYCLES i) (s.fld (BT_TH_WEAR_CYCLES i))

def State.coldReset (s : State) (p : StartPlan) : State := s.powerOff.powerUp p

/-- A warm reset runs the start-up sequence from the keeper vote. -/
def State.warmReset (s : State) (p : StartPlan) : State :=
  let z := { s.powerOff with msixOn := s.msixOn, pcie := s.pcie, mgmtSeq := s.mgmtSeq, supply := s.supply, convDown := s.convDown, testMode := s.testMode, mgmtAddr := s.mgmtAddr }
  let z := warmKeeps.foldl (fun (z : State) f => if s.fld f = f.rst then z else z.setFld f (s.fld f)) z
  let z := ((z.bump LH_RESET_STAT_WARM_RESETS 1).setFld LH_START_WARM 1).vote p
  let z := (List.range 16).foldl (fun z i => s.keepWear z i) z
  -- a synthesiser in holdover stays in it (R440)
  if s.fld LH_CLK_STAT_HOLDOVER = 1 then (z.setFld LH_CLK_STAT_HOLDOVER 1).setFld LH_CLK_STAT_REF_OK 0 else z

/-- A reset written while a store is under way waits for it. -/
def State.resetOr (s : State) (cold : Bool) (p : StartPlan) : State :=
  if s.storing then { s with resetHeld := some (cold || s.resetHeld == some true) }
  else if cold then s.coldReset p else s.warmReset p

/-- WARM_RESET, COLD_RESET (R449): LH_RESET written by the management path. -/
def execWarmReset (plan : StartPlan) (s : State) : Out := .next (s.resetOr false plan)
def execColdReset (plan : StartPlan) (s : State) : Out := .next (s.resetOr true plan)

/-- RESET_WAITS_FOR_STORE (R450): the store has ended. -/
def execResetWaitsForStore (plan : StartPlan) (s : State) : Out :=
  match s.resetHeld with
  | some c => if s.storing then .next s else .next (s.resetOr c plan)
  | none => .next s

/-- A write of LH_RESET (R449, R450): COLD before WARM before ISLAND. -/
def State.lhResetWrite (s : State) (v : Nat) : State :=
  if bitOf v 1 then s.resetOr true {}
  else if bitOf v 0 then s.resetOr false {}
  else s.islandReset (bits v 32 16)

/-! ### Reference inputs (R440, R441) -/

/-- REFCLK_LOST (R440): no edge for 1 µs. The event halts every running tenancy clean. -/
def execRefclkLost (s : State) : Out :=
  if s.fld LH_CLK_STAT_HOLDOVER = 1 ∨ s.fld LH_CLK_STAT_REF_OK = 0 then .next s
  else
    let s := ((s.setFld LH_CLK_STAT_HOLDOVER 1).setFld LH_CLK_STAT_REF_OK 0).bump LH_CLK_STAT_REF_LOSSES 1
    .next (s.raise 0x2005 16 (srcIx 0 0) 0 s.runningTens)

/-- REFCLK_RELOCK (R440): REFCLK has been present for 10 ms. -/
def execRefclkRelock (s : State) : Out :=
  if s.fld LH_CLK_STAT_HOLDOVER = 0 then .next s else .next ((s.setFld LH_CLK_STAT_HOLDOVER 0).setFld LH_CLK_STAT_REF_OK 1)

/-- CALREF_LOST (R441). -/
def execCalrefLost (s : State) : Out :=
  if s.fld LH_CLK_STAT_CALREF_OK = 0 then .next s
  else .next ((((s.setFld LH_CLK_STAT_CALREF_OK 0).setFld LH_CLK_STAT_REF_PPB 0).setFld LH_CAL_STAT_FREQ_UNTRACED 1).raise 0x700B 16 (srcIx 0 0) 0)

end Sys2Proof.Machine
end

