-- ==== Sys2Proof/Machine/Fabric.lean ====
section
/-!
DEFINITION. The memory fabric on its way (R357, R358, R370, R371), and the requesting side's responses, retries and
queries (R359, R362 to R369, R374).
-/
namespace Sys2Proof.Machine

open Sys2Proof

/-! ### Packets on their way (R357, R358, R370) -/

/-- The node a packet travels to in the end, and the node it is heading for now (R370). -/
def FPkt.final (p : FPkt) : Nat := if p.isRequest then p.dstNode else p.srcNode
def FPkt.heading (p : FPkt) : Nat := if p.haldula && !p.phase then p.path % 65536 else p.final

/-- What this node does with a packet that arrived. -/
inductive Hop where
  | deliver | discard | misdelivered
  /-- Forward it, perhaps from the intermediate node on. -/
  | forward (p : FPkt)

def State.hop (s : State) (p : FPkt) : Hop :=
  if p.haldula then
    if p.hop = 15 then .discard
    else
      let q := if p.heading = s.node then { p with phase := true } else p
      if q.heading = s.node then .deliver else .forward q
  else if p.hop < p.hops then .forward p
  else if p.final = s.node then .deliver else .misdelivered

/-- Path entries by index. -/
def pathOf (es : List Nat) : Nat := (es.take 15).foldr (fun e v => e + 32 * v) 0

/-- Sends a response originated at base tile `tile` to the request `p` that came by link `arrival` at hop pointer `h` (R357, R370); it is
discarded where it has no route. -/
def State.fabricAnswer (s : State) (tile : Nat) (p : FPkt) (arrival h typ : Nat) (data : Nat := 0) (poison : Bool := false) : State :=
  let r : FPkt := { typ := typ, vc := if p.vc = 3 then 3 else 1, echo := p.mark, poison := poison, srcNode := p.srcNode,
                    dstNode := p.dstNode, srcUnit := p.srcUnit, tag := p.tag, eseq := p.eseq, incarn := p.incarn,
                    life := min (s.fld FB_CFG_LIFE) 500, offset := p.offset, aop := p.aop, data := data }
  let s := if typ = ftNack ∧ data = 7 then s.bump FB_STAT2_BUSY_SENT 1 else s
  if s.fld FB_CFG_HALDULA = 1 ∨ p.haldula then
    let bank := s.fld FB_HT_CTL_ACTIVE
    match s.htLink bank p.srcNode with
    | some k =>
      if s.lkState k = lsUp then s.toLink .out tile k { r with haldula := true, phase := true, epoch := bank, hops := 15, hop := 1 } else s
    | none => s
  else if s.lkState arrival = lsUp then
    s.toLink .out tile arrival { r with hops := h, hop := 1, path := pathOf (0 :: ((List.range (h - 1)).map (fun j => pathAt p.path (h - 1 - j)))) }
  else s

def nackPathDead : Nat := 4
def nackNoRoute : Nat := 5

/-- A packet that finds no way on from base tile `tile`: a request is answered, a response discarded. -/
def State.noWay (s : State) (tile : Nat) (p : FPkt) (arrival h code : Nat) : State :=
  if p.isRequest then s.fabricAnswer tile p arrival h ftNack code else s

/-- A packet that arrived by link k goes on by its path or table (R357, R370), its LIFE less the time it waited (R358). -/
def State.passOn (s : State) (k : Nat) (f : FIn) (p : FPkt) : State :=
  let life := p.life - 5 * (s.now - f.at_)
  if life = 0 then s.bump FB_STAT_EXPIRED 1
  else
    let p := { p with life := life }
    if p.haldula then
      match s.htLink p.epoch p.heading with
      | some o => if s.lkState o = lsUp then s.toLink .transit (linkTile k) o { p with hop := p.hop + 1 } else s.noWay (linkTile k) p k p.hop nackPathDead
      | none => s.noWay (linkTile k) p k p.hop nackNoRoute
    else
      let o := pathAt p.path p.hop
      if s.lkState o = lsUp then s.toLink .transit (linkTile k) o { p with path := putBits p.path (5 * p.hop) 5 k, hop := p.hop + 1 }
      else s.noWay (linkTile k) p k p.hop nackPathDead

/-! ### Ends of requests (R362, R363) -/

/-- Whether a request has used up its resends or its time (R362). -/
def FReq.spent (r : FReq) (now : Nat) : Bool :=
  decide (8 ≤ r.resends) || decide (ms 20 ≤ now - r.first) || (r.pkt.typ == ftAtomReq && decide (ms 10 ≤ now - r.first))

/-- Exhausted retries (R363): the stream is blocked; an atomic's tag is held UNKNOWN. -/
def State.exhaust (s : State) (tag : Nat) (r : FReq) : State :=
  let s : State := { s with sctxs := s.sctxs.map (fun (c : SCtx) => if c.is r.unit r.pkt.dstNode r.dunit r.pkt.vc then { c with blocked := true } else c) }
  if r.pkt.typ = ftAtomReq then
    ({ s with freqs := s.freqs.set tag { r with unknown := true, busy := none } }).fabricEnd r.who .unknown tag 0
  else (s.dropReq tag r).fabricEnd r.who .unreachable tag 0

/-- Sends a request again and counts it, or ends it: exhausted, or without a route (R356, R362). `f` updates its counts. -/
def State.again (s : State) (stat : Fld) (tag : Nat) (r : FReq) (syn : Bool) (f : FReq → FReq) : State :=
  if r.spent s.now then s.exhaust tag r
  else
    match (s.bump stat 1).resend tag (f r) syn with
    | (some _, s) => s
    | (none, _) => ((s.resend tag (f r) syn).2.dropReq tag r).fabricEnd r.who (.ofCode nackNoRoute) tag 0

def FReq.resent (r : FReq) : FReq := { r with resends := r.resends + 1 }

/-- Answers the ATOMIC_STATUS commands of an UNKNOWN tag and frees it (R365). -/
def State.astatEnd (s : State) (tag : Nat) (r : FReq) (outcome old : Nat) : State :=
  r.query.foldl (fun s c => s.complete c csOk (outcome + old * 2 ^ 64)) (s.dropReq tag r)

/-- ASTAT_REQ for an atomic held UNKNOWN, over the route in force (R365). -/
def State.sendQuery (s : State) (tag : Nat) (r : FReq) : State :=
  let p : FPkt := { typ := ftAstatReq, vc := 0, srcNode := s.node, dstNode := r.pkt.dstNode, srcUnit := r.unit, tag := tag,
                    eseq := r.pkt.eseq, incarn := r.pkt.incarn, life := min (s.fld FB_CFG_LIFE) 500, offset := r.pkt.offset }
  let (route, s) := s.routeOut r.ten r.pkt.dstNode p
  let s := { s with freqs := s.freqs.set tag { r with queryAt := some s.now } }
  match route with
  | some (k, p) => s.unitOut r.unit k p
  | none => s

/-! ### Commands -/

/-- The first packet of link k's receive queue that `f` picks, and the state without it: its cells are free (R337). -/
def State.takeIn (s : State) (k : Nat) (f : FPkt → Bool) : Option (FIn × State) :=
  let x := s.lk k
  (x.inq.find? (fun e => f e.pkt)).map (fun e =>
    let z := s.setLk k { x with inq := x.inq.erase e }
    (e, if e.old then z else z.freeLink k e.pkt))

/-- A packet the link lost when it went DOWN (R341, R357, R362): an own request is sent again, a forwarded one answered
PATH_DEAD, a response discarded. -/
def State.lostPkt (s : State) (k : Nat) (p : FPkt) : State :=
  if !p.isRequest then s
  else if p.srcNode = s.node then
    match s.freqs.find? (fun e => e.1 == p.tag) with
    | some (tag, r) =>
      if p.typ ≠ ftAstatReq ∧ r.pkt.eseq = p.eseq ∧ r.link = k ∧ !r.unknown then s.again FB_STAT_RESENDS tag r false FReq.resent
      else s
    | none => s
  else s.noWay (linkTile k) p (pathAt p.path (p.hop - 1)) (p.hop - 1) nackPathDead

/-- FABRIC_FORWARD (R357, R358, R370): a packet that link k lost, or the next packet of its receive queue that is not for
this node. -/
def execFabricForward (k : Fin 32) (s : State) : Out :=
  match s.lostPkts.find? (fun e => e.1 == k.val) with
  | some e => .next (({ s with lostPkts := s.lostPkts.erase e }).lostPkt k e.2)
  | none =>
    match s.takeIn k (fun p => match s.hop p with | .deliver => false | _ => true) with
    | none => .next s
    | some (f, s) =>
      match s.hop f.pkt with
      | .forward p => .next (s.passOn k f p)
      | .misdelivered => .next (if f.pkt.life = 0 then s.bump FB_STAT_EXPIRED 1 else s.noWay (linkTile k) f.pkt k f.pkt.hop nackNoRoute)
      | .discard => .next s
      | .deliver => .next s

/-- A response for request `r` under its tag (R362 to R364, R366). -/
def State.takeResponse (s : State) (tag : Nat) (r : FReq) (p : FPkt) : State :=
  let code := p.data % 256
  let done (s : State) (e : FEnd) (data : Nat) : State :=
    ((s.dropReq tag r).winResponse r.unit r.pkt.dstNode p.echo).fabricEnd r.who e tag data
  if p.typ = ftNack then
    if code = 4 then s.again FB_STAT_RESENDS tag r false FReq.resent
    else if code = 6 then s.again FB_STAT_RESENDS tag r true FReq.resent
    else if code = 7 then
      ({ s with freqs := s.freqs.set tag { r with busy := some s.now } }).winResponse r.unit r.pkt.dstNode true
    else done s (.ofCode code) 0
  else done s (if p.poison then .poison else .ok) p.data

/-- The request that a response answers (R364). -/
def State.asked (s : State) (p : FPkt) : Option (Nat × FReq) :=
  s.freqs.find? (fun e => e.1 == p.tag && e.2.pkt.eseq == p.eseq && e.2.pkt.dstNode == p.dstNode)

/-- A response reaches the unit that asked (R364, R365): it completes the matching request, or is discarded as late. -/
def State.fabricResponse (s : State) (p : FPkt) : State :=
  let s := if p.echo then s.bump FB_STAT2_ECHO_RX 1 else s
  match s.asked p with
  | some (tag, r) =>
    if r.unknown then
      let late := ms 16 ≤ s.now - r.first
      if r.queryAt.isSome ∧ p.typ = ftAstatRsp then
        s.astatEnd tag r (if late then 2 else p.data % 4) (if late ∨ p.data % 4 ≠ 0 then 0 else p.data / 4 % 2 ^ 64)
      else if r.queryAt.isSome ∧ p.typ = ftNack ∧ (p.data % 256 = 1 ∨ p.data % 256 = 2 ∨ p.data % 256 = 3) then
        s.astatEnd tag r (if late then 2 else 1) 0
      else s.bump FB_STAT_LATE_RESP 1
    else s.takeResponse tag r p
  | none => s.bump FB_STAT_LATE_RESP 1

/-- FABRIC_RESPONSE (R364, R365): the next response that link k holds for this node; one for an island crosses the base to its tile (R13). -/
def execFabricResponse (k : Fin 32) (s : State) : Out :=
  match s.takeIn k (fun p => !p.isRequest && (match s.hop p with | .deliver => true | _ => false)) with
  | none => .next s
  | some (f, s) =>
    let p := f.pkt
    if p.life = 0 then .next (s.bump FB_STAT_EXPIRED 1)
    else
      match s.asked p with
      | some (_, r) =>
        if r.unit < 16 then .next (s.crossBase (linkTile k) r.unit { kind := .answer, link := k, pkt := p, at_ := s.now })
        else .next (s.fabricResponse p)
      | none => .next (s.bump FB_STAT_LATE_RESP 1)

/-- FABRIC_RETRY_TIMEOUT (R362, R363): no response for TIMEOUT after the last transmission, or the time limit is reached. -/
def execFabricRetryTimeout (tag : BitVec 16) (s : State) : Out :=
  match s.freqs.find? (fun e => e.1 == tag.toNat) with
  | none => .next s
  | some (t, r) =>
    let limit := us (if s.fld FB_CFG_TIMEOUT = 0 then 1000 else s.fld FB_CFG_TIMEOUT)
    if r.unknown then .next s
    else if r.spent s.now then .next (s.exhaust t r)
    else if r.busy.isSome ∨ s.now - r.lastTx < limit then .next s
    else if 3 ≤ r.retries then .next (s.exhaust t r)
    else .next (s.again FB_STAT_RETRIES t r false (fun r => { r with retries := r.retries + 1 }))

/-- FABRIC_BUSY_RESEND (R362). -/
def execFabricBusyResend (tag : BitVec 16) (s : State) : Out :=
  match s.freqs.find? (fun e => e.1 == tag.toNat) with
  | none => .next s
  | some (t, r) =>
    match r.busy with
    | none => .next s
    | some at_ => if s.now - at_ < us 10 then .next s else .next (s.again FB_STAT_RESENDS t r false id)

/-- SOURCE_CONTEXT_FREE (R359). -/
def execSourceContextFree (unit : Fin 17) (node : BitVec 16) (dunit : Fin 17) (vc : Fin 4) (s : State) : Out :=
  .next { s with sctxs := s.sctxs.filter (fun c =>
    !(c.is unit node.toNat dunit vc && decide (ms 5 ≤ s.now - c.lastAt) && !s.live.any (fun r => r.inStream unit node.toNat dunit vc))) }

/-- DEST_CONTEXT_FREE (R359). -/
def execDestContextFree (node : BitVec 16) (unit dunit : Fin 17) (vc : Fin 4) (s : State) : Out :=
  .next { s with dctxs := s.dctxs.filter (fun c =>
    !(c.node == node.toNat && c.unit == unit.val && c.dunit == dunit.val && c.vc == vc.val && c.held.isEmpty && decide (ms 10 ≤ s.now - c.lastAt))) }

/-- SEND_WINDOW_RESET (R369): the window is created anew at WIN_INIT when next used. -/
def execSendWindowReset (unit : Fin 17) (node : BitVec 16) (s : State) : Out :=
  .next { s with swins := s.swins.filter (fun w =>
    !(w.unit == unit.val && w.node == node.toNat && decide (ms 5 ≤ s.now - w.lastAt) &&
      !s.live.any (fun r => r.unit == unit.val && r.pkt.dstNode == node.toNat))) }

/-- ATOMIC_UNKNOWN_EXPIRE (R363, R365). -/
def execAtomicUnknownExpire (tag : BitVec 16) (s : State) : Out :=
  match s.freqs.find? (fun e => e.1 == tag.toNat) with
  | none => .next s
  | some (t, r) => if r.unknown ∧ ms 16 ≤ s.now - r.first then .next (s.astatEnd t r 2 0) else .next s

/-- ASTAT_QUERY_SEND (R365): no sooner than 50 µs after the atomic's last transmission. -/
def execAstatQuerySend (tag : BitVec 16) (s : State) : Out :=
  match s.freqs.find? (fun e => e.1 == tag.toNat) with
  | none => .next s
  | some (t, r) =>
    if r.unknown ∧ !r.query.isEmpty ∧ r.queryAt.isNone ∧ us 50 ≤ s.now - r.lastTx then .next (s.sendQuery t r) else .next s

/-- ASTAT_QUERY_RETRY (R365). -/
def execAstatQueryRetry (tag : BitVec 16) (s : State) : Out :=
  match s.freqs.find? (fun e => e.1 == tag.toNat) with
  | none => .next s
  | some (t, r) =>
    match r.queryAt with
    | some at_ => if r.unknown ∧ ms 1 ≤ s.now - at_ ∧ s.now - r.first < ms 16 then .next (s.sendQuery t r) else .next s
    | none => .next s

/-! ### Registers with an effect of their own -/

/-- NODE_WRITE (R350): discarded while VALID is set. -/
def State.nodeWrite (s : State) (v : Nat) : State :=
  if s.fld FB_NODE_VALID = 1 then s
  else
    -- links held in IDENTIFY begin that step (R339)
    (List.range 32).foldl (fun (s : State) k => if s.lkState k = 4 then s.setLk k { s.lk k with since := s.now } else s)
      ((s.setFld FB_NODE_NODE v).setFld FB_NODE_VALID 1)
def execNodeWrite (node : BitVec 16) (s : State) : Out := .next (s.nodeWrite node.toNat)

/-- RT_INVAL (R356): NODE, TENANCY, ALL and MGMT of the written value. -/
def State.rtInval (s : State) (v : Nat) : State :=
  let tbl := if bitOf v 21 then 16 else bits v 16 4
  { s with rtCache := s.rtCache.filter (fun e => !(e.1 / 65536 == tbl && (bitOf v 20 || e.1 % 65536 == bits v 0 16))) }
def execRtInval (v : BitVec 64) (s : State) : Out := .next (s.rtInval v.toNat)

/-- HT_SWITCH (R371). -/
def State.htSwitch (s : State) : State :=
  if s.fld FB_HT_CTL_DRAINING = 1 then s.bump FB_HT_CTL_REFUSED 1
  else { (s.setFld FB_HT_CTL_ACTIVE (1 - s.fld FB_HT_CTL_ACTIVE)).setFld FB_HT_CTL_DRAINING 1 with htSwitchAt := s.now }
def execHtSwitch (s : State) : Out := .next s.htSwitch

/-- HT_DRAIN_END (R371). -/
def execHtDrainEnd (s : State) : Out :=
  .next (if s.fld FB_HT_CTL_DRAINING = 1 ∧ us 50 ≤ s.now - s.htSwitchAt then s.setFld FB_HT_CTL_DRAINING 0 else s)

/-- The mailbox's request is sent, or waits at a bound (R373, R374). One to the own node is carried to base tile BT0 as VC3 ferry traffic (R351,
R566). -/
def State.mboxSend (s : State) : State :=
  match s.mbox with
  | none => s
  | some q =>
    if !q.held then s
    else
      let n := if q.wide then 8 else 4
      let at_ := q.off % 128 / n * n
      let mask := if q.write then (2 ^ n - 1) * 2 ^ at_ else 0
      let data := if q.write then q.data % 256 ^ n * 256 ^ at_ else 0
      let s1 := { s with mbox := some { q with held := false } }
      if q.node = s.node then
        if s.ferryBusy 0 0 1 then s
        else s1.request 0 [({ typ := if q.write then ptWrReq else ptRdReq, vc := 3, src := 0, dst := 0, tile := true, addr := q.off / 8 * 8, mask := mask, data := data }, .mbox)]
      else
        match s1.originate { unit := 16, tbl := 16, node := q.node, off := q.off / 8 * 8, typ := if q.write then ftWrReq else ftRdReq, vc := 3, mask := mask, data := data, who := .mbox } with
        | .stall => s
        | .noRoute s => s.fabricEnd .mbox (.ofCode nackNoRoute) 0 0
        | .sent s => s

/-- MBOX_GO (R374): WRITE and WIDE of the written value; GO is ignored while BUSY. -/
def State.mboxGo (s : State) (write wide : Bool) : State :=
  let s := (s.setFld FB_MBOX_CTL_WRITE (if write then 1 else 0)).setFld FB_MBOX_CTL_WIDE (if wide then 1 else 0)
  if s.fld FB_MBOX_CTL_BUSY = 1 then s
  else
    let q : Mbox := { write := write, wide := wide, node := s.fld FB_MBOX_ADDR_NODE, off := s.fld FB_MBOX_ADDR_OFFSET, data := s.fld FB_MBOX_DATA_DATA }
    { (s.setFld FB_MBOX_CTL_BUSY 1).setFld FB_MBOX_CTL_STATUS 0 with mbox := some q }.mboxSend
def execMboxGo (write wide : Bool) (s : State) : Out := .next (s.mboxGo write wide)

end Sys2Proof.Machine
end

