-- ==== Sys2Proof/Machine/Power.lean ====
section
/-!
DEFINITION. Supply, power states, temperature and current limits (18), with the heat of HBM stacks (R278) and the erosion
of power bonds (R497). Temperatures are in 0.1 °C; times in module slot ticks.
-/
namespace Sys2Proof.Machine

open Sys2Proof

/-! ### Supply (R468 to R470, R485) -/

def State.capCfg (s : State) : Nat := min (max (s.fld LH_PWR_CFG_CAP) 800) 2150 * 10
/-- Converters failed (R469). -/
def State.convFailed (s : State) : Nat := popc 16 s.convDown
/-- The cap in force with k converters failed (R469). -/
def State.capFor (s : State) : Nat := if 2 ≤ s.convFailed then min s.capCfg (21500 - (s.convFailed - 1) * 1500) else s.capCfg

/-- MOD_FAULT_N is asserted (R560): start-up has FAILED or the module is STOPPING. -/
def State.modFault (s : State) : Bool := s.fld LH_START_PHASE == 15 || s.fld LH_PWR_STAT_STATE == 4

/-- The low-supply state is entered (R470); an activation not yet committed reverts (R533). -/
def State.enterLow (s : State) (bus : Nat) : State :=
  let s := { s with supply := { s.supply with good := none } }
  if s.lowSupply then s
  else
    let moving := decide (2 ≤ s.fld SEC_STAT_ACTIVITY) && !s.upd.committed && s.upd.fail == 0
    let s := if moving then { s with upd := { s.upd with fail := 0x02 } } else s
    (s.setFld LH_PWR_STAT_LOW_SUPPLY 1).raise 0x0002 16 (srcIx 0 0) (bus + s.fld LH_PWR_STAT_MARGIN * 2 ^ 16)

def Supply.mean (p : Supply) : Nat := p.meas.foldl (· + ·) 0 / max p.meas.length 1

/-- SUPPLY_SAMPLE (R470): one measurement, 10 mV; the module acts on the mean of the last eight. -/
def execSupplySample (bus : BitVec 16) (s : State) : Out :=
  let p := s.supply
  let p := { p with meas := (p.meas ++ [bus.toNat]).drop (p.meas.length + 1 - 8) }
  let m := p.mean
  let since (c : Bool) (o : Option Nat) : Option Nat := if c then some (o.getD s.now) else none
  let margin := s.fld LH_PWR_STAT_MARGIN == 1
  let p := { p with above := since (5800 < m) p.above, under := since (4400 ≤ m && m < 4600) p.under, good := since (4950 ≤ m && margin) p.good }
  let s := { s with supply := { p with high := 5600 < m } }.setFld LH_PWR_STAT_BUS m
  let s := if 5600 < m ∧ m ≤ 5800 ∧ !p.high then s.raise 0x0001 16 (srcIx 0 0) m else s
  .next (if m < 4900 ∨ !margin then s.enterLow m else s)

/-- PWR_MARGIN_CHANGE (R470). -/
def execPwrMarginChange (asserted : Bool) (s : State) : Out :=
  let s := s.setFld LH_PWR_STAT_MARGIN (if asserted then 1 else 0)
  let m := s.supply.mean
  if asserted then .next { s with supply := { s.supply with good := if 4950 ≤ m then some s.now else none } } else .next (s.enterLow m)

/-- LOW_SUPPLY_END (R470): 10 ms at 49.5 V or more with PWR_MARGIN. -/
def execLowSupplyEnd (s : State) : Out :=
  match s.supply.good with
  | some t => if s.lowSupply ∧ ms 10 ≤ s.now - t then .next (s.setFld LH_PWR_STAT_LOW_SUPPLY 0) else .next s
  | none => .next s

/-- SUPPLY_UNDER (R470): 100 µs between 44 and 46 V. -/
def execSupplyUnder (s : State) : Out :=
  match s.supply.under with
  | some t =>
    if us 100 ≤ s.now - t ∧ s.fld LH_PWR_STAT_STATE ≠ 4 then .next ((s.raise 0x0003 16 (srcIx 0 0) s.supply.mean).stopping false) else .next s
  | none => .next s

/-- OVERVOLTAGE_STOP (R470): 10 µs above 58 V. -/
def execOvervoltageStop (s : State) : Out :=
  match s.supply.above with
  | some t => if us 10 ≤ s.now - t then .next s.powerOff else .next s
  | none => .next s

/-- UNDERVOLTAGE_STOP (R470): below 44 V. -/
def execUndervoltageStop (s : State) : Out := if s.supply.meas.isEmpty ∨ 4400 ≤ s.supply.mean then .next s else .next s.powerOff

/-- CONVERTER_FAULT (R469): converter n fails. -/
def execConverterFault (n : Fin 16) (s : State) : Out :=
  if bitOf s.convDown n then .next s
  else
    let s := { s with convDown := s.convDown ||| 2 ^ n.val }
    let k := s.convFailed
    let s := (s.setFld LH_PWR_STAT_CONV_FAILED k).raise 0x0004 16 (srcIx 2 n) k
    .next (if 4 < k then s.stopping false else s)

/-- CAP_WRITE (R485): in force at the next module slot tick. -/
def execCapWrite (v : BitVec 64) (s : State) : Out := .next (s.setFld LH_PWR_CFG_CAP (v.toNat % 65536))

/-! ### Power states (R471 to R475) -/

/-- ENTER_STILL (R472): in RUN; running tenancies halt clean. -/
def State.enterStill (s : State) : State :=
  if s.fld LH_PWR_STAT_STATE ≠ 0 ∨ s.fld LH_START_PHASE ≠ 9 then s
  else
    let s := s.setFld LH_PWR_STAT_STATE 1
    s.runningTens.foldl (fun s t => s.pendHalt t hkClean 0) s
def execEnterStill (s : State) : Out := .next s.enterStill

/-- Nothing of the module waits for a response (R177). -/
def State.noneOutstanding (s : State) : Bool :=
  s.live.isEmpty && (List.range 16).all (fun b => (s.tile b).tags.isEmpty && (s.tile b).work.isEmpty)

/-- Steps 2 and 3 of R472 begin once no tenancy runs: host channels halt, walkers take no more, links go quiet. -/
def State.stillSteps (s : State) : State :=
  if s.fld LH_PWR_STAT_STATE ≠ 1 ∨ !s.runningTens.isEmpty then s
  else
    let s := (List.range 32).foldl (fun s n => s.dmaStopFor (512 + n) drSoftware) s
    let s := (List.range 16).foldl (fun s i => s.setKv i { s.kv i with quiet := true }) s
    if !s.noneOutstanding then s
    else (List.range 32).foldl (fun s k => if s.lkState k = lsUp ∧ !(s.lk k).quieting then s.setLk k { s.lk k with quieting := true } else s) s

/-- STILL_REACHED (R472): every step has completed: caches written back, dies off. -/
def execStillReached (s : State) : Out :=
  let channels := (List.range 32).all (fun n => let st := s.fld (dmState (512 + n)); st != dsRunning && st != dsWaiting && st != dsDraining)
  let walkers := (List.range 16).all (fun i => (s.kv i).todo.isEmpty && (s.kv i).flight.isEmpty)
  let links := (List.range 32).all (fun k => s.lkState k != lsUp && s.lkState k != lsRetrain)
  if s.fld LH_PWR_STAT_STATE ≠ 1 ∨ !s.runningTens.isEmpty ∨ !channels ∨ !walkers ∨ !links ∨ !s.noneOutstanding then .next s
  else
    let s := (List.range 16).foldl State.writeBack s
    let s := (List.range 16).foldl (fun s i => (s.clearDie i).zeroShoal i) s
    let s := (List.range 16).foldl (fun s t => s.setFld (TN_CKPT_STAT_CLEAN t) 0) s
    let s := { s with laps := s.laps.map (fun (e : Nat × Lap) => (e.1, { e.2 with part := true })) }
    .next ((s.setFld LH_PWR_STAT_STATE 2).raise 0x7010 16 (srcIx 0 0) 0)

/-- The module wakes from STILL (R473, R474); `at_`: the slot tick at which the wake is sampled. -/
def State.wakeFrom (s : State) (at_ : Nat) : State :=
  if s.fld LH_PWR_STAT_STATE ≠ 2 then s else { s.setFld LH_PWR_STAT_STATE 3 with wakeAt := at_ }
/-- A command sampled at this tick wakes the module. -/
def State.wake (s : State) : State := s.wakeFrom s.now
/-- WAKE (R473): a write of LH_PWR_CTL.WAKE, sampled at the next slot tick. -/
def execWake (s : State) : Out := .next (s.wakeFrom (s.now + 1))

/-- WAKE_END (R474): 60,000 ticks after the wake was sampled; `failed` islands have failed a step of it. -/
def execWakeEnd (failed : BitVec 16) (s : State) : Out :=
  if s.fld LH_PWR_STAT_STATE ≠ 3 ∨ s.now < s.wakeAt + 60000 then .next s
  else
    let s := (bitList 16 failed.toNat).foldl (fun s i =>
      if s.avail i then ((s.islandDown i).setAvail i false).setRejoin i { since := s.now } else s) s
    let s := (List.range 16).foldl (fun s i => (s.zeroShoal i).setKv i { s.kv i with quiet := false }) s
    let s := (List.range 32).foldl (fun s k =>
      if s.lkState k = lsQuiet ∧ s.lkTarget k = 2 then let s := s.linkUp k false; s.setLk k { s.lk k with marker := some 4 } else s) s
    .next (s.setFld LH_PWR_STAT_STATE 0 |>.raise 0x7011 16 (srcIx 0 0) 0)

/-- SHUTDOWN (R475). -/
def execShutdown (s : State) : Out := .next (s.stopping true)

/-- STOPPING_RAILS_FALL (R475): tenancies halted, nothing outstanding, no flash store under way. -/
def execStoppingRailsFall (s : State) : Out :=
  if s.fld LH_PWR_STAT_STATE ≠ 4 ∨ !s.runningTens.isEmpty ∨ s.storing ∨ !s.noneOutstanding then .next s else .next s.powerOff

/-- A write of LH_PWR_CTL (R471): SHUTDOWN acts alone; requests that do not apply are ignored. -/
def State.pwrCtl (s : State) (v : Nat) : State :=
  if bitOf v 2 then s.stopping true
  else
    let still := bitOf v 0 && s.fld LH_PWR_STAT_STATE == 0
    let s := if still then s.enterStill else s
    if bitOf v 1 && !still then s.wakeFrom (s.now + 1) else s

/-! ### Current limits (R482, R497) -/

def State.therm (s : State) (i : Nat) : Therm := s.therms.get {} i
def State.setTherm (s : State) (i : Nat) (t : Therm) : State := { s with therms := s.therms.set i t }

/-- Top of the limit's range (R497). -/
def State.limitTop (s : State) (i : Nat) : Nat := if 2 ≤ (s.therm i).eroded then 1000 else 1250

/-- One step of 25 A down, at most one in a module slot tick (R482). `source`: 1 TEMP, 2 RATE, 3 CAP, 4 a stack. -/
def State.lowerLimit (s : State) (i source src : Nat) : State :=
  let t := s.therm i
  let l := s.fld (BT_TH_ILIM_LIMIT i)
  if t.stepAt = some s.now ∨ l ≤ 500 then s
  else
    let s := ((s.setTherm i { t with stepAt := some s.now }).setFld (BT_TH_ILIM_LIMIT i) (max 500 (l - 25))).bump (BT_TH_STAT_STEPS i) 1
    if s.limitTop i ≤ l then s.raise 0x5005 i src source else s

/-- Some source is active (R482). -/
def State.sourceActive (s : State) (i : Nat) : Bool :=
  s.fld (BT_TH_ILIM_TEMP i) == 1 || s.fld (BT_TH_ILIM_RATE i) == 1 || s.fld (BT_TH_ILIM_CAP i) == 1

/-- The present time counts as active for the rise of the limit. -/
def State.stirred (s : State) (i : Nat) : State := if s.sourceActive i then s.setTherm i { s.therm i with calmAt := s.now } else s

/-- Layers that throttle: 0 compute die, 1 shoal, 2 base tile, 3 + n stack n (R478, R482). -/
def State.setLayer (s : State) (i n : Nat) (on : Bool) : State :=
  let l := putBits (s.therm i).layers n 1 (if on then 1 else 0)
  (s.setTherm i { s.therm i with layers := l }).setFld (BT_TH_ILIM_TEMP i) (if l = 0 then 0 else 1)

/-- ILIM_RISE (R482): 1 ms with no source active. -/
def execIlimRise (i : Fin 16) (s : State) : Out :=
  let l := s.fld (BT_TH_ILIM_LIMIT i)
  if s.sourceActive i ∨ s.now - (s.therm i).calmAt < ms 1 ∨ s.limitTop i ≤ l then .next s
  else .next ((s.setTherm i { s.therm i with calmAt := s.now }).setFld (BT_TH_ILIM_LIMIT i) (min (s.limitTop i) (l + 25)))

/-- CAP_CHECK (R482): input power over 1 ms, W. -/
def execCapCheck (power : BitVec 32) (s : State) : Out :=
  let w := power.toNat
  let past := decide (s.capNow < w)
  let off := decide (w * 100 ≤ s.capNow * 98)
  let active := past || (s.fld LH_PWR_STAT_CAP_ACTIVE == 1 && !off)
  let s := (s.setFld LH_PWR_STAT_INPUT_W w).setFld LH_PWR_STAT_CAP_ACTIVE (if active then 1 else 0)
  .next ((List.range 16).foldl (fun s i =>
    let s := (s.setFld (BT_TH_ILIM_CAP i) (if active then 1 else 0)).stirred i
    if past then s.lowerLimit i 3 (srcIx 0 0) else s) s)

/-! ### Temperatures (R476 to R481, R487 to R489) -/

/-- Throttle, critical and trip thresholds of a layer (R478). -/
def thresholds (layer : Nat) : List Int :=
  match layer with
  | 0 => [950, 1100, 1180]
  | 1 => [900, 1050]
  | 2 => [850, 1000]
  | _ => [950, 1050]
def within10 (layer : Nat) (t : Int) : Bool := (thresholds layer).any (fun h => decide (h - 100 ≤ t) && decide (t ≤ h + 100))
def sensorRd (l : List (BitVec 16)) (j : Nat) : Int := (l.getD j 0).toInt
def maxInt (l : List Int) : Int := l.foldl max (l.headD 0)
def tempByte (t : Int) : Nat := wrap 8 (t / 10)

/-- BT_TH_SENSOR: reading, VALID and PEAK of sensor j. -/
def State.readSensor (s : State) (i j : Nat) (t : Int) : State :=
  let peak := if s.fld (BT_TH_SENSOR_VALID i j) = 1 then max (sext 16 (s.fld (BT_TH_SENSOR_PEAK i j))) t else t
  ((s.setFld (BT_TH_SENSOR_TEMP i j) (wrap 16 t)).setFld (BT_TH_SENSOR_VALID i j) 1).setFld (BT_TH_SENSOR_PEAK i j) (wrap 16 peak)

/-- Counts of temperature cycles (R489). -/
def Therm.cycle (x : Therm) (t : Int) : Therm :=
  if x.up then
    if x.ext < t then { x with ext := t }
    else if 300 ≤ x.ext - t then { x with half := x.half + 1, up := false, ext := t }
    else x
  else
    if t < x.ext then { x with ext := t }
    else if 300 ≤ t - x.ext then { x with half := x.half + 1, up := true, ext := t }
    else x

def State.wear (s : State) (i : Nat) (t : Int) : State :=
  let x := (s.therm i).cycle t
  let s := (s.setTherm i x).setFld (BT_TH_WEAR_CYCLES i) (x.half / 2)
  if 40000 ≤ x.half / 2 ∧ s.fld (BT_TH_WEAR_WARNED i) = 0 then (s.setFld (BT_TH_WEAR_WARNED i) 1).raise 0x7008 i (srcIx 0 0) (x.half / 2) else s

/-- Drop over the power bonds against the baseline, in % (R497). -/
def State.erosion (s : State) (i rise : Nat) : State :=
  let x := s.therm i
  let s := if 15 ≤ rise ∧ x.eroded = 0 then (s.setTherm i { x with eroded := 1 }).raise 0x7007 i (srcIx 0 0) rise else s
  if 30 ≤ rise ∧ (s.therm i).eroded = 1 then
    let s := ((s.setTherm i { s.therm i with eroded := 2 }).setFld (IS_FENCE_ILIM_LOWERED i) 1).raise 0x7007 i (srcIx 0 0) rise
    s.setFld (BT_TH_ILIM_LIMIT i) (min 1000 (s.fld (BT_TH_ILIM_LIMIT i)))
  else s

/-- Rate of the compute die in 0.1 K/ms: the rise over the last 100 µs, times ten. -/
def Therm.rateAt (x : Therm) (now : Nat) (t : Int) : Int :=
  match (x.hist.filter (fun e => decide (e.1 + us 100 ≤ now))).getLast? with
  | some e => (t - e.2) * 10
  | none => 0

/-- A layer above its throttle temperature lowers the limit at each sample; it stays active down to 3 K below (R478, R482). -/
def State.throttleLayer (s : State) (i layer : Nat) (t : Int) : State :=
  let h := (thresholds layer).headD 0
  let on := decide (h ≤ t) || (bitOf (s.therm i).layers layer && decide (h - 30 ≤ t))
  let s := s.setLayer i layer on
  if h ≤ t then s.lowerLimit i 1 (srcIx 0 0) else s

/-- Corrected words of the shoal over the last millisecond (R487). -/
def State.fixRate (s : State) (i : Nat) : Nat :=
  s.shoalFixes.get 0 i - (((s.therm i).fixes.filter (fun e => decide (e.1 + ms 1 ≤ s.now))).getLast?.map (·.2)).getD 0
/-- This sample's count joins those of the last millisecond, of which the last before it stays. -/
def State.noteFixes (s : State) (i : Nat) : State :=
  let l := (s.therm i).fixes ++ [(s.now, s.shoalFixes.get 0 i)]
  let old := l.filter (fun e => decide (e.1 + ms 1 ≤ s.now))
  s.setTherm i { s.therm i with fixes := old.drop (old.length - 1) ++ l.filter (fun e => decide (s.now < e.1 + ms 1)) }

/-- log2 in 1/256, rounded down. -/
def log2In256 (n : Nat) : Nat := (n ^ 256).log2

/-- The sum of R487 over what it multiplies out to, and that multiple of 0.1 K: `rd` the readings, `w` the SHOAL rail's power in W, `c` corrected
words per millisecond, `k` the coefficients. -/
def estSum (rd : Nat → Int) (w c : Nat) (k : Int × Int × Int) : Int :=
  let base := ((List.range 8).map (fun j => rd (20 + j))).foldl (· + ·) 0
  let cd := ((List.range 16).map rd).foldl (· + ·) 0
  2 ^ 25 * base + 256 * k.1 * (cd - 2 * base) + 4096 * k.2.1 * w + 16 * k.2.2 * log2In256 (1 + c)
def estUnit : Int := 2 ^ 28

/-- The estimator's coefficients in force (R461, R487). -/
def State.coeffs (s : State) (i : Nat) : Int × Int × Int := (s.therm i).coef.getD (Config.estCoeff i 1, Config.estCoeff i 2, Config.estCoeff i 3)
/-- T_est at a sample, 0.1 °C (R487): whether the sum is rounded down or up is left open. -/
def State.estimate (s : State) (i : Nat) (rd : Nat → Int) (w : Nat) : Int × State :=
  let (v, t) := s.free
  (estSum rd w (s.fixRate i) (s.coeffs i) / estUnit + (v.toNat % 2 : Nat), t)

/-- A sample at load (R487): time at load counts, and the coefficients are refined against the trusted shoal sensors; where the recursion
starts from and how it forgets is left open, so that what it finds is free. -/
def State.learn (s : State) (i : Nat) : State :=
  if s.fld (BT_TH_ILIM_CURRENT i) < 625 then s
  else
    let x := s.therm i
    let load := x.load + (if s.fld (BT_TH_TEMP_FAST i) = 1 then us 10 else us 100)
    let s := (s.setTherm i { x with load := load }).setFld (BT_TH_TEMP_EST_LEARNED i)
      (if 60 * second ≤ load then 1 else s.fld (BT_TH_TEMP_EST_LEARNED i))
    if s.fld (BT_TH_STAT_DISTRUSTED i) = 15 then s
    else
      let (k1, s) := s.free
      let (k2, s) := s.free
      let (k3, s) := s.free
      s.setTherm i { s.therm i with coef := some (k1.toInt, k2.toInt, k3.toInt) }

/-- What sensor j of island i shows: its reading and its offset (R442). -/
def State.traced (s : State) (i : Nat) (l : List (BitVec 16)) (j : Nat) : Int := sensorRd l j + s.tempOff.get 0 (i * 32 + j)

/-- SENSOR_SAMPLE (R442, R477 to R482, R487 to R489, R497): what the island's 28 sensors read, numbered as BT_TH_SEL.SENSOR, the power of the
SHOAL rail in W, and the rise of the power-bond drop. -/
def execSensorSample (i : Fin 16) (readings : List (BitVec 16)) (shoalW : BitVec 16) (rise : BitVec 8) (s : State) : Out :=
  let rd := s.traced i readings
  let s := (List.range 28).foldl (fun s j => s.readSensor i j (rd j)) s
  -- the estimator
  let (est, s) := s.estimate i rd shoalW.toNat
  let s := (s.noteFixes i).learn i
  let bad := s.fld (BT_TH_STAT_DISTRUSTED i)
  let off := (List.range 4).foldl (fun (o : Tbl Nat) j =>
    let d := rd (16 + j) - est
    if bitOf bad j then o else if 60 < d ∨ d < -60 then o.set j (o.get s.now j) else o.erase j) (s.therm i).offSince
  let s := s.setTherm i { s.therm i with offSince := off }
  -- governing temperatures
  let cd := maxInt ((List.range 16).map rd)
  let hot := ((List.range 16).find? (fun j => rd j == cd)).getD 0
  let base := maxInt ((List.range 8).map (fun j => rd (20 + j)))
  let shoal := ((List.range 4).filter (fun j => !bitOf bad j)).foldl (fun m j => max m (rd (16 + j)))
    (if s.fld (BT_TH_TEMP_EST_LEARNED i) = 1 then est else est + 50)
  let rate := (s.therm i).rateAt s.now cd
  let x := s.therm i
  let s := s.setTherm i { x with hist := (x.hist ++ [(s.now, cd)]).filter (fun e => decide (s.now ≤ e.1 + us 200)) }
  let s := (((s.setFld (BT_TH_TEMP_CD i) (tempByte cd)).setFld (BT_TH_TEMP_SHOAL i) (tempByte shoal)).setFld (BT_TH_TEMP_BASE i) (tempByte base)).setFld
    (BT_TH_TEMP_SHOAL_EST i) (tempByte est)
  let s := s.setFld (BT_TH_TEMP_RATE i) (wrap 16 rate)
  -- fast sampling
  let anyStack := (List.range 8).any (fun n => within10 3 ((s.fld (BT_MC_STK_STAT_TEMP i n) : Nat) * 10))
  let s := if within10 0 cd || within10 1 shoal || within10 2 base || anyStack || decide (50 < rate) then
      (s.setTherm i { s.therm i with fastAt := s.now }).setFld (BT_TH_TEMP_FAST i) 1 else s
  -- limits
  let s := ((s.throttleLayer i 0 cd).throttleLayer i 1 shoal).throttleLayer i 2 base
  let x := s.therm i
  let s := if 120 < rate ∧ !x.episode then (s.setTherm i { x with episode := true }).raise 0x5004 i (srcIx 9 hot) (wrap 16 rate)
    else if rate < 40 then s.setTherm i { x with episode := false } else s
  let s := (s.setFld (BT_TH_ILIM_RATE i) (if (s.therm i).episode then 1 else 0)).stirred i
  -- stops
  let crit := if 1100 ≤ cd then some (hot, cd) else if 1050 ≤ shoal then some (16, shoal) else if 1000 ≤ base then some (20, base) else none
  let s := if !s.avail i then s
    else match crit with
      | some (j, t) => s.orderlyStop i 1 (srcIx 9 j) t
      | none => if 300 < rate then s.orderlyStop i 3 (srcIx 9 hot) cd
          else if 1100 ≤ cd + 2 * rate then s.orderlyStop i 2 (srcIx 9 hot) cd else s
  -- a rejoin waits for every sensor to be cool (R481)
  let cool := (List.range 28).all (fun j => decide (rd j ≤ (if j < 16 then 800 else if j < 20 then 750 else 700)))
  let s := match s.rejoins.find? (fun e => e.1 == i.val) with
    | some (_, r) => if r.thermal then s.setRejoin i { r with cool := if cool then some (r.cool.getD s.now) else none } else s
    | none => s
  .next ((s.wear i cd).erosion i rise.toNat)

/-- FAST_SAMPLING_OFF (R477): 1 ms without cause. -/
def execFastSamplingOff (i : Fin 16) (s : State) : Out :=
  if s.fld (BT_TH_TEMP_FAST i) = 1 ∧ ms 1 ≤ s.now - (s.therm i).fastAt then .next (s.setFld (BT_TH_TEMP_FAST i) 0) else .next s

/-- THERM_TRIP (R480): a comparator sees a compute-die sensor at 118 °C. -/
def execThermTrip (i sensor : Fin 16) (temp : BitVec 16) (s : State) : Out :=
  if temp.toInt < 1180 ∨ s.fldBit LH_RESET_STAT_DOWN i then .next s
  else .next (((((s.islandDown i).setRejoin i { since := s.now, thermal := true }).setFld (BT_TH_STAT_STOP_CAUSE i) 4).raise 0x1002 i (srcIx 9 sensor) temp.toNat))

/-- SENSOR_DISTRUST (R488): 5 ms of disagreement. -/
def execSensorDistrust (i : Fin 16) (sensor : Fin 4) (s : State) : Out :=
  match (s.therm i).offSince.find? (fun e => e.1 == sensor.val) with
  | some e =>
    if s.now - e.2 < ms 5 ∨ s.fldBit (BT_TH_STAT_DISTRUSTED i) sensor then .next s
    else
      let s := s.setTherm i { s.therm i with offSince := (s.therm i).offSince.erase sensor }
      .next (((s.setFldBit (BT_TH_STAT_DISTRUSTED i) sensor true).setFld (BT_TH_SENSOR_DISTRUSTED i (16 + sensor.val)) 1).raise 0x7009 i (srcIx 9 (16 + sensor.val)) 0)
  | none => .next s

/-- HBM_TEMP_SAMPLE (R278): a stack's own temperature, °C. -/
def execHbmTempSample (i : Fin 16) (n : Fin 8) (deg : BitVec 8) (s : State) : Out :=
  let t := deg.toNat
  let key := i.val * 8 + n.val
  let s := s.setFld (BT_MC_STK_STAT_TEMP i n) t
  let s := if 85 < t then s.setFld (BT_MC_STK_STAT_REFRESH_2X i n) 1 else if t < 83 then s.setFld (BT_MC_STK_STAT_REFRESH_2X i n) 0 else s
  let old := s.fld (BT_MC_STK_STAT_THROTTLE i n)
  let steps := if 95 ≤ t then max old (min 4 (t - 94)) else if t = 94 then old else min old (s.hbmPeak.get 0 key - (94 - t))
  let s := if 94 ≤ t then { s with hbmPeak := s.hbmPeak.set key steps } else s
  let s := s.setFld (BT_MC_STK_STAT_THROTTLE i n) steps
  let s := if old = 0 ∧ 0 < steps then s.raise 0x5005 i (stkSrc n) 4 else s
  let s := (s.setLayer i (3 + n.val) (decide (0 < steps))).stirred i
  let s := if 95 ≤ t then s.lowerLimit i 4 (stkSrc n) else s
  .next (if 105 ≤ t ∧ s.avail i then s.orderlyStop i 5 (stkSrc n) (10 * t : Nat) else s)

/-! ### At a module slot tick (R483, R485) -/

/-- CORE current of island i over the tick, in A: the lowering or the hold of R483, RATE's step, the sum for R484. -/
def State.currentTick (s : State) (i amps : Nat) : State :=
  let s := s.setFld (BT_TH_ILIM_CURRENT i) amps
  let s := if (s.therm i).episode then (s.lowerLimit i 2 (srcIx 0 0)).stirred i else s
  let lim := s.fld (BT_TH_ILIM_LIMIT i)
  let s := s.setFld (BT_TH_ILIM_GATING i) 0
  match s.tenOf i with
  | some t =>
    let r := s.run t
    let s := s.setRun t { r with amps := r.amps.set i (r.amps.get 0 i + amps) }
    if amps ≤ lim ∨ !s.running t then s
    else if s.fld (TN_FRAME_CFG_OP_NOW t) < 4 then (if (s.run t).lower then s else s.callLower t)
    else
      let held := (64 * (amps - lim) + amps - 1) / amps * 25 / 4
      ((s.setFld (BT_TH_ILIM_GATING i) 1).bump (BT_TH_STAT_GATED_CYCLES i) held).holdIsland i held
  | none => s

end Sys2Proof.Machine
end

