-- ==== Sys2Proof/Machine/Events.lean ====
section
/-!
DEFINITION. Events (21, R49 to R52): sampling at the module slot tick, precedence, actions, halts, records, interrupts and
alerts.
-/
namespace Sys2Proof.Machine

open Sys2Proof

/-! ### Precedence (R49) -/

def Ev.cls (e : Ev) : Nat := e.code / 4096 % 8
/-- Class, island, source, code, as one number. -/
def Ev.rank (e : Ev) : Nat := ((e.cls * 32 + e.isl) * 65536 + e.src) * 65536 + e.code
def putEv (e : Ev) : List Ev → List Ev
  | [] => [e]
  | x :: r => if e.rank < x.rank then e :: x :: r else x :: putEv e r
def sortEv (l : List Ev) : List Ev := l.foldl (fun a e => putEv e a) []

def Ev.hostChannel (e : Ev) : Bool := (e.code == 0x3007 || e.code == 0x700E) && e.isl == 16
/-- DMA channel key of an event of a channel. -/
def Ev.channel (e : Ev) : Nat := if e.isl = 16 then 512 + e.src % 4096 else e.isl * 32 + e.src % 4096

/-! ### Halts (R539) -/

/-- The halt an event applies: its kind, whether it reaches every running tenancy. -/
def State.evHalt (s : State) (e : Ev) : Option (Nat × Bool) :=
  match e.code with
  | 0x0003 => some (hkBoundary, true)
  | 0x0004 => if 4 < e.detail then some (hkBoundary, true) else none
  | 0x0005 => if s.fld LH_PWR_STAT_STATE = 4 ∧ s.keepers.length ≤ 1 then some (hkBoundary, true) else none
  | 0x0006 => some (hkBoundary, true)
  | 0x1001 => some (hkBoundary, false)
  | 0x1002 => some (hkTick, false)
  | 0x2001 => some (hkBoundary, false)
  | 0x2002 => some (hkBoundary, false)
  | 0x2003 => some (hkBoundary, false)
  | 0x2005 => some (hkClean, true)
  | 0x3001 => some (hkBoundary, false)
  | 0x3002 => some (hkBoundary, false)
  | 0x3003 => some (hkTick, false)
  | 0x3004 => some (hkBoundary, false)
  | 0x3005 => some (hkBoundary, false)
  | 0x3007 => if e.isl = 16 then none else some (hkBoundary, false)
  | 0x3008 => some (hkBoundary, false)
  | 0x4001 => some (hkBoundary, false)
  | 0x4002 => some (hkBoundary, false)
  | 0x4003 => some (hkBoundary, false)
  | 0x4004 => some (hkBoundary, false)
  | 0x4016 => some (hkBoundary, false)
  | 0x5002 => some (hkTick, false)
  | 0x5007 => some (hkBoundary, false)
  | _ => none

/-- The tenancy of an event's island. -/
def State.evTen (s : State) (e : Ev) : Option Nat := if e.isl < 16 then s.tenOf e.isl else none

/-- Tenancies an event acts on beyond its island's (R542): those it names, all running ones, a link's owner. -/
def State.evOthers (s : State) (e : Ev) : List Nat :=
  let all := match s.evHalt e with | some (_, true) => s.runningTens | _ => []
  let own := if e.isl = 16 ∧ e.src / 4096 = 3 ∧ s.fld (LK_STAT_OWNED (e.src % 4096)) = 1 then [s.fld (LK_STAT_TENANCY (e.src % 4096))] else []
  ((e.tens ++ all ++ own).filter (fun t => some t != s.evTen e)).eraseDups

/-- Tenancies an event's halt reaches. EV_PLAN_INFEASIBLE halts those that use the port. -/
def State.evHalted (s : State) (e : Ev) : List Nat :=
  if e.code = 0x4004 then e.tens
  else ((match s.evTen e with | some t => [t] | none => []) ++ s.evOthers e)

/-! ### Actions in the sampling tick -/

/-- An island is powered down after an orderly stop (R479). -/
def State.powerDownIsland (s : State) (i : Nat) : State :=
  if s.fldBit LH_RESET_STAT_DOWN i then s else (s.islandDown i).setRejoin i { since := s.now, thermal := true }

/-- What an event does at its sampling, beside halts. -/
def State.evAct (s : State) (e : Ev) : State :=
  let out (s : State) : State := s.setAvail e.isl false
  match e.code with
  | 0x1001 =>
    let s := out s
    match s.tenOf e.isl with
    | some t =>
      if s.running t then s.setRun t { s.run t with down := (s.run t).down ||| 2 ^ e.isl } else { s with downNext := s.downNext ||| 2 ^ e.isl }
    | none => { s with downNext := s.downNext ||| 2 ^ e.isl }
  | 0x1002 => out s
  | 0x2001 => out s
  | 0x2002 => out s
  | 0x2003 => s.fence e.isl (e.detail % 16)
  | 0x4010 => if s.lkState (e.src % 4096) = lsUp then s else s.setLinkUp (e.src % 4096) false
  | 0x4011 => if s.lkState (e.src % 4096) = lsUp then s else s.setLinkUp (e.src % 4096) false
  | _ => s

/-! ### Records (R541 to R547) -/

def Ev.record (e : Ev) (ten tick step : Nat) (super : Bool) : Rec4 :=
  { w0 := BitVec.ofNat 64 (e.code + e.cls * 2 ^ 16 + (if super then 2 ^ 19 else 0) + e.count % 256 * 2 ^ 24 + ten * 2 ^ 32 + e.isl * 2 ^ 40 + e.src * 2 ^ 48),
    w1 := BitVec.ofNat 64 (tick % 2 ^ 48), w2 := BitVec.ofNat 64 step, w3 := BitVec.ofNat 64 e.detail }

/-- The management alert of a record (R547): SMBus at once, a VDM message; In-Band Interrupts are raised at the tick's end. -/
def State.evAlert (s : State) (e : Ev) (r : Rec4) : State :=
  if !s.fldBit LH_EVLOG_CFG_ALERT e.cls then s
  else
    let s := { s with alertN := true }
    if s.fld LH_EVLOG_CFG_VDM_EN = 1 then s.emit (.vdm (s.fld LH_EVLOG_CFG_VDM_EID) r) else s

/-- A record goes to the module ring, with vector 1 of the ports that ask for it (R542, R546). -/
def State.logModule (s : State) (e : Ev) (super : Bool) : State :=
  let h := s.fld LH_EVLOG_HEAD
  let r := e.record 0xFF (s.fld LH_SLOT_COUNT_COUNT) 0 super
  let s := { s with modRing := s.modRing.set (h % 4096) r }
  let s := if 4096 ≤ h then s.bump LH_EVLOG_OVERWRITTEN 1 else s
  let s := (s.setFld LH_EVLOG_HEAD (h + 1)).evAlert e r
  (List.range 4).foldl (fun s p => if s.fldBit (HP_EV_CFG_IRQ p) e.cls then s.msix p 1 else s) s

/-- A record goes to tenancy ring t, with vector 33 + 2t of its port. -/
def State.logTenancy (s : State) (t : Nat) (e : Ev) (super : Bool) : State :=
  let h := s.fld (TN_EVLOG_HEAD t)
  let r := e.record t (s.fld LH_SLOT_COUNT_COUNT) (s.fld (TN_STEP_STEP t)) super
  let s := { s with tnRings := s.tnRings.set (t * 1024 + h % 1024) r }
  let s := if 1024 ≤ h then s.bump (TN_EVLOG_OVERWRITTEN t) 1 else s
  let s := (s.setFld (TN_EVLOG_HEAD t) (h + 1)).evAlert e r
  if s.fldBit (TN_EV_CFG_IRQ t) e.cls then s.msix (s.fld (TN_STATE_PORT t)) (33 + 2 * t) else s

/-- The rings of an event (R542): whether the module ring, which tenancy rings. -/
def State.evRings (s : State) (e : Ev) : Bool × List Nat :=
  if e.hostChannel then
    let t := s.chTen e.channel
    if s.fld (TN_STATE_STATE t) = tnFree then (true, []) else (false, [t])
  else
    match s.evTen e with
    | some t => (false, t :: s.evOthers e)
    | none => (true, s.evOthers e)

/-- A class 7 occurrence whose source wrote a record of the code fewer than 2,048 ticks ago (R544). -/
def State.withheld (s : State) (e : Ev) : Bool :=
  e.cls == 7 && e.code != 0x700E && s.evLast.any (fun l => l.1 == e.code && l.2.1 == e.isl && l.2.2.1 == e.src && decide (s.now < l.2.2.2 + 2048))

/-- The vector of a channel's halt or SIGNAL EVENT (R434). -/
def State.channelVector (s : State) (e : Ev) : State :=
  let port := if e.isl = 16 then e.src % 4096 / 8 else match s.tenOf e.isl with | some t => s.fld (TN_STATE_PORT t) | none => 0
  if e.code = 0x700E then
    let v := e.detail % 2048
    if 64 ≤ v then s.msix port v else if e.isl = 16 then s.msix port (8 + e.src % 8) else s
  else if e.code = 0x3007 ∧ e.isl = 16 then s.msix port (8 + e.src % 8)
  else s

/-- A repair overtaken by the fence of its island, or a lane repair by the withdrawal of its port, sampled before it (R51, R492). -/
def State.repairLost (s : State) (e : Ev) : Bool :=
  let p := e.src % 4096
  let lane := e.code == 0x4006 || e.code == 0x4008
  ((lane || e.code == 0x400A || e.code == 0x400C || e.code == 0x7006) && s.fldBit LH_FENCE_FENCED e.isl) ||
  (lane && e.src == srcIx 6 p && (s.fld (BT_ST_PORT_WITHDRAWN e.isl p) == 1 || s.repairs.any (fun r => r.kind == .withdraw p e.isl)))

/-- One event is acted on and logged (R49 to R52). -/
def State.takeEv (s : State) (e : Ev) : State :=
  let halted := (s.evHalted e).filter s.running
  let kind := (s.evHalt e).map (·.1)
  let lost := s.repairLost e
  let super (t : Nat) : Bool := lost || match kind with | some k => halted.contains t && s.overtaken t k | none => false
  let rings := s.evRings e
  -- the actions
  let s1 := s.evAct e
  let s1 := match kind with
    | some k => halted.foldl (fun (z : State) t => if s.overtaken t k then z else z.pendHalt t k e.code) s1
    | none => s1
  -- the records
  let s1 :=
    if s.withheld e then
      let s1 := if rings.1 then s1.bump LH_EVLOG_RATE_LIMITED 1 else s1
      rings.2.foldl (fun (z : State) t => z.bump (TN_EVLOG_RATE_LIMITED t) 1) s1
    else
      let s1 := if rings.1 then s1.logModule e (lost || (!halted.isEmpty && halted.all super)) else s1
      let s1 := rings.2.foldl (fun (z : State) t => z.logTenancy t e (super t)) s1
      if e.cls = 7 then
        { s1 with evLast := s1.evLast.filter (fun (l : Nat × Nat × Nat × Nat) => !(l.1 == e.code && l.2.1 == e.isl && l.2.2.1 == e.src)) ++ [(e.code, e.isl, e.src, s1.now)] }
      else s1
  let s1 := s1.channelVector e
  if e.code = 0x700E then s1.dmaSignalled e.channel else s1

/-- The In-Band Interrupt of a tick's records (R547): the lowest class logged whose bit asks for an alert. -/
def State.ibiTick (s : State) (l : List Ev) : State :=
  let cs := (l.map (·.cls)).filter (fun c => s.fldBit LH_EVLOG_CFG_ALERT c)
  match s.ibiPending, cs with
  | none, c :: r =>
    let m := r.foldl min c
    { s with ibiPending := some m }.emit (.ibi m)
  | _, _ => s

/-- The sampling of a module slot tick (R49). -/
def State.sample (s : State) : State :=
  let l := sortEv s.arisen
  let logged := l.filter (fun e => !s.withheld e)
  (l.foldl State.takeEv { s with arisen := [] }).ibiTick logged

/-- EVLOG_ALERT_CLEAR (R547): the management path reads LH_EVLOG. -/
def execEvlogAlertClear (s : State) : Out := .next { s with alertN := false }

/-- I3C_IBI_ACCEPT (R547). -/
def execI3cIbiAccept (s : State) : Out := .next { s with ibiPending := none }

/-- STALL_LONG (R540): an issuer has stalled longer than a frame on a resource. -/
def execStallLong (isl : Fin 17) (src : BitVec 16) (resource : Fin 9) (s : State) : Out :=
  if resource = 0 then .next s else .next (s.raise 0x7016 isl src.toNat resource)

/-! ### The module slot tick (R26) -/

/-- A host channel takes up the CTL bits written since the last tick (R305, R325): several bits act as ABORT alone. -/
def State.ctlTick (s : State) (n : Nat) : State :=
  let c := s.ch (512 + n)
  let s1 := s.setCh (512 + n) { c with ctl := 0 }
  let after (o : Out) : State := match o with | .next z => z | _ => s1
  if c.ctl = 0 then s
  else if bitOf c.ctl 2 then after (execDmaCtlAbort (Fin.ofNat 4 (n / 8)) (Fin.ofNat 8 n) s1)
  else if c.ctl = 1 then after (execDmaCtlStart (Fin.ofNat 4 (n / 8)) (Fin.ofNat 8 n) s1)
  else if c.ctl = 2 then after (execDmaCtlResume (Fin.ofNat 4 (n / 8)) (Fin.ofNat 8 n) s1)
  else s1

/-- Islands on which no tenancy runs: their repairs take force at the tick, but not during a switch (R491, R531). -/
def State.idleIslands (s : State) : Nat :=
  if s.fld SEC_STAT_ACTIVITY = 3 then 0
  else ofBitList ((List.range 16).filter (fun i => match s.tenOf i with | some t => !s.running t | none => true))

end Sys2Proof.Machine
end

