-- ==== Sys2Proof/Machine/Heat.lean ====
section
/-!
DEFINITION. Ring heaters and trims (R457, R460, R486, R507, R508): the drives of a heater neighbourhood, clamping, the feed-forward of the CORE
current, and the trims made in service.
-/
namespace Sys2Proof.Machine

open Sys2Proof

/-! ### Heater drives (R457, R507) -/

/-- Rings of a base tile, of a plane port and of a neighbourhood. -/
def tileRings : Nat := 2592
def portRings : Nat := 36
def neighbours : Nat := 8

/-- The determinant of the first `n` rows, by their first entries. -/
def det : Nat → List (List Int) → Int
  | 0, _ => 1
  | n + 1, rows =>
    ((List.range (n + 1)).map (fun i => (if i % 2 = 0 then 1 else -1) * (rows.getD i []).headD 0 * det n ((rows.eraseIdx i).map List.tail))).foldl (· + ·) 0

/-- A neighbourhood of 8 rings: coefficient of row and column in Q1.15, the desired phase powers, the tops of the heaters' ranges. -/
structure Heaters where
  c : Nat → Nat → Int
  p : Nat → Int
  top : Nat → Int

def Heaters.sum (f : Nat → Int) (l : List Nat) : Int := (l.map f).foldl (· + ·) 0

/-- The drives while the heaters of `ks` are held at the drives beside them (R507): each held heater's phase power is what its drive gives. A common
factor, and 2^15 times it times each drive, so that no division is made. -/
def Heaters.drives (h : Heaters) (ks : List (Nat × Int)) : Int × List Int :=
  let held := ks.map (·.1)
  let free := (List.range neighbours).filter (fun j => !held.contains j)
  let rows := ks.map (fun k => held.map (fun j => 2 * h.c k.1 j))
  let rhs := ks.map (fun k => k.2 * 2 ^ 15 - 2 * Heaters.sum (fun j => h.c k.1 j * h.p j) free)
  let d := det ks.length rows
  let q (j : Nat) : Int :=
    match (List.range ks.length).find? (fun m => held.getD m neighbours == j) with
    | some m => det ks.length ((List.range ks.length).map (fun r => (rows.getD r []).set m (rhs.getD r 0)))
    | none => h.p j * d
  (d, (List.range neighbours).map (fun i => 2 * Heaters.sum (fun j => h.c i j * q j) (List.range neighbours)))

/-- A drive outside its heater's range: the end of the range that it passes. -/
def Heaters.past (h : Heaters) (x : Int × List Int) (k : Nat) : Option Int :=
  let v := x.2.getD k 0 * (if x.1 < 0 then -1 else 1)
  if v < 0 then some 0 else if h.top k * 2 ^ 15 * x.1.natAbs < v then some (h.top k) else none

/-- Heaters that end clamped, in ascending order: each that exceeds its range is held, and the others are computed again (R507). -/
def Heaters.clamp (h : Heaters) : Nat → List (Nat × Int) → List (Nat × Int)
  | 0, ks => ks
  | n + 1, ks =>
    let x := h.drives ks
    match (List.range neighbours).findSome? (fun k => if ks.any (fun e => e.1 == k) then none else (h.past x k).map (fun v => (k, v))) with
    | some e => if x.1 = 0 then ks else h.clamp n (ks ++ [e])
    | none => ks

/-- Neighbourhood n of base tile i: a ring's phase power is that of its code as trimmed, moved by −g times the change of the island's CORE
current (R486). -/
def State.heaters (s : State) (i n : Nat) : Heaters :=
  { c := fun a b => (Config.crosstalk i n (neighbours * a + b)).toInt,
    p := fun j => Config.ringPower i (neighbours * n + j) (s.ringTrim.get 0 (i * tileRings + neighbours * n + j)) -
      Config.ringCoeff i (neighbours * n + j) * s.coreMoved.get 0 i,
    top := fun j => Config.heaterTop i (neighbours * n + j) }

/-- Rings of base tile i whose heaters are clamped. -/
def State.clampedRings (s : State) (i : Nat) : List Nat :=
  (List.range (tileRings / neighbours)).flatMap (fun n => ((s.heaters i n).clamp neighbours []).map (fun e => i * tileRings + neighbours * n + e.1))

/-! ### The ring of a lane (R208, R210) -/

/-- The lane of a port that ring r serves: its wavelength is the ring's. -/
def State.ringLane (s : State) (i plane r : Nat) : Option Nat :=
  (List.range 16).find? (fun j => (if plane < 64 then s.laneLambda i plane j else s.lambdaOf plane j) == r % 18)

/-- A clamped ring's lane fails (R500, R507). -/
def State.ringFail (s : State) (key : Nat) : State :=
  let i := key / tileRings
  let phys := key % tileRings / portRings
  let plane := if 64 ≤ phys ∧ phys < 68 then some phys else s.logPlane i phys
  match plane with
  | some p =>
    match s.ringLane i p (key % portRings) with
    | some j => s.addCause (.lane i i p j)
    | none => s
  | none => s

/-- The feed-forward of R486 at a module slot tick, `amps` the island's mean CORE current over the tick: phase powers move with its change, and
the lanes of newly clamped rings fail. -/
def State.heatTick (s : State) (i amps : Nat) : State :=
  let was := s.fld (BT_TH_ILIM_CURRENT i)
  if amps = was ∨ s.fld LH_START_PHASE < 6 then s
  else
    let s := { s with coreMoved := s.coreMoved.set i (s.coreMoved.get 0 i + ((amps : Int) - (was : Int))) }
    let now := s.clampedRings i
    let news := now.filter (fun k => !s.clamped.contains k)
    news.foldl State.ringFail { s with clamped := s.clamped.filter (fun k => k / tileRings != i) ++ now }

/-! ### Trims (R460, R508) -/

/-- The ring carried no payload in tenancy t's slot that ends: an IDLE segment, no segment, or a stall slot in which it carried none. -/
def State.ringIdle (s : State) (t i plane r : Nat) : Bool :=
  let p := s.plan t
  let n := s.fld (TN_SLOT_PLAN_SLOT t)
  (s.run t).await || (s.ringLane i plane r).isNone ||
  (if s.stallNow.get false t then !s.extNow.get false t
   else !(List.range p.legs.length).any (fun l =>
     let e := p.leg l
     decide (e.plane0 ≤ plane) && decide (plane < e.plane0 + e.planes) && decide (e.slot0 ≤ n) && decide (n < e.slot0 + e.slots) &&
       s.physOf t (if r < 18 then e.snd else e.rcv) == i))

/-- The slot that ends began with a guard of the port (R207). -/
def State.portGuarded (s : State) (t i plane : Nat) : Bool :=
  !(s.run t).await && !s.stallNow.get false t && (s.plan t).guarded plane (s.fld (TN_SLOT_PLAN_SLOT t)) (s.logicalOf t i)

def stepOf (up : Bool) : Int := if up then 1 else -1

/-- One trim in tenancy t's slot that ends: a ring's takes force in that slot, which carried nothing on it; an element's waits for the frame tick. One
that the rules do not allow is not made. -/
def State.trim (s : State) (t : Nat) (x : Trim) : State :=
  match x with
  | .ring i plane r up =>
    let key := i * tileRings + s.fld (BT_ST_PORT_PHYS i plane) * portRings + r
    if s.fldBit (TN_ISLANDS_ISLANDS t) i ∧ s.ringIdle t i plane r then { s with ringTrim := s.ringTrim.set key (s.ringTrim.get 0 key + stepOf up) } else s
  | .bias i plane e up =>
    if s.fldBit (TN_ISLANDS_ISLANDS t) i ∧ s.portGuarded t i plane then { s with mzPend := s.mzPend ++ [(t, s.fld (BT_ST_PORT_PHYS i plane) * 56 + e, up)] } else s

def State.trims (s : State) (t : Nat) (l : List Trim) : State := if s.running t then l.foldl (fun s x => s.trim t x) s else s

/-- The bias trims of a tenancy's slots take force at its frame tick (R460). -/
def State.forceTrims (s : State) (t : Nat) : State :=
  s.mzPend.foldl (fun (s : State) x =>
    if x.1 = t then { s with mzTrim := s.mzTrim.set x.2.1 (s.mzTrim.get 0 x.2.1 + stepOf x.2.2) } else { s with mzPend := s.mzPend ++ [x] })
    { s with mzPend := [] }

end Sys2Proof.Machine
end

