-- ==== Sys2Proof/Machine/Image.lean ====
section
/-!
DEFINITION. The frame image: the checks of LOAD_IMAGE (R53 to R57, R197, R198, R219, R234, R238, R347, R395, R396) and
its loading (R93, R109 to R113, R303, R380).
-/
namespace Sys2Proof.Machine

open Sys2Proof

/-! ### The container (R53 to R56) -/

/-- A section table entry. -/
structure Sect where
  typ : Nat
  isl : Nat
  unit : Nat
  sflags : Nat
  off : Nat
  size : Nat
  load : Nat
  digest : Nat

def imgN (b : List Byte) : Nat := fieldAt b 0x18 1
def imgAllow (b : List Byte) : Nat := fieldAt b 0x19 1
def imgSlots (b : List Byte) : Nat := fieldAt b 0x1A 2
def imgModes (b : List Byte) : Nat := fieldAt b 0x1C 4
def imgLinks (b : List Byte) : Nat := fieldAt b 0x20 1
def imgSectOff (b : List Byte) : Nat := fieldAt b 0x10 4
def imgSectCount (b : List Byte) : Nat := fieldAt b 0x14 2
def imgDigest (b : List Byte) : Nat := fieldAt b 0x30 48

def sectAt (b : List Byte) (k : Nat) : Sect :=
  let e := (b.drop (imgSectOff b + 80 * k)).take 80
  ⟨fieldAt e 0 2, fieldAt e 2 1, fieldAt e 3 1, fieldAt e 6 2, fieldAt e 8 8, fieldAt e 0x10 8, fieldAt e 0x18 8, fieldAt e 0x20 48⟩
def sects (b : List Byte) : List Sect := (List.range (imgSectCount b)).map (sectAt b)
def Sect.body (e : Sect) (b : List Byte) : List Byte := (b.drop e.off).take e.size

def tyProgram : Nat := 0x10
def tyMesh : Nat := 0x20
def tyPlan : Nat := 0x30
def tySum : Nat := 0x40
def tyDma : Nat := 0x50
def tyShoal : Nat := 0x60
def tyRegion : Nat := 0x70
def tyLink : Nat := 0x80

/-- Sections of a type, of one island where the type names one. -/
def ofType (b : List Byte) (ty : Nat) : List Sect := (sects b).filter (fun e => e.typ == ty)
def bodyOf (b : List Byte) (ty isl : Nat) : Option (List Byte) :=
  ((ofType b ty).find? (fun e => e.isl == isl)).map (fun e => e.body b)

def allZero (b : List Byte) (o n : Nat) : Bool := fieldAt b o n == 0
def noRepeats (l : List Nat) : Bool := l.eraseDups.length == l.length

/-- Checks 1 and 4 of R57. -/
def formatOk (b : List Byte) : Bool :=
  decide (128 ≤ b.length) && fieldAt b 0 4 == 0x4946514C && fieldAt b 6 2 == 128 && fieldAt b 0x16 2 == 80 &&
  decide (1 ≤ imgSectCount b) && decide (imgSectCount b ≤ 1024) && decide (fieldAt b 5 1 < 4) && allZero b 0x21 3 && allZero b 0x60 32

def layoutOk (b : List Byte) : Bool :=
  let t := 80 * imgSectCount b
  imgSectOff b % 16 == 0 && decide (128 ≤ imgSectOff b) && decide (imgSectOff b + t ≤ b.length) &&
  (sects b).all (fun e => e.off % 64 == 0 && decide (e.off + e.size ≤ b.length) &&
    (e.typ != tyProgram || e.size % 8 == 0) && (e.typ != tyDma || e.size % 16 == 0) && (digestBv (e.body b)).toNat == e.digest) &&
  disjoint ((0, 128) :: (imgSectOff b, t) :: (sects b).map (fun e => (e.off, e.size)))

/-! ### Regions and link map (R347, R395, R396) -/

def regionAt (b : List Byte) (k : Nat) : Region :=
  let e := (b.drop (32 + 32 * k)).take 32
  ⟨fieldAt e 0 1, fieldAt e 1 1, fieldAt e 2 1, fieldAt e 8 8, fieldAt e 0x10 8, fieldAt e 0x18 8⟩
def regionsOf (b : List Byte) : List Region := (List.range (fieldAt b 0 4)).map (regionAt b)

def rgWeight : Nat := 1
def rgInput : Nat := 2
def rgShoal : Nat := 3
def rgCheckpoint : Nat := 4
def rgRunrec : Nat := 5

/-- The stretches of a region: one, or one for each buffer. -/
def Region.spans (r : Region) : List (Nat × Nat) :=
  if r.kind = rgInput then (List.range r.buffers).map (fun k => (r.addr + k * r.stride, r.size)) else [(r.addr, r.size)]

def pad4k (n : Nat) : Nat := (n + 4095) / 4096 * 4096
/-- Bytes of the checkpoint of logical island j (R400). -/
def checkpointSize (rs : List Region) (j : Nat) : Nat :=
  72105984 + ((rs.filter (fun r => r.kind == rgShoal && r.isl == j)).map (fun r => pad4k r.size)).foldl (· + ·) 0

/-- R395 and R396. `ext`: mapped HBM extent of a logical island. -/
def regionsOk (b : List Byte) (n : Nat) (ext : Nat → Nat) : Bool :=
  let rs := regionsOf b
  let of (k : Nat) : List Region := rs.filter (fun r => r.kind == k)
  decide (fieldAt b 0 4 ≤ 256) && allZero b 4 28 && b.length == 32 + 32 * fieldAt b 0 4 &&
  (List.range (fieldAt b 0 4)).all (fun k => allZero b (32 + 32 * k + 3) 5) &&
  rs.all (fun r =>
    decide (1 ≤ r.kind) && decide (r.kind ≤ 5) && decide (r.isl < n) && decide (0 < r.size) && r.size % 128 == 0 &&
    (if r.kind = rgInput then decide (1 ≤ r.buffers) && decide (r.buffers ≤ 16) && r.stride % 128 == 0 && decide (r.size ≤ r.stride)
     else r.buffers == 0 && r.stride == 0) &&
    r.spans.all (fun x =>
      if r.kind = rgShoal then decide (x.1 + x.2 ≤ shoalSize)
      else decide (0x10000000000 ≤ x.1) && decide (x.1 + x.2 ≤ 0x10000000000 + ext r.isl))) &&
  decide ((of rgShoal).length ≤ 64) &&
  (List.range n).all (fun j => disjoint (((of rgShoal).filter (fun r => r.isl == j)).flatMap Region.spans)) &&
  decide ((of rgWeight).length ≤ 64) && decide ((of rgInput).length ≤ 64) &&
  ((of rgCheckpoint).isEmpty || ((of rgCheckpoint).length == n && noRepeats ((of rgCheckpoint).map (·.isl)))) &&
  (of rgCheckpoint).all (fun r => r.addr % 4096 == 0 && decide (checkpointSize rs r.isl ≤ r.size)) &&
  decide ((of rgRunrec).length ≤ 1) && (of rgRunrec).all (fun r => r.addr % 2048 == 0 && r.size % 2048 == 0) &&
  (List.range rs.length).all (fun k =>
    let r := rs.getD k ⟨0, 0, 0, 0, 0, 0⟩
    if r.kind = rgCheckpoint ∨ r.kind = rgRunrec then
      (List.range rs.length).all (fun m =>
        let q := rs.getD m ⟨0, 0, 0, 0, 0, 0⟩
        m == k || q.isl != r.isl || r.spans.all (fun x => q.spans.all (fun y => disjoint [x, y])))
    else true)

def linkEnts (b : List Byte) (links : Nat) : List LinkEnt :=
  (List.range links).map (fun k => ⟨fieldAt b (16 + 16 * k + 1) 1, fieldAt b (16 + 16 * k + 2) 2, fieldAt b (16 + 16 * k + 4) 1, 0⟩)
def linkMapOk (b : List Byte) (links : Nat) : Bool :=
  b.length == 16 + 16 * links && fieldAt b 0 2 == links && allZero b 2 14 &&
  (List.range links).all (fun k =>
    let p := fieldAt b (16 + 16 * k + 1) 1
    let q := fieldAt b (16 + 16 * k + 4) 1
    fieldAt b (16 + 16 * k) 1 == k && (p == 0xFF || decide (p < 32)) && (q == 0xFF || decide (q < 32)) && allZero b (16 + 16 * k + 5) 11)

/-- Binds logical links: those without PHYS take the remaining links in ascending order (R347). -/
def bindLinks (ents : List LinkEnt) (owned : List Nat) : List LinkEnt :=
  let free := owned.filter (fun k => !ents.any (fun e => e.phys == k))
  (ents.foldl (fun (r : List LinkEnt × List Nat) e =>
    if e.phys < 32 then (r.1 ++ [{ e with bound := e.phys }], r.2)
    else (r.1 ++ [{ e with bound := r.2.headD 0 }], r.2.tail)) ([], free)).1

/-! ### Check 5: the section table (R55, R56) -/

def sectionsOk (b : List Byte) (ext : Nat → Nat) : Bool :=
  let n := imgN b
  let known := (sects b).filter (fun e => decide (e.typ < 0x8000))
  let wide (ty : Nat) : Bool := ty == tyPlan || ty == tyRegion || ty == tyLink
  known.all (fun e =>
    [tyProgram, tyMesh, tyPlan, tySum, tyDma, tyShoal, tyRegion, tyLink].contains e.typ && e.sflags == 0 &&
    (if wide e.typ then e.isl == 0xFF else decide (e.isl < n)) &&
    decide (e.unit < (if e.typ = tyProgram then 8 else if e.typ = tyDma then 32 else 1)) &&
    (if e.typ = tyShoal then decide (e.load + e.size ≤ shoalSize) else e.load == 0) &&
    (e.typ != tyDma || decide (e.size ≤ 0x100000))) &&
  noRepeats ((known.filter (fun e => e.typ != tyShoal)).map (fun e => (e.typ * 256 + e.isl) * 256 + e.unit)) &&
  (List.range n).all (fun j =>
    (ofType b tyProgram).any (fun e => e.isl == j) && (ofType b tyMesh).any (fun e => e.isl == j) &&
    disjoint (((ofType b tyShoal).filter (fun e => e.isl == j)).map (fun e => (e.load, e.size)))) &&
  (match bodyOf b tyRegion 0xFF with | some r => regionsOk r n ext | none => false) && (bodyOf b tyPlan 0xFF).isSome &&
  (match bodyOf b tyLink 0xFF with | some l => decide (0 < imgLinks b) && linkMapOk l (imgLinks b) | none => imgLinks b == 0)

/-! ### Mesh schedules (R192, R197, R198) -/

/-- Nodes a flit crosses from region a to region b: along the row, then along the column (R192); links as from × 16 + to. -/
def meshPath (a b : Nat) : List Nat :=
  let lk (x y : Nat) : Nat := x * 16 + y
  let r := a / 4 * 4
  let (c, d) := (a % 4, b % 4)
  let hs := if c ≤ d then (List.range (d - c)).map (fun k => lk (r + c + k) (r + c + k + 1))
    else (List.range (c - d)).map (fun k => lk (r + c - k) (r + c - k - 1))
  let (u, v) := (a / 4, b / 4)
  let vs := if u ≤ v then (List.range (v - u)).map (fun k => lk ((u + k) * 4 + d) ((u + k + 1) * 4 + d))
    else (List.range (u - v)).map (fun k => lk ((u - k) * 4 + d) ((u - k - 1) * 4 + d))
  hs ++ vs

def MeshRoute.regions (r : MeshRoute) : List Nat := ((bitList 64 r.arrays).map (· / 4) ++ (bitList 32 r.vcores).map (· / 2)).eraseDups
/-- Links of a route's trees, one entry for each sector's tree that uses the link. -/
def MeshRoute.links (r : MeshRoute) : List Nat :=
  (bitList 16 r.sectors).flatMap (fun σ =>
    (r.regions.flatMap (fun g => if r.write then meshPath g σ else meshPath σ g)).eraseDups)

def parseMesh (b : List Byte) : Mesh :=
  { routes := (List.range (fieldAt b 4 2)).map (fun k =>
      let e := (b.drop (fieldAt b 8 4 + 16 * k)).take 16
      ⟨fieldAt e 0 8, fieldAt e 8 4, fieldAt e 0xC 2, fieldAt e 0xE 1, fieldAt e 0xF 1 == 1⟩),
    wins := (List.range (fieldAt b 0 4)).map (fun k =>
      let e := (b.drop (fieldAt b 0xC 4 + 16 * k)).take 16
      ⟨fieldAt e 0 4, fieldAt e 4 2, fieldAt e 6 2, fieldAt e 8 1⟩) }

def MeshWin.at (w : MeshWin) (t : Nat) : Bool := decide (w.start ≤ t) && decide (t < w.start + w.len)

/-- R198. -/
def meshOk (b : List Byte) (slots : Nat) : Bool :=
  let m := parseMesh b
  let nw := fieldAt b 0 4
  let nr := fieldAt b 4 2
  let rt (w : MeshWin) : MeshRoute := meshRoute m w
  let sum (l : List MeshWin) : Nat := (l.map (fun w => (rt w).groups)).foldl (· + ·) 0
  decide (32 ≤ b.length) && decide (1 ≤ nw) && decide (nw ≤ 262144) && decide (1 ≤ nr) && decide (nr ≤ 4096) && allZero b 6 2 && allZero b 0x10 16 &&
  fieldAt b 8 4 % 16 == 0 && fieldAt b 0xC 4 % 16 == 0 && decide (fieldAt b 8 4 + 16 * nr ≤ b.length) && decide (fieldAt b 0xC 4 + 16 * nw ≤ b.length) &&
  disjoint [(0, 32), (fieldAt b 8 4, 16 * nr), (fieldAt b 0xC 4, 16 * nw)] &&
  (List.range nr).all (fun k => decide (fieldAt b (fieldAt b 8 4 + 16 * k + 0xF) 1 ≤ 1)) &&
  m.routes.all (fun r => decide (1 ≤ r.groups) && decide (r.groups ≤ if r.write then 38 else 77) && r.sectors != 0 && (r.arrays != 0 || r.vcores != 0) &&
    (!r.write || popc 64 r.arrays + popc 32 r.vcores == 1)) &&
  (List.range nw).all (fun k => allZero b (fieldAt b 0xC 4 + 16 * k + 9) 7) &&
  m.wins.all (fun w =>
    decide (1 ≤ w.len) && decide (w.route < nr) && decide (1 ≤ w.op) && decide (w.op ≤ 6) && decide (w.start + w.len ≤ slots * 800) &&
    (if (rt w).write then w.op == 4 || w.op == 6
     else w.op == 1 || w.op == 2 || w.op == 3 || w.op == 5) &&
    (if w.op ≤ 4 then (rt w).vcores == 0 else (rt w).arrays == 0)) &&
  (List.range (nw - 1)).all (fun k => decide ((winAt m k).start ≤ (winAt m (k + 1)).start)) &&
  (List.range nw).all (fun k => (List.range k).all (fun j =>
    let (v, w) := (winAt m j, winAt m k)
    decide (v.start + v.len ≤ w.start) || ((rt v).arrays &&& (rt w).arrays == 0 && (rt v).vcores &&& (rt w).vcores == 0))) &&
  m.wins.all (fun w =>
    let act := m.wins.filter (fun v => v.at w.start)
    (List.range 16).all (fun σ =>
      let here := act.filter (fun v => bitOf (rt v).sectors σ)
      decide (sum (here.filter (fun v => !(rt v).write)) ≤ 77) && decide (sum (here.filter (fun v => (rt v).write)) ≤ 38)) &&
    (let load (l : Nat) : Nat := (act.map (fun (v : MeshWin) => ((rt v).links.filter (fun (x : Nat) => x == l)).length * (rt v).groups)).foldl (fun (a b : Nat) => a + b) 0
     (act.flatMap (fun (v : MeshWin) => (rt v).links)).eraseDups.all (fun (l : Nat) => decide (load l ≤ 80))))

/-! ### Crossing plan and sum programs (R216, R219, R230, R233, R234, R238) -/

def parsePlan (b : List Byte) : Plan :=
  let at_ (o w k : Nat) : List Byte := (b.drop (o + w * k)).take w
  { changes := (List.range (fieldAt b 0 4)).map (fun k => let e := at_ (fieldAt b 8 4) 16 k; ⟨fieldAt e 0 2, fieldAt e 2 1, fieldAt e 8 8⟩),
    xfers := (List.range (fieldAt b 4 2)).map (fun k =>
      let e := at_ (fieldAt b 0xC 4) 32 k
      ⟨fieldAt e 0 1, fieldAt e 1 1, fieldAt e 4 4, fieldAt e 8 8, fieldAt e 0x10 2, fieldAt e 0x12 2, fieldAt e 0x14 2⟩),
    legs := (List.range (fieldAt b 6 2)).map (fun k =>
      let e := at_ (fieldAt b 0x10 4) 16 k
      ⟨fieldAt e 0 1, fieldAt e 1 1, fieldAt e 2 1, fieldAt e 3 1, fieldAt e 4 2, fieldAt e 6 2⟩) }

def parseSum (b : List Byte) : List SumEnt :=
  (List.range (fieldAt b 0 4)).map (fun k =>
    let e := (b.drop (32 + 32 * k)).take 32
    ⟨fieldAt e 0 1, fieldAt e 1 1, fieldAt e 2 1, fieldAt e 3 1, sext 12 (fieldAt e 4 2), fieldAt e 8 8⟩)

/-- A stretch of an island's local view: its shoal, or its mapped HBM (R203). -/
def inView (ext a n : Nat) : Bool := decide (a + n ≤ shoalSize) || (decide (0x10000000000 ≤ a) && decide (a + n ≤ 0x10000000000 + ext))

/-- The fields of a sum program (R233, R234). -/
def sumOk (b : List Byte) (ext : Nat) : Bool :=
  let n := fieldAt b 0 4
  decide (n ≤ 4096) && b.length == 32 + 32 * n && allZero b 4 28 &&
  (List.range n).all (fun k =>
    let e := (b.drop (32 + 32 * k)).take 32
    let f (x : Nat) : Bool := x == 8 || x == 6
    (fieldAt e 0 1 == 1 || fieldAt e 0 1 == 2) && f (fieldAt e 1 1) && f (fieldAt e 2 1) && decide (fieldAt e 3 1 ≤ 1) &&
    (if fieldAt e 0 1 = 1 then allZero e 4 2 else decide (fieldAt e 4 2 < 4096) && fieldAt e 4 2 != 2048) && allZero e 6 2 && allZero e 0x10 16 &&
    (if fieldAt e 3 1 = 0 then allZero e 8 8 else fieldAt e 8 8 % 128 == 0 && inView ext (fieldAt e 8 8) 0))

/-- The zero fields, ranges and tables of a crossing plan (R216, items 1 and 2 of R219). -/
def planFields (b : List Byte) (slots : Nat) : Bool :=
  let p := parsePlan b
  let (nc, nx, nl) := (fieldAt b 0 4, fieldAt b 4 2, fieldAt b 6 2)
  let (co, xo, lo) := (fieldAt b 8 4, fieldAt b 0xC 4, fieldAt b 0x10 4)
  decide (32 ≤ b.length) && decide (nc ≤ 4096) && decide (nx ≤ 4096) && decide (nl ≤ 16384) && allZero b 0x14 12 &&
  [(co, 16 * nc), (xo, 32 * nx), (lo, 16 * nl)].all (fun t => t.1 % 16 == 0 && decide (t.1 + t.2 ≤ b.length)) &&
  disjoint [(0, 32), (co, 16 * nc), (xo, 32 * nx), (lo, 16 * nl)] &&
  (List.range nc).all (fun k => allZero b (co + 16 * k + 3) 5) && (List.range nl).all (fun k => allZero b (lo + 16 * k + 8) 8) &&
  (List.range nx).all (fun k => allZero b (xo + 32 * k + 2) 2 && allZero b (xo + 32 * k + 0x16) 10) &&
  p.changes.all (fun c => decide (c.slot < slots) && decide (c.plane ≤ 63)) &&
  (List.range (nc - 1)).all (fun k =>
    let c := p.changes.getD k ⟨0, 0, 0⟩
    let d := p.changes.getD (k + 1) ⟨0, 0, 0⟩
    decide (c.slot * 64 + c.plane < d.slot * 64 + d.plane)) &&
  p.xfers.all (fun x =>
    (x.kind == 1 || x.kind == 2) && decide (x.src ≤ 1) && x.bytes % 128 == 0 && decide (128 ≤ x.bytes) && decide (x.bytes ≤ 0x7FFFFF80) &&
    decide (1 ≤ x.legCount) && decide (x.legCount ≤ 15) && (x.src == 1 || x.srcAddr == 0) && (x.kind == 2 || x.sum == 0))

/-- Items 3 to 13 of R219, with R234. `ext`: mapped extents; `gone`: a plane port of a logical island is withdrawn. -/
def planOk (p : Plan) (n slots : Nat) (sums : Nat → List SumEnt) (ext : Nat → Nat) (gone : Nat → Nat → Bool) : Bool :=
  p.changes.all (fun c =>
    (List.range 16).all (fun j => if n ≤ j then c.perm / 16 ^ j % 16 == j else decide (c.perm / 16 ^ j % 16 < n)) &&
    noRepeats ((List.range n).map (fun j => c.perm / 16 ^ j % 16))) &&
  (List.range 64).all (fun pl =>
    let cs := p.changes.filter (fun c => c.plane == pl)
    cs.isEmpty || (cs.any (fun c => c.slot == 0) && decide (cs.length ≤ 64))) &&
  p.xfers.all (fun x => decide (x.legFirst + x.legCount ≤ p.legs.length)) &&
  (List.range p.legs.length).all (fun l =>
    ((p.xfers.filter (fun x => decide (x.legFirst ≤ l) && decide (l < x.legFirst + x.legCount))).length) == 1) &&
  (List.range p.legs.length).all (fun l =>
    let e := p.leg l
    decide (e.snd < n) && decide (e.rcv < n) && e.snd != e.rcv && decide (1 ≤ e.planes) && decide (e.plane0 + e.planes ≤ 64) &&
    decide (1 ≤ e.slots) && decide (e.slot0 + e.slots + 2 ≤ slots) &&
    (List.range e.planes).all (fun k =>
      (List.range e.slots).all (fun m => p.receiver (e.plane0 + k) (e.slot0 + m) e.snd == some e.rcv) &&
      !gone e.snd (e.plane0 + k) && !gone e.rcv (e.plane0 + k)) &&
    (List.range l).all (fun m =>
      let f := p.leg m
      e.snd != f.snd || decide (e.plane0 + e.planes ≤ f.plane0) || decide (f.plane0 + f.planes ≤ e.plane0) ||
      decide (e.slot0 + e.slots ≤ f.slot0) || decide (f.slot0 + f.slots ≤ e.slot0)) &&
    decide ((p.xfer (p.xferOf l)).bytes ≤ 120 * p.firstPiece e e.slots)) &&
  p.xfers.all (fun x =>
    let ls := x.legs.map p.leg
    let snd := (ls.headD ⟨0, 0, 0, 0, 0, 0⟩).snd
    let rcv := (ls.headD ⟨0, 0, 0, 0, 0, 0⟩).rcv
    (if x.kind = 1 then ls.all (fun e => e.snd == snd) && noRepeats (ls.map (·.rcv))
     else
       let m := (sums rcv).getD x.sum ⟨0, 8, 8, 0, 0, 0⟩
       ls.all (fun e => e.rcv == rcv) && noRepeats (ls.map (·.snd)) && decide (x.sum < (sums rcv).length) &&
       x.bytes / suElBytes m.inFmt * suElBytes m.outFmt % 128 == 0 && (m.loc == 0 || inView (ext rcv) m.locAddr x.bytes)) &&
    (x.src == 0 || (x.srcAddr % 128 == 0 && ls.all (fun e =>
      decide (0x10000000000 ≤ x.srcAddr) && decide (x.srcAddr + x.bytes ≤ 0x10000000000 + ext e.snd)))))

/-! ### LOAD_IMAGE (R57) -/

def irFormat : Nat := 1
def irVersion : Nat := 2
def irDigest : Nat := 3
def irLayout : Nat := 4
def irSections : Nat := 5
def irParams : Nat := 6
def irShape : Nat := 7
def irHbmBin : Nat := 8
def irPlan : Nat := 9

/-- The state with the image's plan and sum programs in place of the tenancy's. -/
def State.withPlan (s : State) (t : Nat) (b : List Byte) : State :=
  let s := { s with plans := s.plans.set t (parsePlan ((bodyOf b tyPlan 0xFF).getD [])) }
  (List.range 16).foldl (fun (s : State) j => { s with sums := match bodyOf b tySum j with
    | some x => s.sums.set (t * 16 + j) (parseSum x)
    | none => s.sums.erase (t * 16 + j) }) s

/-- Check 9. `phys`: physical island of a logical one. -/
def State.planCheck (s : State) (t : Nat) (b : List Byte) (phys : Nat → Nat) : Bool :=
  let n := imgN b
  let ext (j : Nat) : Nat := s.extent (phys j)
  let pb := (bodyOf b tyPlan 0xFF).getD []
  let z := s.withPlan t b
  (ofType b tyMesh).all (fun e => meshOk (e.body b) (imgSlots b)) &&
  (ofType b tySum).all (fun e => sumOk (e.body b) (ext e.isl)) && planFields pb (imgSlots b) &&
  planOk (parsePlan pb) n (imgSlots b) (fun j => z.sums.get [] (t * 16 + j)) ext
    (fun j pl => s.fld (BT_ST_PORT_WITHDRAWN (phys j) pl) == 1) &&
  (List.range n).all (fun j => (List.range (imgSlots b)).all (fun m => decide (z.suHeld t j m ≤ 24 * 2 ^ 20)))

/-- The checks of R57 in order: 0, or the reason code of the first that fails. `ok`: every byte was read well. -/
def State.imageCheck (s : State) (t : Nat) (b : List Byte) (ok : Bool) (phys : Nat → Nat) : Nat :=
  let owned := bitList 32 (s.fld (TN_ISLANDS_LINKS t))
  let ents := linkEnts ((bodyOf b tyLink 0xFF).getD []) (imgLinks b)
  let named := (ents.map (·.phys)).filter (fun k => decide (k < 32))
  if !formatOk b then irFormat
  else if s.fld LH_ID_IMAGE_FMT < fieldAt b 4 1 then irVersion
  else if !ok ∨ 0x40000000 < fieldAt b 8 8 ∨ fieldAt b 8 8 ≠ b.length ∨
      (digestBv (b.take 0x30 ++ List.replicate 48 0 ++ b.drop 0x60)).toNat ≠ imgDigest b then irDigest
  else if !layoutOk b then irLayout
  else if !sectionsOk b (fun j => s.extent (phys j)) then irSections
  else if imgSlots b < 32 ∨ 8192 < imgSlots b ∨ 64 < imgAllow b ∨ 256 ≤ imgModes b ∨ 2 ≤ imgModes b % 4 ∨ 2 ≤ imgModes b / 4 % 4 ∨
      2 ≤ imgModes b / 16 % 4 then irParams
  else if imgN b ≠ (s.tnIslands t).length ∨ owned.length < imgLinks b ∨ !noRepeats named ∨ !named.all owned.contains then irShape
  else if bitOf (fieldAt b 5 1) 0 ∧ s.fld LH_CAP_HBM_EXT = 0 then irHbmBin
  else if !s.planCheck t b phys then irPlan
  else 0

/-- Words of register files of island i that carry flips are written afresh. -/
def State.dropRegFlips (s : State) (i : Nat) : State :=
  let here (k : Nat) : Bool :=
    if k < 2 ^ 50 then false else if k < 2 ^ 51 then (k - 2 ^ 50) / (64 * 4 * 32768) == i
    else if k < 2 ^ 52 then (k - 2 ^ 51) / (32 * 32 * 64) == i else (k - 2 ^ 52) / (8 * 4 * 4096) == i
  { s with flips := s.flips.filter (fun e => !here e.1) }

/-- The registers, masks, control words, accumulators and queues of an island as LOAD_IMAGE leaves them (R69, R93, R109, R111,
R113). `sect`: bytes of the program of each core, which may be none or a program of no bytes. -/
def State.loadCores (s : State) (i rnd : Nat) (sect : Nat → Option Nat) : State :=
  let s := { s with arrays := s.arrays.filter (fun e => e.1 / 64 != i) }.dropRegFlips i
  let s := (List.range 32).foldl (fun (s : State) k => s.setVc i k { vrnd := BitVec.ofNat 2 rnd }) s
  (List.range 8).foldl (fun (s : State) n =>
    let c : CoreId := ⟨Fin.ofNat 16 i, Fin.ofNat 8 n⟩
    let x : Core := { prog := (sect n).isSome, sect := (sect n).getD 0, xfers := (s.core c).xfers, issueNo := (s.core c).issueNo }
    let s := (s.setCore c (x.cwSet cwFrnd (BitVec.ofNat 64 rnd))).setScState c stIdle
    ((s.setFld (IS_SC_TRAP_CAUSE i n) 0).setFld (IS_SC_TRAP_DEFERRED i n) 0).setFld (IS_SC_TRAP_TPC i n) 0) s

/-- A base-tile channel as LOAD_IMAGE leaves it: idle, at instruction 0. -/
def State.loadChannel (s : State) (key : Nat) : State :=
  let x := s.ch key
  let s := s.setCh key { reqNo := x.reqNo, actNo := x.actNo }
  (((s.setFld (dmInstr key) 0).setFld (dmDone key) 0).setFld (dmState key) dsIdle).dmaSync key

/-- Puts a section into the program region of an island, from 128-byte offset `o` on (R112, R303). -/
def State.loadSection (s : State) (i o : Nat) (body : List Byte) : State :=
  s.storeBytes reqHost (s.progBase i + o) body.length (leNat body)

/-- Loads an image that passed the checks. -/
def State.loadImage (s : State) (t : Nat) (b : List Byte) (phys : Nat → Nat) : State :=
  let n := imgN b
  let rnd := imgModes b / 64 % 4
  let owned := bitList 32 (s.fld (TN_ISLANDS_LINKS t))
  let s := s.withPlan t b
  let s := { s with
    linkMaps := s.linkMaps.set t (bindLinks (linkEnts ((bodyOf b tyLink 0xFF).getD []) (imgLinks b)) owned),
    images := s.images.set t {
      digest := imgDigest b, timeDet := bitOf (fieldAt b 5 1) 1,
      progs := (List.range (8 * n)).filter (fun k => (ofType b tyProgram).any (fun e => e.isl * 8 + e.unit == k)),
      regions := regionsOf ((bodyOf b tyRegion 0xFF).getD []) },
    legs := s.legs.filter (fun e => e.1 / 16384 != t), xruns := s.xruns.filter (fun e => e.1 / 4096 != t), recs := s.recs.erase t }
  let s := s.setRun t { hold := (s.run t).hold }
  let s := (List.range n).foldl (fun (s : State) j =>
    let i := phys j
    let size (k : Nat) : Option Nat := ((ofType b tyProgram).find? (fun e => e.isl == j && e.unit == k)).map (fun e => e.size)
    let s := s.loadCores i rnd size
    let s := s.setMesh i (parseMesh ((bodyOf b tyMesh j).getD []))
    let s := (List.range 32).foldl (fun (s : State) c => { s.loadChannel (i * 32 + c) with dmaLen := s.dmaLen.erase (i * 32 + c) }) s
    let s := ((sects b).filter (fun e => e.isl == j && (e.typ == tyProgram || e.typ == tyDma))).foldl (fun (r : Nat × State) e =>
      let z := r.2.loadSection i r.1 (e.body b)
      let a := r.2.progBase i + r.1
      let z := if e.typ = tyProgram then { z with progAt := z.progAt.set (i * 8 + e.unit) a }
        else { z with dmaAt := z.dmaAt.set (i * 32 + e.unit) a, dmaLen := z.dmaLen.set (i * 32 + e.unit) e.size }
      (r.1 + (e.size + 127) / 128 * 128, z)) (0, s) |>.2
    let s := ((ofType b tyShoal).filter (fun e => e.isl == j)).foldl (fun (s : State) e => s.shoalWrite i e.load (e.body b)) s
    let s := (s.setFld (BT_SU_STAT_BUF_PEAK i) 0).setFld (BT_DM_KV_STAT_FAULTED i) 0
    s.setConsumed i (s.kvProd i)) s
  let s := s.setFld (TN_BIND_MAP t) (((List.range n).map (fun j => phys j * 16 ^ j)).foldl (· + ·) 0)
  let s := ((s.setFld (TN_FRAME_CFG_FRAME_SLOTS t) (imgSlots b)).setFld (TN_FRAME_CFG_OVERRUN_ALLOW t) (imgAllow b)).setFld (TN_FRAME_CFG_MODES t) (imgModes b)
  let s := s.setFld (TN_DET_NOT_TIME_DET t) (if bitOf (fieldAt b 5 1) 1 then 0 else 1)
  (s.setFld (TN_CKPT_STAT_CLEAN t) 0).setFld (TN_STATE_STATE t) tnLoaded

/-- Unloads the image of a tenancy (R425). -/
def State.unloadImage (s : State) (t : Nat) : State :=
  let s := (s.tnIslands t).foldl (fun (s : State) i =>
    let s := (List.range 32).foldl (fun (s : State) c => { s.loadChannel (i * 32 + c) with dmaLen := s.dmaLen.erase (i * 32 + c) }) s
    let s := (List.range 8).foldl (fun (s : State) n => let c : CoreId := ⟨Fin.ofNat 16 i, Fin.ofNat 8 n⟩; s.setCore c { s.core c with prog := false, sect := 0 }) s
    s.setMesh i {}) s
  let s := { s with
    plans := s.plans.erase t, sums := s.sums.filter (fun e => e.1 / 16 != t), linkMaps := s.linkMaps.erase t, images := s.images.erase t,
    legs := s.legs.filter (fun e => e.1 / 16384 != t), xruns := s.xruns.filter (fun e => e.1 / 4096 != t), recs := s.recs.erase t }
  let s := s.setRun t { hold := (s.run t).hold }
  (((s.setFld (TN_FRAME_CFG_FRAME_SLOTS t) 0).setFld (TN_FRAME_CFG_OVERRUN_ALLOW t) 0).setFld (TN_FRAME_CFG_MODES t) 0).setFld (TN_BIND_MAP t) 0

end Sys2Proof.Machine
end

