-- ==== Sys2Proof/Machine/Checkpoint.lean ====
section
/-!
DEFINITION. Digests, checkpoints and run records (15): what CHECKPOINT writes and RESTORE reads back, the digest of a list of
regions, the run-record ring.
-/
namespace Sys2Proof.Machine

open Sys2Proof

def State.image (s : State) (t : Nat) : Image := s.images.get {} t
def Image.ofKind (m : Image) (k : Nat) : List Region := m.regions.filter (fun r => r.kind == k)
/-- Number of logical islands of a loaded tenancy. -/
def State.tnN (s : State) (t : Nat) : Nat := (s.tnIslands t).length
/-- The cores with a program section, by logical island then core index. -/
def State.progCores (s : State) (t : Nat) : List CoreId :=
  (s.image t).progs.map (fun k => ⟨Fin.ofNat 16 (s.physOf t (k / 8)), Fin.ofNat 8 k⟩)

/-! ### Outstanding requests (R177, R398) -/

/-- The tenancy a waiter works for; 16 for none. Host channels count only when `host`. -/
def State.waiterTen (s : State) (host : Bool) : Waiter → Nat
  | .xfer core _ _ => (s.tenOf (core / 8)).getD 16
  | .dmaRead ch _ | .dmaWrite ch _ | .dmaSignal ch => if hostCh ch && !host then 16 else s.chTen ch
  | .repair ten _ _ _ _ => ten
  | .kv b _ | .gone b => (s.tenOf b).getD 16
  | .host _ _ _ | .hostWrite _ | .mbox => 16

/-- The tenancy holds an outstanding ferry or fabric request. -/
def State.outstanding (s : State) (t : Nat) (host : Bool) : Bool :=
  (s.freqs.any (fun e => !e.2.unknown && s.waiterTen host e.2.who == t)) ||
  (List.range 16).any (fun b => (s.tile b).tags.any (fun e => s.waiterTen host e.2 == t)) ||
  (host && (List.range 32).any (fun n => s.chTen (512 + n) == t &&
    (!(s.ch (512 + n)).reqs.isEmpty || s.fld (dmState (512 + n)) == dsDraining)))

/-- Base-tile channels and walkers of a tenancy have nothing under way (R323, R386). -/
def State.quiesced (s : State) (t : Nat) : Bool :=
  !s.outstanding t false &&
  (s.tnIslands t).all (fun i =>
    (List.range 32).all (fun c => (s.ch (i * 32 + c)).reqs.isEmpty && (s.ch (i * 32 + c)).back.isEmpty && s.fld (dmState (i * 32 + c)) != dsDraining) &&
    s.fld (BT_DM_KV_STAT_BUSY i) == 0)

/-! ### Digests (R406 to R408) -/

/-- SHA-384 of a region of island i in the local view, as its number of bytes, and the lines found bad. -/
def State.digestRegion (s : State) (i a n : Nat) : Nat × Nat × State :=
  let (v, bad, s) := s.readLocal i reqHost a (spanLines a n) n
  let lines := ((bad.map (fun w => w / 128)).eraseDups).length
  (leNat (sha384 (leBytes n v)), lines, (s.bump (BT_DM_DG_STAT_POISONED i) lines).bump (BT_DM_DG_STAT_MIB i) (n / 2 ^ 20))

/-- The digest of a list of regions: entry index, island, address, size. Zero for an empty list. -/
def State.digestList (s : State) (l : List (Nat × Nat × Nat × Nat)) : Nat × Bool × State :=
  if l.isEmpty then (0, false, s)
  else
    let (b, bad, s) := l.foldl (fun (r : List Byte × Bool × State) x =>
      let (d, n, z) := r.2.2.digestRegion x.2.1 x.2.2.1 x.2.2.2
      (r.1 ++ leBytes 4 x.1 ++ leBytes 8 x.2.2.2 ++ leBytes 48 d, r.2.1 || decide (0 < n), z)) ([], false, s)
    (leNat (sha384 b), bad, s)

/-- Regions of a kind with their declaration index; an INPUT region's buffer for step `step`. -/
def State.digestItems (s : State) (t kind step : Nat) : List (Nat × Nat × Nat × Nat) :=
  let rs := (s.image t).regions
  (List.range rs.length).filterMap (fun k =>
    let r := rs.getD k ⟨0, 0, 0, 0, 0, 0⟩
    if r.kind = kind then some (k, s.physOf t r.isl, r.addr + (if r.buffers = 0 then 0 else step % r.buffers) * r.stride, r.size) else none)

def State.digestBusy (s : State) (l : List (Nat × Nat × Nat × Nat)) (b : Bool) : State :=
  l.foldl (fun (s : State) x => s.setFld (BT_DM_DG_STAT_BUSY x.2.1) (if b then 1 else 0)) s

/-! ### Run records (R409, R410) -/

def State.recSlots (s : State) (t : Nat) : Nat := (((s.image t).ofKind rgRunrec).head?).elim 0 (fun r => r.size / 2048)
def State.recFull (s : State) (t : Nat) : Bool :=
  decide (s.recSlots t ≤ (s.fld (TN_RUNREC_STAT_HEAD t) + 2 ^ 32 - s.fld (TN_RUNREC_STAT_TAIL t)) % 2 ^ 32)
/-- A record waits, and the ring holds no free slot (BLOCK). -/
def State.recStuck (s : State) (t : Nat) : Bool :=
  s.fld (TN_RUNREC_CFG_BLOCK t) == 1 && s.recFull t && !(s.recs.get [] t).isEmpty

/-- The 2,048 bytes of a record. -/
def State.recBytes (s : State) (t : Nat) (r : RunRec) : List Byte :=
  let (d, bad) := r.digest.getD (0, false)
  let w := (List.range 6).flatMap (fun k => leBytes 8 (s.fld (TN_WDIGEST_BYTES t k)))
  let b := leBytes 4 0x5252514C ++ [BitVec.ofNat 8 t, BitVec.ofNat 8 (r.flags ||| (if bad then 1 else 0)), BitVec.ofNat 8 r.op, BitVec.ofNat 8 r.seeds.length]
    ++ leBytes 8 r.step ++ leBytes 8 r.tick ++ leBytes 4 r.slots ++ leBytes 4 0 ++ leBytes 48 (s.image t).digest ++ w ++ leBytes 48 d ++ leBytes 16 0
    ++ r.seeds.flatMap (leBytes 8)
  b ++ List.replicate (2048 - b.length) 0

/-- Completed records are written in order, or dropped (R410). -/
def State.flushRecs (t : Nat) : Nat → State → State
  | 0, s => s
  | f + 1, s =>
    match s.recs.get [] t, (s.image t).ofKind rgRunrec with
    | r :: rest, g :: _ =>
      let h := s.fld (TN_RUNREC_STAT_HEAD t)
      if r.digest.isNone ∨ (s.recFull t ∧ s.fld (TN_RUNREC_CFG_BLOCK t) = 1) then s
      else
        let z := if s.recFull t then (s.bump (TN_RUNREC_LOST_LOST t) 1).raise 0x700F 16 (srcIx 0 0) r.step [t]
          else match s.localPhys (s.physOf t g.isl) (g.addr + h % s.recSlots t * 2048) with
            | some a => s.storeBytes reqHost a 2048 (leNat (s.recBytes t r))
            | none => s
        State.flushRecs t f ({ z with recs := z.recs.set t rest }.setFld (TN_RUNREC_STAT_HEAD t) (h + 1))
    | _, _ => s

/-- Records are written as far as they may; a BLOCK pause ends when none waits for a slot. -/
def State.runrecGo (s : State) (t : Nat) : State :=
  let s := State.flushRecs t ((s.recs.get [] t).length + 1) s
  let r := s.run t
  s.setRun t { r with pause := if s.recStuck t then r.pause else clearBits r.pause 4 }

/-! ### The parts of a checkpoint (R400, R401) -/

/-- Scalar-core control words in ascending number (R401). -/
def savedCws : List Nat :=
  [0x001, 0x002, 0x008, 0x009, 0x00A, 0x010, 0x011, 0x012, 0x013, 0x014] ++ (List.range 16).map (fun k => 0x040 + k) ++ [0x050, 0x051, 0x052]

/-- Values at rising offsets: offset, value. -/
abbrev Parts := List (Nat × Nat)
def Parts.sum (p : Parts) : Nat := p.foldl (fun (n : Nat) (x : Nat × Nat) => n + x.2 * 2 ^ (8 * x.1)) 0

def State.saveCore (s : State) (c : CoreId) (o : Nat) : Parts :=
  let x := s.core c
  (List.range 32).map (fun r => (o + 8 * r, (x.gGet (Fin.ofNat 32 r)).toNat)) ++ (List.range 32).map (fun r => (o + 0x100 + 8 * r, (x.fGet (Fin.ofNat 32 r)).toNat)) ++
  [(o + 0x200, if s.scState c = stFend then 0 else x.pc.toNat)] ++
  (List.range 29).map (fun k => (o + 0x208 + 8 * k, (x.cwGet (savedCws.getD k 0)).toNat)) ++ [(o + 0x2F0, x.pg.toNat), (o + 0x2F4, x.pf.toNat)]

def saveVec (x : VecCore) (o : Nat) : Parts :=
  (List.range 32).flatMap (fun r => [(o + 512 * r, (x.reg r).toNat), (o + 0x4000 + 16 * r, (x.poi r).toNat)]) ++
  (List.range 8).map (fun m => (o + 0x4200 + 16 * m, (x.mask m).toNat)) ++
  (List.range 4).flatMap (fun q => [(o + 0x4280 + 1024 * q, (x.smxMx.get 0 q).toNat), (o + 0x4280 + 1024 * q + 512, (x.smxSm.get 0 q).toNat)]) ++
  [(o + 0x5280, x.vrnd.toNat), (o + 0x5288, x.vflags.toNat)]

def AccEl.state (e : AccEl) : Nat := e.spec.toNat + (if e.poison then 4 else 0) + (if e.sat then 8 else 0)
def saveBank (k : Bank) (o : Nat) : Parts :=
  k.el.flatMap (fun e => [(o + 16 * e.1, e.2.q.toNat), (o + 0x40000 + e.1 / 2, e.2.state * 16 ^ (e.1 % 2))]) ++
  k.terms.map (fun e => (o + 0x42000 + 4 * e.1, e.2)) ++ [(o + 0x42200, wrap 16 (k.anchor.getD (-2048))), (o + 0x42202, k.flags.toNat)]

def State.saveChannel (s : State) (key o : Nat) : Parts :=
  let c := s.ch key
  let it (k : Nat) : Nat := ((c.at_[k]?).map (·.iter)).getD 0
  [(o, s.fld (dmState key) + s.fld (dmReason key) * 256), (o + 8, s.fld (dmInstr key) + s.fld (dmDone key) * 2 ^ 16),
   (o + 16, it 0 + it 1 * 2 ^ 32 + c.at_.length * 2 ^ 56), (o + 24, it 2 + it 3 * 2 ^ 32),
   (o + 32, s.fld (dmFaultOff key) + s.fld (dmFaultTgt key) * 2 ^ 40)] ++
  (List.range c.at_.length).map (fun k => (o + 40 + 2 * k, ((c.at_[k]?).map (·.start)).getD 0))

def State.kvCfgWord (s : State) (i : Nat) : Nat :=
  s.fld (BT_DM_KV_CFG_RING i) + s.fld (BT_DM_KV_CFG_ENABLE i) * 2 ^ 31 + s.fld (BT_DM_KV_CFG_RING_LOG2 i) * 2 ^ 32 + s.fld (BT_DM_KV_CFG_PROD_WORD i) * 2 ^ 36

/-- Offsets within the checkpoint, at the body's start 0x1000. -/
def ckVec : Nat := 0x3000
def ckArr : Nat := 0xC3000
def ckFlag : Nat := 0x43C3000
def ckDma : Nat := 0x44C3000
def ckShoal : Nat := 0x44C4000

/-- SHOAL_STATE regions of logical island j with their offsets. -/
def Image.shoalParts (m : Image) (j : Nat) : List (Nat × Region) :=
  ((m.ofKind rgShoal).filter (fun r => r.isl == j)).foldl (fun (a : List (Nat × Region) × Nat) r =>
    (a.1 ++ [(a.2, r)], a.2 + pad4k r.size)) ([], ckShoal) |>.1

/-- The keys of the flipped words from `lo` on, `n` places, in units of `w` words: the units that hold one. -/
def State.flipped (s : State) (lo n w : Nat) : List Nat :=
  ((s.flips.filter (fun f => decide (lo ≤ f.1) && decide (f.1 < lo + n))).map (fun f => (f.1 - lo) / w)).eraseDups

/-- CHECKPOINT reads every word of the register files and the banks of island i through its checker (R86, R105, R110). -/
def State.senseIsland (s : State) (i : Nat) : State :=
  let s := (List.range 8).foldl (fun (s : State) n =>
    let c : CoreId := ⟨Fin.ofNat 16 i, Fin.ofNat 8 n⟩
    (s.senseAll c ((List.finRange 32).map SReg.g ++ (List.finRange 32).map SReg.f ++ savedCws.map SReg.cw)).2) s
  let s := (s.flipped (FlipAt.vec i 0 0 0).key 65536 64).foldl (fun (s : State) k => s.senseVec i (k / 32) (k % 32)) s
  (s.flipped (FlipAt.acc i 0 0 0).key 8388608 2).foldl (fun (s : State) k =>
    let j := k / 65536
    let b := k / 16384 % 4
    let (u, s) := s.senseAcc i j b (k % 16384)
    let e := (((s.arr i j).bank b).el).get {} (k % 16384)
    if u && !e.poison then (s.putAcc i j b (k % 16384) { e with poison := true }).poisonAcc i j b 0 else s) s

/-- A scalar register or control word, a vector lane or an accumulator is poisoned. -/
def State.badRegs (s : State) (i : Nat) : Bool :=
  (List.range 8).any (fun n => let x := s.core ⟨Fin.ofNat 16 i, Fin.ofNat 8 n⟩; x.pg != 0 || x.pf != 0 || x.pcw.any (fun e => e.2)) ||
  (List.range 32).any (fun k => (s.vc i k).vp.any (fun e => e.2 != 0)) ||
  (List.range 256).any (fun b => (((s.arr i (b / 4)).bank (b % 4)).el).any (fun e => e.2.poison))

/-- The body of logical island j's checkpoint (bytes 0x1000 to TOTAL − 1) on physical island i: its number, the offsets of
poisoned words, whether anything was poisoned. -/
def State.ckBody (s : State) (t j i : Nat) : Nat × List Nat × Bool × State :=
  let o (x : Nat) : Nat := x - 0x1000
  let s := s.senseIsland i
  let p : Parts :=
    (List.range 8).flatMap (fun n => s.saveCore ⟨Fin.ofNat 16 i, Fin.ofNat 8 n⟩ (n * 1024)) ++
    (List.range 32).flatMap (fun k => saveVec (s.vc i k) (o ckVec + k * 24576)) ++
    (List.range 256).flatMap (fun b => saveBank ((s.arr i (b / 4)).bank (b % 4)) (o ckArr + b * 274432)) ++
    [(o ckFlag, s.peek (flagBase i) 0x100000)] ++
    (List.range 32).flatMap (fun c => s.saveChannel (i * 32 + c) (o ckDma + 64 * c)) ++
    [(o ckDma + 2048, (s.kv i).consumed), (o ckDma + 2056, s.kvCfgWord i), (o ckDma + 2064, s.fld (BT_DM_KV_DONE_DONE_WORD i)),
     (o ckDma + 2072, s.fld (BT_DM_KV_STAT_FAULTED i))]
  let (v, bad, s) := ((s.image t).shoalParts j).foldl (fun (r : Nat × List Nat × State) x =>
    let (d, b, z) := r.2.2.shoalRead i x.2.addr x.2.size
    (r.1 + d * 2 ^ (8 * o x.1), r.2.1 ++ b.map (fun w => w - x.2.addr + o x.1), z)) (Parts.sum p, [], s)
  (v, bad, !bad.isEmpty || s.badRegs i, s)

/-- The header (R400). -/
def ckHeader (j n flags step total digest body : Nat) : Nat :=
  0x4B43514C + 1 * 2 ^ 32 + j * 2 ^ 40 + n * 2 ^ 48 + flags * 2 ^ 56 + step % 2 ^ 48 * 2 ^ 64 + total * 2 ^ 128 + digest * 2 ^ 256 + body * 2 ^ 640

/-- Module physical address of logical island j's CHECKPOINT region. -/
def State.ckBase (s : State) (t j : Nat) : Option Nat :=
  (((s.image t).ofKind rgCheckpoint).find? (fun r => r.isl == j)).bind (fun r => s.localPhys (s.physOf t j) r.addr)

/-! ### Capture (R398, R402) -/

/-- The capture begins: channels and walkers quiesce, VALID is cleared in every island's header. -/
def State.captureBegin (s : State) (t : Nat) (c : HCmd) (hold : Bool) : State :=
  let s := { s with caps := s.caps.set t ⟨c, hold⟩ }.setFld (TN_CKPT_STAT_BUSY t) 1
  let s := (s.tnIslands t).foldl (fun (s : State) i =>
    let s := (List.range 32).foldl (fun (s : State) k => s.setCh (i * 32 + k) { s.ch (i * 32 + k) with quiet := true }) s
    s.setKv i { s.kv i with quiet := true }) s
  let s := (List.range (s.tnN t)).foldl (fun (s : State) j =>
    match s.ckBase t j with
    | some a => let (v, _, s) := s.readBytes reqHost (a + 7) 1; s.storeBytes reqHost (a + 7) 1 (clearBits v 1)
    | none => s) s
  if s.running t then s.setRun t { s.run t with pause := (s.run t).pause ||| 2 } else s

/-- What names a checkpoint: its BODY_DIGEST, STEP and logical island. -/
def ckKey (digest step j : Nat) : Nat := digest + step % 2 ^ 48 * 2 ^ 384 + j * 2 ^ 432

/-- Writes logical island j's checkpoint; answers whether anything was poisoned. -/
def State.captureIsland (s : State) (t j i a : Nat) : Bool × State :=
  let n := checkpointSize (s.image t).regions j
  let (v, bad, poison, s) := s.ckBody t j i
  let d := leNat (sha384 (leBytes (n - 0x1000) v))
  let s := s.storeBytes reqHost (a + 0x1000) (n - 0x1000) v (fun w => bad.contains (w - a - 0x1000))
  let s := s.storeBytes reqHost a 4096 (ckHeader j (s.tnN t) (1 + if poison then 2 else 0) (s.fld (TN_STEP_STEP t)) n (s.image t).digest d)
  let opened := (List.range 256).filterMap (fun b =>
    let k := (s.arr i (b / 4)).bank (b % 4)
    if k.opened then some (b, k.cleared) else none)
  (poison, { s with ckBanks := s.ckBanks.set (ckKey d (s.fld (TN_STEP_STEP t)) j) opened }.bump (BT_DM_DG_STAT_MIB i) ((n - 0x1000) / 2 ^ 20))

/-- Channels and walkers go on after a capture. -/
def State.captureRelease (s : State) (t : Nat) : State :=
  (s.tnIslands t).foldl (fun (s : State) i =>
    let s := (List.range 32).foldl (fun (s : State) k =>
      let key := i * 32 + k
      if (s.ch key).quiet then (s.setCh key { s.ch key with quiet := false }).dmaGo key else s) s
    s.setKv i { s.kv i with quiet := false }) { s with caps := s.caps.erase t }

/-- cw.ckmark of the lowest core with a program on logical island 0 (R175). -/
def State.ckMark (s : State) (t : Nat) : Nat := ((s.progCores t).head?).elim 0 (fun c => ((s.core c).cwGet cwCkmark).toNat)

/-! ### Restore (R403, R404) -/

/-- The failing check of R403 on logical island j, 0 for none; the body's number and BODY_DIGEST. -/
def State.restoreCheck (s : State) (t j step0 : Nat) : Nat × Nat × Nat × State :=
  match s.ckBase t j with
  | none => (1, 0, 0, s)
  | some a =>
    let n := checkpointSize (s.image t).regions j
    let (h, bad, s) := s.readBytes reqHost a 4096
    let d := bits h 640 384
    if !bad.isEmpty ∨ bits h 0 32 ≠ 0x4B43514C ∨ bits h 32 8 ≠ 1 ∨ bits h 56 2 ≠ 1 then (1, 0, 0, s)
    else if bits h 40 8 ≠ j ∨ bits h 48 8 ≠ s.tnN t then (2, 0, 0, s)
    else if bits h 256 384 ≠ (s.image t).digest then (3, 0, 0, s)
    else if bits h 128 64 ≠ n then (4, 0, 0, s)
    else
      let (v, bad, s) := s.readBytes reqHost (a + 0x1000) (n - 0x1000)
      if !bad.isEmpty ∨ leNat (sha384 (leBytes (n - 0x1000) v)) ≠ d then (5, 0, 0, s)
      else if j ≠ 0 ∧ bits h 64 48 ≠ step0 then (6, 0, 0, s)
      else (0, v, d, s)

/-- STEP in the header of logical island 0. -/
def State.ckStep (s : State) (t : Nat) : Nat := ((s.ckBase t 0).map (fun a => s.peek (a + 8) 6)).getD 0

/-- First failing check and its island, with the bodies that passed. -/
def State.restoreChecks (s : State) (t : Nat) : Option (Nat × Nat) × List (Nat × Nat) × State :=
  let step := s.ckStep t
  (List.range (s.tnN t)).foldl (fun (r : Option (Nat × Nat) × List (Nat × Nat) × State) j =>
    if r.1.isSome then r
    else
      let (f, v, d, z) := r.2.2.restoreCheck t j step
      (if f = 0 then none else some (f, j), r.2.1 ++ [(v, d)], z)) (none, [], s)

/-- The number `n` bytes at offset `o` of a body. -/
def body (v o n : Nat) : Nat := bits v (8 * (o - 0x1000)) (8 * n)

def State.restoreCore (s : State) (c : CoreId) (v o : Nat) : State :=
  let x := s.core c
  let tbl (o n : Nat) : Tbl Word := (List.range n).filterMap (fun r => let w := body v (o + 8 * r) 8; if w = 0 then none else some (r, BitVec.ofNat 64 w))
  let y : Core := {
    g := (tbl o 32).erase 0, f := tbl (o + 0x100) 32, pc := BitVec.ofNat 64 (body v (o + 0x200) 8), prog := x.prog, sect := x.sect, issueNo := x.issueNo,
    pg := BitVec.ofNat 32 (body v (o + 0x2F0) 4), pf := BitVec.ofNat 32 (body v (o + 0x2F4) 4),
    cw := (List.range 29).filterMap (fun k => let w := body v (o + 0x208 + 8 * k) 8; if w = 0 then none else some (savedCws.getD k 0, BitVec.ofNat 64 w)) }
  let s := (s.setCore c y).setScState c stIdle
  ((s.setFld (IS_SC_TRAP_CAUSE c.isl c.sc) 0).setFld (IS_SC_TRAP_DEFERRED c.isl c.sc) 0).setFld (IS_SC_TRAP_TPC c.isl c.sc) 0

def restoreVec (v o : Nat) : VecCore :=
  { v := (List.range 32).map (fun r => (r, BitVec.ofNat 4096 (body v (o + 512 * r) 512))),
    vp := (List.range 32).map (fun r => (r, BitVec.ofNat 128 (body v (o + 0x4000 + 16 * r) 16))),
    m := (List.range 7).map (fun m => (m + 1, BitVec.ofNat 128 (body v (o + 0x4200 + 16 * (m + 1)) 16))),
    smxMx := (List.range 4).map (fun q => (q, BitVec.ofNat 4096 (body v (o + 0x4280 + 1024 * q) 512))),
    smxSm := (List.range 4).map (fun q => (q, BitVec.ofNat 4096 (body v (o + 0x4280 + 1024 * q + 512) 512))),
    vrnd := BitVec.ofNat 2 (body v (o + 0x5280) 8), vflags := BitVec.ofNat 5 (body v (o + 0x5288) 8) }

/-- A bank, open as it was when saved, with the rows then cleared (R69, R87). For a checkpoint that another module took, of which the
named bytes of R401 tell neither: open where a term counter is not zero, not open where the anchor is unset, else a free value. -/
def State.restoreBank (s : State) (v o key b : Nat) : Bank :=
  let st (e : Nat) : Nat := body v (o + 0x40000 + e / 2) 1 / 16 ^ (e % 2) % 16
  let el := (List.range 16384).filterMap (fun e =>
    let q := body v (o + 16 * e) 16
    if q = 0 ∧ st e = 0 then none
    else some (e, ({ q := BitVec.ofNat 128 q, spec := BitVec.ofNat 2 (st e), poison := bitOf (st e) 2, sat := bitOf (st e) 3 } : AccEl)))
  let terms := (List.range 128).filterMap (fun r => let n := body v (o + 0x42000 + 4 * r) 4; if n = 0 then none else some (r, n))
  let a := sext 16 (body v (o + 0x42200) 2)
  let known := s.ckBanks.find? (fun x => x.1 == key)
  let here := known.bind (fun x => x.2.find? (fun y => y.1 == b))
  let free := Config.bankOpen key b
  let isOpen := if known.isSome then here.isSome else !terms.isEmpty || (decide (a ≠ -2048) && free.isSome)
  { el := el, terms := terms, anchor := if a = -2048 then none else some a, flags := BitVec.ofNat 8 (body v (o + 0x42202) 1), opened := isOpen,
    cleared := if !isOpen then 0 else if known.isSome then (here.map (fun x => x.2)).getD 0 else free.getD 0 }

/-- A channel from its saved progress; the COUNT and strides of its open loops stand in their LOOP instructions (R314). -/
def State.restoreChannel (s : State) (key v o : Nat) : State :=
  let w0 := body v o 8
  let depth := min 4 (bits (body v (o + 16) 8) 56 3)
  let iter (k : Nat) : Nat := bits (body v (o + 16 + k / 2 * 8) 8) (k % 2 * 32) 24
  let loops := (List.range depth).map (fun k =>
    let first := body v (o + 40 + 2 * k) 2
    let w := s.peek (s.dmaProg key + 16 * (first - 1)) 16
    ({ start := first, count := bits w 4 24, iter := iter k, sstride := bits w 28 40, dstride := bits w 68 40 } : DLoop))
  let c := s.ch key
  let st := w0 % 8
  let s := s.setCh key { reqNo := c.reqNo, actNo := c.actNo, fetch := bits (body v (o + 8) 8) 0 16, loops := loops, at_ := loops, held := true }
  let s := (s.setFld (dmState key) (if st = dsWaiting then dsRunning else st)).setFld (dmReason key) (bits w0 8 8)
  let s := (s.setFld (dmInstr key) (bits (body v (o + 8) 8) 0 16)).setFld (dmDone key) (bits (body v (o + 8) 8) 16 48)
  let s := (s.setFld (dmFaultOff key) (bits (body v (o + 32) 8) 0 40)).setFld (dmFaultTgt key) (bits (body v (o + 32) 8) 40 6)
  s.dmaSync key

/-- Writes a checkpoint's body back onto physical island i (R404). -/
def State.restoreIsland (s : State) (t j i v key : Nat) : State :=
  let s := (s.writeBack i).dropRegFlips i
  let s := (List.range 8).foldl (fun (s : State) n => s.restoreCore ⟨Fin.ofNat 16 i, Fin.ofNat 8 n⟩ v (0x1000 + 1024 * n)) s
  let s := (List.range 32).foldl (fun (s : State) k => s.setVc i k (restoreVec v (ckVec + 24576 * k))) s
  let s := (List.range 64).foldl (fun (s : State) a =>
    (s.setArr i a { banks := (List.range 4).map (fun b => (b, s.restoreBank v (ckArr + (4 * a + b) * 274432) key (4 * a + b))) }).armAcc i a 0 0) s
  let s := s.setMesh i { s.mesh i with t := 0, done := [], lag := 0, shared := [] }
  let s := s.pokes (flagBase i) (leBytes 0x100000 (body v ckFlag 0x100000))
  let s := (List.range 32).foldl (fun (s : State) c => s.restoreChannel (i * 32 + c) v (ckDma + 64 * c)) s
  let cfg := body v (ckDma + 2056) 8
  let s := (((s.setFld (BT_DM_KV_CFG_RING i) (bits cfg 0 31)).setFld (BT_DM_KV_CFG_ENABLE i) (bits cfg 31 1)).setFld
    (BT_DM_KV_CFG_RING_LOG2 i) (bits cfg 32 4)).setFld (BT_DM_KV_CFG_PROD_WORD i) (bits cfg 36 17)
  let s := (s.setFld (BT_DM_KV_DONE_DONE_WORD i) (body v (ckDma + 2064) 8)).setFld (BT_DM_KV_STAT_FAULTED i) 0
  let s := (s.setKv i { s.kv i with cfg := none, done := none, todo := [], flight := [], ends := none }).setConsumed i (body v (ckDma + 2048) 8)
  let s := s.zeroShoal i
  (((s.image t).shoalParts j).foldl (fun (s : State) x => s.pokes (shoalBase i + x.2.addr) (leBytes x.2.size (body v x.1 x.2.size))) s).armShoal i

/-- RESTORE's effect once its checks passed (R404). -/
def State.restoreAll (s : State) (t : Nat) (bodies : List (Nat × Nat)) : State :=
  let step := s.ckStep t
  let s := (List.range (s.tnN t)).foldl (fun (s : State) j =>
    let (v, d) := bodies.getD j (0, 0)
    s.restoreIsland t j (s.physOf t j) v (ckKey d step j)) s
  let s := { s with legs := s.legs.filter (fun e => e.1 / 16384 != t), xruns := s.xruns.filter (fun e => e.1 / 4096 != t) }
  let s := s.setRun t { hold := (s.run t).hold, degraded := (s.run t).degraded }
  ((s.setFld (TN_STEP_STEP t) step).setFld (TN_CKPT_STAT_CLEAN t) 1).setFld (TN_STATE_STATE t) tnHalted

end Sys2Proof.Machine
end

