-- ==== Sys2Proof/Machine/Security.lean ====
section
/-!
DEFINITION. Attestation, staging, activation and the owner lock (R526 to R535).
-/
namespace Sys2Proof.Machine

open Sys2Proof

/-- Bytes o to o + n − 1 of a command record's operands, `o` as the record numbers them. -/
def HCmd.at (c : HCmd) (o n : Nat) : Nat := bits c.ops (8 * (o - 0x10)) (8 * n)

def opCreate : Nat := 0x01
def opReshape : Nat := 0x02
def opRelease : Nat := 0x03
def opLoad : Nat := 0x10
def opStart : Nat := 0x11
def opHalt : Nat := 0x12
def opCheckpoint : Nat := 0x13
def opRestore : Nat := 0x14
def opSetOp : Nat := 0x15
def opQuery : Nat := 0x18
def opRetirePage : Nat := 0x20
def opRetireBank : Nat := 0x21
def opAtomic : Nat := 0x22
def opAttest : Nat := 0x30
def opStage : Nat := 0x31
def opActivate : Nat := 0x32
def opLock : Nat := 0x33

def secSrc : Nat := srcIx 7 0
def urPermit : Nat := 0x05
def urBusy : Nat := 0x06
def urPower : Nat := 0x07
def urLocked : Nat := 0x01
def urSupply : Nat := 0x02
def urMoving : Nat := 0x03
def urThrottled : Nat := 0x04
def urNotStaged : Nat := 0x08
def urSelfCheck : Nat := 0x0E

/-! ### The report (R526, R527) -/

/-- The entry of a tenancy in the report. -/
def State.attestTen (s : State) (t : Nat) : List Byte :=
  [BitVec.ofNat 8 t, BitVec.ofNat 8 (s.tn t), BitVec.ofNat 8 (s.fld (TN_STATE_PORT t)), 0]
    ++ leBytes 2 (s.fld (TN_ISLANDS_ISLANDS t)) ++ leBytes 2 0 ++ leBytes 4 (s.fld (TN_ISLANDS_LINKS t)) ++ leBytes 4 0
    ++ leBytes 48 (s.image t).digest ++ leBytes 8 (s.fld (TN_STEP_STEP t)) ++ leBytes 8 0

/-- The part of id k + 1 in the manifest in force. -/
def attestPart (p : List Byte) (k : Nat) : List Byte :=
  let e := ((pkgParts p).find? (fun e => partId e == k + 1)).getD []
  leBytes 2 (k + 1) ++ leBytes 2 0 ++ leBytes 4 (fieldAt e 8 4) ++ leBytes 8 0 ++ (e.drop 0x20).take 48

/-- The report over tenancies `ts`. -/
def State.attestReport (s : State) (ts : List Nat) (nonce : Nat) : List Byte :=
  let p := s.flash.slot s.bootSlot
  let r := s.secRec
  let d := pkgDigest p
  let certs := Config.attestCert d ++ Config.identityCert
  let total := 0x240 + 80 * ts.length + certs.length + 96
  let status := r.select + (if s.fld SEC_STAT_FALLBACK = 1 then 2 else 0) + (if r.lock then 4 else 0) + (if s.flash.staged then 8 else 0)
    + s.fld LH_CAL_STAT_FREQ_UNTRACED * 16 + s.fld LH_CAL_STAT_TEMP_UNTRACED * 32
  let b := leBytes 4 0x5441514C ++ [1, BitVec.ofNat 8 r.lifecycle, 7, BitVec.ofNat 8 ts.length] ++ leBytes 8 Config.serial.toNat
    ++ leBytes 32 nonce ++ leBytes 48 d.toNat ++ leBytes 4 (pkgSvn p) ++ leBytes 4 r.counter ++ leBytes 8 (s.fld LH_SLOT_COUNT_COUNT)
    ++ [BitVec.ofNat 8 status, 0, 0, 0] ++ leBytes 4 certs.length ++ leBytes 4 total ++ leBytes 4 0
    ++ (List.range 7).flatMap (attestPart p) ++ ts.flatMap s.attestTen ++ certs
  b ++ leBytes 96 (Config.attestSign d (digestBv b)).toNat

/-- Writes bytes into host memory through port p, a line at a time (R306). -/
def State.hostPut (s : State) (p a : Nat) (b : List Byte) : State :=
  (List.range (spanLines a b.length)).foldl (fun (s : State) k =>
    let line := a / 128 * 128 + 128 * k
    let lo := max a line
    let n := min (a + b.length) (line + 128) - lo
    s.emit (.hostWrite p line ((2 ^ n - 1) * 2 ^ (lo - line)) (leNat ((b.drop (lo - a)).take n) * 256 ^ (lo - line)))) s

/-- ATTEST acts (R526). -/
def State.actAttest (s : State) (c : HCmd) : State :=
  let live := (List.range 16).filter (fun t => s.tn t != tnFree)
  if c.mgmt then s.complete c csOk 0 (leNat (s.attestReport live (c.at 0x20 32)))
  else
    let p := c.key - 16
    let b := s.attestReport (live.filter (fun t => s.fld (TN_STATE_PORT t) == p)) (c.at 0x20 32)
    if c.at 0x18 4 < b.length then s.complete c csBadOperand b.length
    else (s.hostPut p (c.at 0x10 8) b).complete c csOk

/-! ### Refusals (R528, R530) -/

def State.updateSource (s : State) (c : HCmd) : Bool := c.mgmt || s.fldBit SEC_CFG_HOST_UPDATE (c.key - 16)

/-- A command that moves a tenancy has been taken and has not completed. -/
def State.moving (s : State) : Bool :=
  let is (c : HCmd) : Bool := c.op == opCreate || c.op == opReshape || c.op == opRelease || c.op == opCheckpoint || c.op == opRestore
  !s.caps.isEmpty || s.bounds.any (fun e => e.2.any is) || s.rings.any (fun e => e.2.cur.any is || e.2.q.any is)

/-- The first condition of R530 that refuses a staging or an activation: 0 for none. -/
def State.updateBar (s : State) (c : HCmd) : Nat :=
  if !s.updateSource c then urPermit
  else if s.fld SEC_STAT_ACTIVITY ≠ 0 then urBusy
  else if s.fld LH_PWR_STAT_STATE ≠ 0 then urPower
  else if s.secRec.lock then urLocked
  else if s.lowSupply then urSupply
  else if s.moving then urMoving
  else if (List.range 16).any (fun i => s.sourceActive i || s.fld (TN_FRAME_CFG_THROTTLED i) == 1 ||
      (List.range 8).any (fun n => s.fld (BT_MC_STK_STAT_THROTTLE i n) != 0)) then urThrottled
  else if c.op = opActivate then (if s.flash.staged then s.slotCheck s.inactive else urNotStaged)
  else 0

/-- A refusal completes the command, shows its reason and raises EV_UPDATE_REFUSED. -/
def State.refuseUpdate (s : State) (c : HCmd) (reason : Nat) : State :=
  ((s.setFld SEC_STAT_LAST_REASON reason).raise 0x6002 16 secSrc reason).complete c csUpdateRefused reason

/-! ### Staging (R529, R525) -/

/-- The inactive slot is erased. -/
def State.eraseSlot (s : State) : State :=
  { s with flash := { s.flash with slots := s.flash.slots.set s.inactive [], staged := false } }.showSec

/-- STAGE_UPDATE acts: checked, then the slot is erased and the package awaited. -/
def State.actStage (s : State) (c : HCmd) : State :=
  match s.updateBar c with
  | 0 => (({ s with upd := { cmd := some c } }.eraseSlot).setFld SEC_STAT_ACTIVITY 1).setFld SEC_STAGE_PROGRESS 0
  | r => s.refuseUpdate c r

/-- The package stands in the slot and is read back: the reason of the first check that fails, 0 with the slot staged. -/
def State.storePackage (s : State) (p : List Byte) : Nat × State :=
  let s := { s with flash := { s.flash with slots := s.flash.slots.set s.inactive (p.take pkgMax) } }
  let reason := s.slotCheck s.inactive
  if reason = 0 then (0, ({ s with flash := { s.flash with staged := true } }.showSec).raise 0x7014 16 secSrc (pkgSvn p))
  else (reason, s.showSec)

/-- STAGING_DONE (R529): the package of the SIZE named has been read through the port, written and read back. -/
def execStagingDone (pkg : List Byte) (s : State) : Out :=
  match s.upd.cmd with
  | none => .next s
  | some c =>
    if s.fld SEC_STAT_ACTIVITY ≠ 1 ∨ pkg.length ≠ c.at 0x18 8 then .next s
    else
      let (reason, s) := s.storePackage pkg
      let s := ({ s with upd := {} }.setFld SEC_STAT_ACTIVITY 0).setFld SEC_STAGE_PROGRESS (pkg.length / 1024)
      .next (if reason = 0 then s.complete c csOk else s.refuseUpdate c reason)

/-- PLDM_PACKAGE (R525): a component that is a whole package, from the management path, staged as STAGE_UPDATE does. -/
def execPldmPackage (pkg : List Byte) (s : State) : Out :=
  let bar := s.updateBar { key := 20, mgmt := true, op := opStage, ten := 0 }
  let refuse (s : State) (r : Nat) : State := ((s.setFld SEC_STAT_LAST_REASON r).raise 0x6002 16 secSrc r).emit (.pldmVerify r)
  if bar ≠ 0 then .next (refuse s bar)
  else
    let (reason, s) := s.eraseSlot.storePackage pkg
    .next (if reason = 0 then s.emit (.pldmVerify 0) else refuse s reason)

/-! ### Activation (R531 to R533) -/

/-- ACTIVATE acts: rings stand still, and tenancies pause at their next committing frame tick. -/
def State.actActivate (s : State) (c : HCmd) : State :=
  match s.updateBar c with
  | 0 => { s with upd := { cmd := some c } }.setFld SEC_STAT_ACTIVITY 2
  | r => s.refuseUpdate c r

/-- UPDATE_SWITCH_BEGIN (R531, R532): no tenancy is RUNNING outside a pause. -/
def execUpdateSwitchBegin (s : State) : Out :=
  if s.fld SEC_STAT_ACTIVITY ≠ 2 ∨ s.fld LH_PWR_STAT_STATE = 4 ∨ !s.runningTens.all (fun t => (s.run t).await && bitOf (s.run t).pause 3) then .next s
  else .next ({ s with upd := { s.upd with since := s.now } }.setFld SEC_STAT_ACTIVITY 3)

/-- An activation fails with a reason; the first stands. -/
def State.failUpdate (s : State) (reason : Nat) : State :=
  if s.upd.fail = 0 then { s with upd := { s.upd with fail := reason } } else s

/-- UPDATE_SWITCHOVER (R532): 300 ms into the switch every part has been loaded and verified (`good`), and every target
switches. -/
def execUpdateSwitchover (good : Bool) (s : State) : Out :=
  if s.fld SEC_STAT_ACTIVITY ≠ 3 ∨ s.upd.switched ∨ s.now < s.upd.since + 600000 ∨ s.fld LH_PWR_STAT_STATE = 4 then .next s
  else
    let s := if good then s else s.failUpdate urSelfCheck
    .next { s with upd := { s.upd with switched := decide (s.upd.fail = 0) } }

/-- UPDATE_COMMIT (R532, R533, R535): 370 ms into the switch; `good`: every self-check passed and the keepers' hashes agree.
`cut`: the store of the security record is cut short by loss of power, in device 1 or in device 0. -/
def execUpdateCommit (good : Bool) (cut : Fin 3) (s : State) : Out :=
  if s.fld SEC_STAT_ACTIVITY ≠ 3 ∨ s.upd.committed ∨ s.now < s.upd.since + 740000 ∨ s.fld LH_PWR_STAT_STATE = 4 then .next s
  else
    let s := if good && s.upd.switched then s else s.failUpdate urSelfCheck
    let s := if s.lowSupply then s.failUpdate urSupply else s
    if s.upd.fail ≠ 0 then .next { s with upd := { s.upd with switched := false } }
    else
      let q := s.flash.slot s.inactive
      let r := s.secRec
      let r := { r with select := s.inactive, counter := max r.counter (pkgFloor q), revoked := r.revoked ||| pkgRevoke q }
      let f := s.flash.storeSec r cut
      let s := { s with flash := { f with staged := f.staged && decide (f.secRec.select = s.secRec.select) } }
      if cut ≠ 0 then .next s.powerOff
      else .next (({ s with upd := { s.upd with committed := true } }.setFld SEC_STAT_FALLBACK 0).bump SEC_STAT_ACTIVATIONS 1).showSec

/-- UPDATE_RESUME (R532, R533): 400 ms into the switch service resumes and ACTIVATE completes. -/
def execUpdateResume (s : State) : Out :=
  match s.upd.cmd with
  | none => .next s
  | some c =>
    if s.fld SEC_STAT_ACTIVITY ≠ 3 ∨ s.now < s.upd.since + 800000 ∨ s.fld LH_PWR_STAT_STATE = 4 then .next s
    else
      let u := (if s.upd.committed then s else s.failUpdate urSelfCheck).upd
      let s := { s with upd := {} }.setFld SEC_STAT_ACTIVITY 0
      let s := (List.range 16).foldl (fun (s : State) t => if (s.run t).pause = 0 then s else s.setRun t { s.run t with pause := clearBits (s.run t).pause 8 }) s
      if u.committed then .next ((s.raise 0x7015 16 secSrc (s.fld SEC_SVN_ACTIVE_SVN)).complete c csOk)
      else .next (((s.setFld SEC_STAT_LAST_REASON u.fail).raise 0x6003 16 secSrc u.fail).complete c csUpdateRefused u.fail)

/-! ### The owner lock (R534) -/

/-- LOCK_UPDATES acts. -/
def State.actLock (s : State) (c : HCmd) : State :=
  let r := s.secRec
  let who := if c.mgmt then 4 else c.key - 16
  let close := c.at 0x10 1 == 1
  if !s.updateSource c then s.refuseUpdate c urPermit
  else if 1 < c.at 0x10 1 then s.complete c csBadOperand
  else if !close && r.lock && who ≠ 4 && who ≠ r.holder then s.complete c csNotOwner
  else if close = r.lock then s.complete c csOk
  else if s.lowSupply then s.complete c csLowSupply
  else
    let n := { r with lock := close, holder := if close then who else r.holder }
    ({ s with flash := s.flash.storeSec n 0 }.showSec).complete c csOk

end Sys2Proof.Machine
end

