-- ==== Sys2Proof/Machine/Host.lean ====
section
/-!
DEFINITION. Host commands (R422 to R436): rings and their sampling, the command set, completions; a tenancy's halt.
-/
namespace Sys2Proof.Machine

open Sys2Proof

/-! ### A tenancy halts (R44, R178, R319, R386, R479, R545) -/

/-- The tenancy is HALTED at once. `code`: what HALT_EVENT names. -/
def State.haltCore (s : State) (t : Nat) (clean : Bool) (code : Nat) : State :=
  let s := ((s.setFld (TN_STATE_STATE t) tnHalted).setFld (TN_CKPT_STAT_CLEAN t) (if clean then 1 else 0)).setFld (TN_STATE_HALT_EVENT t) code
  let s := (s.tnIslands t).foldl (fun (s : State) i =>
    ((List.range 8).foldl (fun (s : State) n => s.abandonCore ⟨Fin.ofNat 16 i, Fin.ofNat 8 n⟩) s).kvHalt i) s
  let s := s.dmaTenancyHalt t
  let down := (s.run t).down
  let s := s.setRun t { s.run t with halts := [], fresh := false, lower := false, await := false, pause := 0, down := 0, pend0 := false }
  let s := { s with stallNow := s.stallNow.erase t, extNow := s.extNow.erase t }
  (bitList 16 down).foldl (fun (s : State) i => s.powerDownIsland i) s

/-- SET_OP acts (R46, R430, R448): a lowering takes force now, a raise at the frame ticks to come. -/
def State.setOp (s : State) (t v : Nat) : State :=
  let s := (s.setFld (TN_FRAME_CFG_OP_REQ t) v).setRun t { s.run t with hold := 0 }
  if s.fld (TN_FRAME_CFG_OP_NOW t) ≤ v then (s.setFld (TN_FRAME_CFG_OP_NOW t) v).setFld (TN_FRAME_CFG_THROTTLED t) 0 else s

/-- A boundary command of a tenancy that does not run (R430, R432). -/
def State.boundIdle (s : State) (t : Nat) (c : HCmd) : State :=
  if c.op = opHalt then s.complete c csOk
  else if c.op = opSetOp then (s.setOp t (c.at 0x10 1)).complete c csOk
  else if s.lowSupply then s.complete c csLowSupply
  else
    let (ok, s) :=
      if c.op = opRetirePage then
        let a := c.at 0x10 8
        s.retirePage (a / 0x6000000000) (a % 0x6000000000)
      else s.retireBank (s.physOf t (c.at 0x10 1)) (c.at 0x11 1) (c.at 0x12 1) (c.at 0x13 1) (c.at 0x14 1)
    if ok then (s.calStore 11).complete c csOk else s.complete c csTableFull

/-- A halt, after which the commands that waited for a boundary act; a CHECKPOINT among them finds no committed tick. -/
def State.haltNow (s : State) (t : Nat) (clean : Bool) (code : Nat) : State :=
  let cs := s.bounds.get [] t
  cs.foldl (fun (s : State) c => if c.op = opCheckpoint then s.complete c csNotCommitted else s.boundIdle t c)
    { s.haltCore t clean code with bounds := s.bounds.erase t }

/-- A boundary command in step 4 of a frame tick (R36, R37, R397, R448). -/
def State.boundAct (s : State) (t : Nat) (committed : Bool) (c : HCmd) : State :=
  if c.op = opCheckpoint then
    if !committed || !s.running t then s.complete c csNotCommitted else s.captureBegin t c (bitOf c.flags 0)
  else if !s.running t then s.boundIdle t c
  else if c.op = opHalt then (s.haltNow t true 0).complete c csOk
  else if c.op = opSetOp then (s.setOp t (c.at 0x10 1)).complete c csOk
  else s.boundIdle t c

/-! ### Checks of a taken command (R431, R432) -/

/-- Operand bits of a field. -/
def opField (o n m : Nat) : Nat := m % 256 ^ n * 2 ^ (8 * (o - 0x10))
def ringField : Nat := opField 0x18 8 (2 ^ 52 - 1)
/-- Operand bits that a command uses. -/
def opMask (op : Nat) : Nat :=
  if op = opCreate then opField 0x10 2 0xFFFF + opField 0x12 1 0xFF + opField 0x14 4 0xFFFFFFFF + ringField + opField 0x20 8 0x8FFF8FFF8FFF8FFF
  else if op = opReshape then opField 0x10 2 0xFFFF + opField 0x14 4 0xFFFFFFFF + ringField
  else if op = opLoad then opField 0x10 1 0xFF + opField 0x11 1 0xFF + opField 0x12 1 1 + opField 0x18 8 (2 ^ 64 - 1) + opField 0x20 8 (2 ^ 64 - 1) + opField 0x28 8 (2 ^ 64 - 1)
  else if op = opSetOp then opField 0x10 1 0xFF
  else if op = opRetirePage then opField 0x10 8 (2 ^ 64 - 1)
  else if op = opRetireBank then opField 0x10 5 (2 ^ 40 - 1)
  else if op = opAtomic then opField 0x10 1 0xFF + opField 0x12 2 0xFFFF
  else if op = opAttest then opField 0x10 8 (2 ^ 64 - 1) + opField 0x18 4 0xFFFFFFFF + opField 0x20 32 (2 ^ 256 - 1)
  else if op = opStage then opField 0x10 8 (2 ^ 64 - 1) + opField 0x18 8 (2 ^ 64 - 1)
  else if op = opLock then opField 0x10 1 0xFF
  else 0

def opOnPort (op : Nat) : Bool := op == opCreate || op == opReshape || op == opRelease || op == opQuery || (decide (opAttest ≤ op) && decide (op ≤ opLock))
def opOnTen (op : Nat) : Bool :=
  (decide (opLoad ≤ op) && decide (op ≤ opSetOp)) || op == opQuery || (decide (opRetirePage ≤ op) && decide (op ≤ opAtomic))
/-- Commands that name no tenancy when they come from a port or the management path. -/
def opNoTen (op : Nat) : Bool := op == opQuery || decide (opAttest ≤ op)
def opBoundary (op : Nat) : Bool := op == opHalt || op == opCheckpoint || op == opSetOp || op == opRetirePage || op == opRetireBank

/-- States in which a command is accepted (R432). START and CHECKPOINT, and RESTORE beyond this, are checked as they act. -/
def State.stateOk (s : State) (op t : Nat) : Bool :=
  let st := s.tn t
  if op = opReshape ∨ op = opRelease ∨ op = opLoad then st == tnCreated || st == tnLoaded || st == tnHalted
  else if op = opStart then st == tnLoaded || (st == tnHalted && s.fld (TN_CKPT_STAT_CLEAN t) == 1)
  else if op = opCheckpoint then st == tnRunning || (st == tnHalted && s.fld (TN_CKPT_STAT_CLEAN t) == 1)
  else if op = opRestore then st == tnLoaded || st == tnHalted
  else if op = opHalt ∨ op = opSetOp ∨ op = opRetirePage ∨ op = opRetireBank ∨ op = opAtomic then st != tnFree
  else true

/-- Status of the first check that a command fails before it acts, 0 for none. -/
def State.cmdCheck (s : State) (c : HCmd) : Nat :=
  let tenRing := decide (c.key < 16) && !c.mgmt
  let portRing := decide (16 ≤ c.key) && !c.mgmt
  let ring := if tenRing then opOnTen c.op else if portRing then opOnPort c.op else opOnTen c.op || opOnPort c.op
  if c.bad then csRecordPoison
  else if !ring then csBadOpcode
  else if (tenRing ∧ c.ten ≠ c.key) ∨ 16 ≤ c.ten ∨ (!tenRing ∧ opNoTen c.op ∧ c.ten ≠ 0) ∨ !c.tidy ∨
      (if c.op = opCheckpoint then 2 ≤ c.flags else c.flags ≠ 0) ∨ clearBits c.ops (opMask c.op) ≠ 0 then csBadOperand
  else if portRing && c.op != opCreate && !opNoTen c.op && (s.tn c.ten == tnFree || s.fld (TN_STATE_PORT c.ten) != c.key - 16) then csNotOwner
  else if !s.stateOk c.op c.ten then csBadState
  else csOk

/-! ### Islands, layouts, links (R285, R287, R424 to R426) -/

/-- Islands and links a tenancy may be given. -/
def State.freeIsle (s : State) (i : Nat) : Bool := s.avail i && (s.tenOf i).isNone && !bitOf s.zeroing i && !bitOf s.filling i
def State.freeLinks (s : State) (t links : Nat) : Bool :=
  (bitList 32 links).all (fun k => s.fld (LK_STAT_OWNED k) == 0 || (s.tn t != tnFree && s.fld (LK_STAT_TENANCY k) == t))

/-- A layout: first GiB and level of each region. -/
abbrev Regions := List (Nat × Nat)

/-- Stack pages of each region, as many as fit in the last (R285). -/
def layoutPages (r : Regions) : List Nat :=
  let first := (List.range (r.length - 1)).map (fun k => ((r.getD (k + 1) (0, 0)).1 - (r.getD k (0, 0)).1) * 32768)
  let used := ((List.range (r.length - 1)).map (fun k => first.getD k 0 * (4096 + recordBytes (r.getD k (0, 0)).2))).foldl (· + ·) 0
  let last := (48 * gib - used) / (4096 + recordBytes (r.getD (r.length - 1) (0, 0)).2)
  first ++ [last]
def layoutOkFor (r : Regions) : Bool :=
  (r.headD (1, 0)).1 == 0 && decide (r.length ≤ 4) && r.all (fun x => decide (1 ≤ x.2) && decide (x.2 ≤ 4)) &&
  (List.range (r.length - 1)).all (fun k => decide ((r.getD k (0, 0)).1 < (r.getD (k + 1) (0, 0)).1)) &&
  decide (1 ≤ (layoutPages r).getLastD 0) && decide ((((layoutPages r).dropLast).foldl (· + ·) 0) * 4096 < 48 * gib)

/-- The present layout of an island. -/
def State.layoutOf (s : State) (i : Nat) : Regions :=
  ((List.range 4).filter (fun k => s.fld (BT_MC_REGION_VALID i k) == 1)).map (fun k => (s.fld (BT_MC_REGION_START_GIB i k), s.fld (BT_MC_REGION_LEVEL i k)))
def layoutExtent (r : Regions) : Nat := ((layoutPages r).foldl (· + ·) 0) * 32768 - gib

/-- Puts a layout in force on an island (R285, R286). -/
def State.setLayout (s : State) (i : Nat) (r : Regions) : State :=
  let ps := layoutPages r
  let sum := ps.foldl (· + ·) 0
  let recs := ((List.range r.length).map (fun k => ps.getD k 0 * recordBytes (r.getD k (0, 0)).2)).foldl (· + ·) 0
  let s := (List.range 4).foldl (fun (s : State) k =>
    let x := r.getD k (0, 2)
    ((s.setFld (BT_MC_REGION_START_GIB i k) x.1).setFld (BT_MC_REGION_LEVEL i k) x.2).setFld (BT_MC_REGION_VALID i k) (if k < r.length then 1 else 0)) s
  let s := ((s.setFld (BT_MC_LAYOUT_STACK_PAGES i) sum).setFld (BT_MC_LAYOUT_REGIONS i) r.length).setFld (BT_MC_LAYOUT_META_BASE i) ((48 * gib - recs) / 32)
  s.setFld (BT_MC_EXTENT_USABLE i) (sum * 32768)

/-- Bytes, marks and cached lines of an address range read as zero and clean. -/
def State.zeroRange (s : State) (a n : Nat) : State :=
  let out (x : Nat) : Bool := !(decide (a ≤ x) && decide (x < a + n))
  { s with mem := s.mem.filter (fun c => out c.1), poison := s.poison.filter (fun c => out c.1), damage := s.damage.filter (fun c => out c.1),
           flips := s.flips.filter (fun c => out c.1), msc := s.msc.filter (fun c => out c.1) }
def State.zeroHbm (s : State) (i : Nat) : State := s.zeroRange (hbmBase i) 0x6000000000

/-- The zero-fill of an island under a layout begins (R292). -/
def State.beginFill (s : State) (i : Nat) (r : Regions) : State :=
  let s := (s.setLayout i r).zeroHbm i
  let s := (List.range r.length).foldl (fun (s : State) k => s.setFld (BT_MC_REGION_DETECT_ONLY i k) 1) s
  let s := (List.range 8).foldl (fun (s : State) n => { s with laps := s.laps.set (i * 8 + n) { s.laps.get {} (i * 8 + n) with part := true } }) s
  { s with filling := s.filling ||| 2 ^ i }

/-- An island's memory and dies are zeroed for its next tenancy (R426). -/
def State.wipeIsland (s : State) (i : Nat) : State :=
  let s := (((s.zeroHbm i).zeroShoal i).armShoal i).zeroRange (flagBase i) 0x100000
  let s := { s.dropRegFlips i with
    cores := s.cores.filter (fun e => e.1 / 8 != i), arrays := s.arrays.filter (fun e => e.1 / 64 != i),
    vcores := s.vcores.filter (fun e => e.1 / 32 != i), meshes := s.meshes.erase i }
  (List.range 8).foldl (fun (s : State) n => s.setScState ⟨Fin.ofNat 16 i, Fin.ofNat 8 n⟩ stIdle) s

/-- The ring of a record lies in the mapped HBM of one of the islands (R427, R432). `ext`: mapped extents. -/
def ringOk (base log2 mask : Nat) (ext : Nat → Nat) : Bool :=
  match place base with
  | .hbm i o => bitOf mask i && base % 4096 == 0 && decide (4 ≤ log2) && decide (log2 ≤ 12) && decide (o + 0x1000 + 128 * 2 ^ log2 ≤ ext i)
  | _ => false

/-- A tenancy is given its islands, links and ring; the binding is the ascending one (R418). -/
def State.bindTen (s : State) (t islands links ring : Nat) : State :=
  let s := (List.range 32).foldl (fun (s : State) k =>
    if bitOf links k then (s.setFld (LK_STAT_OWNED k) 1).setFld (LK_STAT_TENANCY k) t
    else if s.fld (LK_STAT_OWNED k) = 1 ∧ s.fld (LK_STAT_TENANCY k) = t then (s.setFld (LK_STAT_OWNED k) 0).setFld (LK_STAT_TENANCY k) 0 else s) s
  let s := (s.setFld (TN_ISLANDS_ISLANDS t) islands).setFld (TN_ISLANDS_LINKS t) links
  (s.setFld (TN_RING_BASE t) (ring % 2 ^ 48)).setFld (TN_RING_LOG2 t) (ring / 2 ^ 48 % 16)

/-- Logical islands follow the ascending physical index. -/
def State.bindAscending (s : State) (t : Nat) : State :=
  let l := s.tnIslands t
  s.setFld (TN_BIND_MAP t) (((List.range l.length).map (fun j => l.getD j 0 * 16 ^ j)).foldl (· + ·) 0)

/-- A command waits for the islands of `mask`, or completes when there is none. -/
def State.awaitIsles (s : State) (c : HCmd) (mask : Nat) : State :=
  if mask = 0 then s.complete c csOk else s.setRing c.key { s.ring c.key with wait := mask }

/-! ### TENANCY_CREATE, TENANCY_RESHAPE, TENANCY_RELEASE -/

def HCmd.regions (c : HCmd) : Regions :=
  ((List.range 4).filter (fun k => bitOf (c.at (0x20 + 2 * k) 2) 15)).map (fun k => (c.at (0x20 + 2 * k) 2 % 512, c.at (0x20 + 2 * k) 2 / 512 % 8))
/-- Regions in use come first, and the others are zero. -/
def HCmd.regionsTidy (c : HCmd) : Bool :=
  bitOf (c.at 0x20 2) 15 && (List.range 4).all (fun k =>
    let v := c.at (0x20 + 2 * k) 2
    (bitOf v 15 || v == 0) && (!bitOf v 15 || k == 0 || bitOf (c.at (0x20 + 2 * (k - 1)) 2) 15))

def State.actCreate (s : State) (c : HCmd) : State :=
  let t := c.ten
  let p := c.at 0x12 1
  let mask := c.at 0x10 2
  let links := c.at 0x14 4
  let ring := c.at 0x18 8
  let r := c.regions
  let isls := bitList 16 mask
  if s.tn t ≠ tnFree ∨ !isls.all s.freeIsle ∨ !s.freeLinks t links then s.complete c csInUse
  else if 4 ≤ p ∨ (!c.mgmt ∧ p ≠ c.key - 16) ∨ mask = 0 ∨ !c.regionsTidy ∨ !layoutOkFor r ∨
      !ringOk (ring % 2 ^ 48) (ring / 2 ^ 48 % 16) mask (fun _ => layoutExtent r) then s.complete c csBadOperand
  else
    let fill := isls.filter (fun i => s.layoutOf i != r)
    let s := fill.foldl (fun (s : State) i => s.beginFill i r) s
    let s := (s.bindTen t mask links ring).bindAscending t
    let s := ((s.setFld (TN_STATE_STATE t) tnCreated).setFld (TN_STATE_PORT t) p).setFld (TN_STATE_HALT_EVENT t) 0
    let s := ((s.setFld (TN_STEP_STEP t) 0).setFld (TN_FRAME_CFG_OP_NOW t) 0).setFld (TN_FRAME_CFG_OP_REQ t) 0
    let s := (s.setFld (TN_FRAME_CFG_THROTTLED t) 0).setFld (TN_CKPT_STAT_CLEAN t) 0
    let s := (s.setFldBit (HP_TENANCIES_BOUND p) t true).setFld (TN_EVLOG_HEAD t) 0
    let s := { s with tnRings := s.tnRings.filter (fun e => e.1 / 1024 != t), rings := s.rings.erase t }.setRun t {}
    let s := isls.foldl (fun (s : State) i => s.setConsumed i 0) s
    s.awaitIsles c (ofBitList fill)

def State.actReshape (s : State) (c : HCmd) : State :=
  let t := c.ten
  let mask := c.at 0x10 2
  let links := c.at 0x14 4
  let ring := c.at 0x18 8
  let old := s.fld (TN_ISLANDS_ISLANDS t)
  let added := (bitList 16 mask).filter (fun i => !bitOf old i)
  let removed := (bitList 16 old).filter (fun i => !bitOf mask i)
  let r := s.layoutOf ((s.tnIslands t).headD 0)
  if !added.all s.freeIsle ∨ !s.freeLinks t links then s.complete c csInUse
  else if mask = 0 ∨ !ringOk (ring % 2 ^ 48) (ring / 2 ^ 48 % 16) mask (fun _ => layoutExtent r) then s.complete c csBadOperand
  else
    let s := s.dmaHostHalt t
    if s.outstanding t true then s
    else
      let moved := s.fld (TN_RING_BASE t) != ring % 2 ^ 48 || s.fld (TN_RING_LOG2 t) != ring / 2 ^ 48 % 16
      let change := !added.isEmpty || !removed.isEmpty
      let s := if change then (s.unloadImage t).setFld (TN_STATE_STATE t) tnCreated else s
      let s := if change then (s.setFld (TN_CKPT_STAT_CLEAN t) 0) else s
      let s := s.bindTen t mask links ring
      let s := if change then s.bindAscending t else s
      let s := if moved then s.setRing t { s.ring t with cons := 0, cpl := 0 } else s
      let s := added.foldl (fun (s : State) i => (s.beginFill i r).setConsumed i 0) s
      let s := removed.foldl State.writeBack s
      { s with zeroing := s.zeroing ||| ofBitList removed }.awaitIsles c (ofBitList (added ++ removed))

def State.actRelease (s : State) (c : HCmd) : State :=
  let t := c.ten
  let s := s.dmaHostHalt t
  if s.outstanding t true then s
  else
    let isls := s.fld (TN_ISLANDS_ISLANDS t)
    -- the cache writes back the released region (R280)
    let s := (bitList 16 isls).foldl State.writeBack s
    let s := (s.unloadImage t).bindTen t 0 0 0
    let s := (s.setFldBit (HP_TENANCIES_BOUND (s.fld (TN_STATE_PORT t))) t false).setFld (TN_STATE_STATE t) tnFree
    let s := (s.setFld (FB_TN_RT_BASE t) 0).setFld (FB_TN_RT_VALID t) 0
    let s := (List.range 4).foldl (fun (s : State) k =>
      (((s.setFld (FB_ACL_BASE t k) 0).setFld (FB_ACL_MASK t k) 0).setFld (FB_ACL_VALID t k) 0).setFld (FB_ACL_WRITE t k) 0) s
    let s := (s.setFld (TN_RING_SEQ_LAST_SEQ t) 0).setFld (TN_CKPT_STAT_CLEAN t) 0
    let s := { s with rings := s.rings.erase t, rtCache := s.rtCache.filter (fun e => e.1 / 65536 != t), zeroing := s.zeroing ||| isls }
    s.awaitIsles c isls

/-! ### LOAD_IMAGE, START, RESTORE, ATOMIC_STATUS, QUERY -/

/-- Physical island of a logical one that LOAD_IMAGE asks for: its MAP, or the ascending order. -/
def State.loadMap (s : State) (c : HCmd) : Nat → Nat :=
  let l := s.tnIslands c.ten
  if bitOf (c.at 0x12 1) 0 then fun j => c.at 0x28 8 / 16 ^ j % 16 else fun j => l.getD j 0

def State.loadOk (s : State) (c : HCmd) : Bool :=
  let l := s.tnIslands c.ten
  let m := c.at 0x28 8
  let ns := (List.range l.length).map (fun j => m / 16 ^ j % 16)
  let mapOk := if bitOf (c.at 0x12 1) 0 then noRepeats ns && ns.all l.contains && decide (m < 16 ^ l.length) else m == 0
  let src := c.at 0x10 1
  mapOk && (if src = 0 then c.at 0x11 1 == 0
    else src == 1 && decide (c.at 0x11 1 < l.length) &&
      decide (c.at 0x18 8 + c.at 0x20 8 ≤ s.extent ((s.islandOf c.ten (c.at 0x11 1)).getD 16)))

/-- The bytes of the image have been read, well or not: checked, and loaded or rejected (R57). -/
def State.install (s : State) (c : HCmd) (b : List Byte) (ok : Bool) : State :=
  match s.imageCheck c.ten b (ok && decide (c.at 0x20 8 ≤ 0x40000000)) (s.loadMap c) with
  | 0 => (s.loadImage c.ten b (s.loadMap c)).complete c csOk
  | r => s.complete c csImageRejected r

/-- LOAD_IMAGE acts: an image in HBM is read; one in host memory is awaited, unless its bytes are here. -/
def State.actLoad (s : State) (c : HCmd) (img : Option (List Byte × Bool)) : State :=
  if !s.loadOk c then s.complete c csBadOperand
  else if c.at 0x10 1 = 1 then
    let n := min (c.at 0x20 8) 0x40000000
    let (v, bad, s) := s.readBytes reqHost (hbmBase ((s.islandOf c.ten (c.at 0x11 1)).getD 0) + c.at 0x18 8) n
    s.install c (leBytes n v) bad.isEmpty
  else match img with
    | some (b, ok) => if b.length = min (c.at 0x20 8) 0x40000000 then s.install c b ok else s
    | none => s

/-- START is refused in this state of the tenancy and the module (R348, R411, R440, R453, R472). -/
def State.startBar (s : State) (t : Nat) : Nat :=
  if s.fld LH_CLK_STAT_HOLDOVER = 1 ∨ s.fld LH_PWR_STAT_STATE ≠ 0 ∨ !(s.tnIslands t).all (fun i => s.avail i && s.present i) ∨
      (s.fld (TN_STOP_AT_ENABLE t) = 1 ∧ s.fld (TN_STOP_AT_STOP t) ≤ s.fld (TN_STEP_STEP t)) then csBadState
  else if (s.linkMaps.get [] t).any (fun e => s.lkState e.bound == lsUp && s.fld (LK_STAT_OWNED e.bound) == 1 && s.fld (LK_STAT_TENANCY e.bound) == t &&
      !e.allows (s.fld (LK_STAT_PEER_NODE e.bound)) (s.fld (LK_STAT_PEER_LINK e.bound))) then csLinkPeer
  else csOk

/-- START acts: the weight digest begins (R407). -/
def State.actStart (s : State) (c : HCmd) : State :=
  match s.startBar c.ten with
  | 0 => (s.setFld (TN_WDIGEST_STAT_VALID c.ten) 0).digestBusy (s.digestItems c.ten rgWeight 0) true
  | r => s.complete c r

/-- RESTORE acts (R403, R404, R453). -/
def State.actRestore (s : State) (c : HCmd) : State :=
  let t := c.ten
  let done (s : State) (st r : Nat) : State := (s.setFld (TN_CKPT_STAT_LAST_STATUS t) st).complete c st r
  if !(s.tnIslands t).all (fun i => s.avail i && s.present i) then done s csBadState 0
  else if ((s.image t).ofKind rgCheckpoint).isEmpty then done s csNoRegion 0
  else
    let s := s.dmaHostHalt t
    if s.outstanding t true then s
    else
      let (f, bodies, s) := s.restoreChecks t
      match f with
      | some (k, j) => done s csRestoreFailed (k + j * 256)
      | none => done (s.restoreAll t bodies) csOk 0

/-- The command under way gives up its place: it has been handed on. -/
def State.passOnCmd (s : State) (c : HCmd) : State :=
  let r := s.ring c.key
  if r.cur = some c then s.setRing c.key { r with cur := none, wait := 0 } else s

/-- ATOMIC_STATUS acts (R365): EXPIRED for a tag not held UNKNOWN or from 15 ms on; else it waits for the answer. -/
def State.actAtomic (s : State) (c : HCmd) : State :=
  let t := c.ten
  let j := c.at 0x10 1
  if s.tnN t ≤ j then s.complete c csBadOperand
  else
    let unit := (s.islandOf t j).getD 16
    match s.freqs.find? (fun e => e.1 == c.at 0x12 2) with
    | none => s.complete c csOk 2
    | some (tag, r) =>
      if !r.unknown ∨ r.unit ≠ unit ∨ r.ten ≠ t then s.complete c csOk 2
      else if ms 15 ≤ s.now - r.first then s.astatEnd tag { r with query := r.query ++ [c] } 2 0
      else { s with freqs := s.freqs.set tag { r with query := r.query ++ [c] } }.passOnCmd c

/-- The value of a register's fields, as a number. -/
def State.regWord (s : State) (off : Nat) : Nat := (plainFields off).foldl (fun (n : Nat) f => n + s.fld f * 2 ^ f.lo) 0

def tnBlock (t : Nat) : Nat := 0x300000 + t * 0x10000
def hpBlock (p : Nat) : Nat := 0x200000 + p * 0x40000

/-- QUERY acts (R432). -/
def State.actQuery (s : State) (c : HCmd) : State :=
  if c.mgmt then s.complete c csOk s.mgmtSeq
  else if c.key < 16 then
    s.complete c csOk (s.regWord (tnBlock c.ten) + s.regWord (tnBlock c.ten + 0x100) * 2 ^ 64 + s.regWord (tnBlock c.ten + 0x108) * 2 ^ 128
      + s.regWord (tnBlock c.ten + 0x110) * 2 ^ 192)
  else s.complete c csOk (s.fld (HP_TENANCIES_BOUND (c.key - 16)) + s.fld (HP_PORT_SEQ_LAST_SEQ (c.key - 16)) * 2 ^ 64)

/-! ### Carrying out (R430) -/

/-- Operands of a boundary command in their range; a RETIRE names the tenancy's own. -/
def State.boundOk (s : State) (c : HCmd) : Bool :=
  let t := c.ten
  if c.op = opSetOp then decide (c.at 0x10 1 ≤ 4)
  else if c.op = opRetirePage then
    match place (c.at 0x10 8) with
    | .hbm i o => s.fldBit (TN_ISLANDS_ISLANDS t) i && o % 4096 == 0 && decide (o < s.fld (BT_MC_EXTENT_USABLE i))
    | _ => false
  else if c.op = opRetireBank then
    decide (c.at 0x10 1 < s.tnN t) && decide (c.at 0x11 1 < 8) && decide (c.at 0x12 1 < 32) && decide (c.at 0x13 1 < 2) && decide (c.at 0x14 1 < 64)
  else true

/-- A boundary command that passed its checks is carried out now, or handed to the next frame tick. -/
def State.actBound (s : State) (c : HCmd) : State :=
  let t := c.ten
  if !s.boundOk c then s.complete c csBadOperand
  else if c.op = opCheckpoint ∧ ((s.image t).ofKind rgCheckpoint).isEmpty then s.complete c csNoRegion
  else if s.running t then { s with bounds := s.bounds.set t (s.bounds.get [] t ++ [c]) }.passOnCmd c
  else if c.op = opCheckpoint then s.captureBegin t c false
  else s.boundIdle t c

/-- The command at the head of a queue is carried out, or carried further; `img`: an image's bytes, when they are here. -/
def State.act (s : State) (c : HCmd) (img : Option (List Byte × Bool)) : State :=
  if c.op = opCreate then s.actCreate c
  else if c.op = opReshape then s.actReshape c
  else if c.op = opRelease then s.actRelease c
  else if c.op = opLoad then s.actLoad c img
  else if c.op = opStart then s.actStart c
  else if c.op = opRestore then s.actRestore c
  else if c.op = opQuery then s.actQuery c
  else if c.op = opAtomic then s.actAtomic c
  else if c.op = opAttest then s.actAttest c
  else if c.op = opStage then s.actStage c
  else if c.op = opActivate then s.actActivate c
  else if c.op = opLock then s.actLock c
  else s.actBound c

/-- A command that begins: refused, or carried out. One that would touch a tenancy whose checkpoint is being captured waits. -/
def State.beginCmd (s : State) (c : HCmd) (img : Option (List Byte × Bool)) : State :=
  match s.cmdCheck c with
  | 0 => s.act c img
  | st => s.complete c st

/-- Commands that wait until a capture of their tenancy has ended. -/
def State.capWaits (s : State) (c : HCmd) : Bool :=
  decide (c.ten < 16) && (s.caps.any (fun e => e.1 == c.ten)) && !s.running c.ten &&
  (c.op == opReshape || c.op == opRelease || c.op == opLoad || c.op == opStart || c.op == opCheckpoint || c.op == opRestore)

/-- A waiting command tries again: one that waits for outstanding requests. Others wait for a command of their own. -/
def State.retryCmd (s : State) (c : HCmd) : State :=
  if (s.ring c.key).wait ≠ 0 then s
  else if c.op = opReshape ∨ c.op = opRelease ∨ c.op = opRestore then s.act c none
  else s

/-- The module takes and carries out commands: READY, not being switched to new firmware (R428, R531). -/
def State.takes (s : State) : Bool := s.fld LH_START_PHASE == 9 && decide (s.fld SEC_STAT_ACTIVITY < 2)
/-- Commands taken in STILL act once the module is awake (R473). -/
def State.asleep (s : State) : Bool := s.fld LH_PWR_STAT_STATE == 2 || s.fld LH_PWR_STAT_STATE == 3

/-- A queue goes on until a command waits or none is left (R430). -/
def State.ringGo (key : Nat) (img : Option (List Byte × Bool)) : Nat → State → State
  | 0, s => s
  | f + 1, s =>
    if !s.takes || s.asleep then s
    else
      match (s.ring key).cur with
      | some c =>
        let s := s.retryCmd c
        if (s.ring key).cur.isNone then State.ringGo key img f s else s
      | none =>
        match (s.ring key).q with
        | [] => s
        | c :: r =>
          if s.cmdCheck c == 0 && s.capWaits c then s
          else
            let s := (s.setRing key { s.ring key with q := r, cur := some c }).beginCmd c img
            if (s.ring key).cur.isNone then State.ringGo key img f s else s

def State.goRing (s : State) (key : Nat) (img : Option (List Byte × Bool) := none) : State := State.ringGo key img ((s.ring key).q.length + 2) s
/-- Every queue goes on. -/
def State.ringsGo (s : State) : State := (s.rings.map (·.1)).foldl (fun (s : State) k => s.goRing k) s

/-! ### The module slot tick (R26) -/

/-- MODULE_SLOT_TICK (R26): the count advances; start-up, power and repairs that fall due; the sampling; commands that wait go on. `amps`: the mean
CORE current of each island over the tick. -/
def execModuleSlotTick (amps : List (BitVec 11)) (s : State) : Out :=
  let ph := s.fld LH_START_PHASE
  if ph < 2 ∨ (ph = 15 ∧ s.fld LH_START_FAIL_REASON = 2) ∨ (ph = 15 ∧ s.fld LH_START_FAIL_REASON = 1) then .next s
  else
    let s := ({ s with now := s.now + 1 }.incFld LH_SLOT_COUNT_COUNT 1).startTick
    let s := (bitList 16 s.downNext).foldl (fun s i => s.powerDownIsland i) { s with downNext := 0 }
    let s := s.keeperOut.foldl (fun s k => s.keeperWithdraw k.1 k.2) s
    let s := { s with capNow := s.capFor, keeperOut := [] }
    let s := (List.range 16).foldl (fun s i => (s.heatTick i (amps.getD i 0).toNat).currentTick i (amps.getD i 0).toNat) s
    let s := (List.range 16).foldl (fun s t => if s.running t then s.setRun t { s.run t with ampTicks := (s.run t).ampTicks + 1 } else s) s
    let s := (List.range 32).foldl (fun s n => s.ctlTick n) s
    let s := s.stillSteps.dmaStallTick.kvStallTick.mboxSend.msixTick
    let s := ((s.forceRepairs s.idleIslands s.now).storeSelected).decideRepairs
    .next s.sample.ringsGo

/-! ### Taking commands (R428, R429, R436) -/

def State.lastSeq (s : State) (key : Nat) : Nat := if key < 16 then s.fld (TN_RING_SEQ_LAST_SEQ key) else s.fld (HP_PORT_SEQ_LAST_SEQ (key - 16))

/-- A command is taken: queued, or discarded as a duplicate. In STILL it wakes the module (R473). -/
def State.accept (s : State) (c : HCmd) : State :=
  let join (s : State) : State :=
    let r := s.ring c.key
    (s.setRing c.key { r with q := r.q ++ [c], pend := if c.mgmt then r.pend else r.pend + 1 }).wake
  if c.mgmt then
    if c.seq ≤ s.mgmtSeq then s else join { s with mgmtSeq := c.seq }
  else
    let s := if c.key < 16 then s.bump (TN_CMD_STAT_TAKEN c.key) 1 else s
    if c.bad then join s
    else if c.seq ≤ s.lastSeq c.key then (if c.key < 16 then s.bump (TN_CMD_STAT_DUPLICATES c.key) 1 else s)
    else join (if c.key < 16 then s.setFld (TN_RING_SEQ_LAST_SEQ c.key) c.seq else s.setFld (HP_PORT_SEQ_LAST_SEQ (c.key - 16)) c.seq)

/-- A 64-byte record as a command of a queue (R431). -/
def HCmd.ofRecord (key : Nat) (mgmt : Bool) (cnt v : Nat) (bad : Bool) : HCmd :=
  { key := key, mgmt := mgmt, cnt := cnt, op := bits v 0 8, flags := bits v 8 8, ten := bits v 16 8, seq := bits v 64 64, ops := bits v 128 384,
    bad := bad, tidy := bits v 24 40 == 0 }

/-- Takes records in ascending count, while a completion slot is free; `fetch` reads the record of a count. -/
def State.takeRecs (key cplc : Nat) (fetch : State → Nat → Option (Nat × Bool) × State) : Nat → State → State
  | 0, s => s
  | f + 1, s =>
    let r := s.ring key
    if s.ringSlots key ≤ (r.cpl + r.pend + 2 ^ 64 - cplc) % 2 ^ 64 then s
    else
      match fetch s r.cons with
      | (none, s) => s
      | (some (v, bad), s) =>
        let s := s.setRing key { s.ring key with cons := (r.cons + 1) % 2 ^ 64 }
        State.takeRecs key cplc fetch f (s.accept (.ofRecord key false r.cons v bad))

/-- Management commands that wait for this queue's sampling join it (R436). -/
def State.joinMgmt (s : State) (key : Nat) : State :=
  let mine := s.mgmtQ.filter (fun c => c.key == key)
  mine.foldl State.accept { s with mgmtQ := s.mgmtQ.filter (fun c => c.key != key) }

/-- A sampling (R428): the difference is valid, or nothing is taken and the fault is raised once. -/
def State.sampleRing (s : State) (key prod cplc : Nat) (fetch : State → Nat → Option (Nat × Bool) × State) : State :=
  let r := s.ring key
  let diff := (prod + 2 ^ 64 - r.cons) % 2 ^ 64
  if s.ringSlots key < diff then
    if r.fault then s
    else (s.setRing key { r with fault := true }).raise 0x6001 16 (if key < 16 then srcIx 0 0 else srcIx 5 (key - 16)) (diff % 2 ^ 32) (if key < 16 then [key] else [])
  else
    let s := State.takeRecs key cplc fetch diff (s.setRing key { r with fault := false })
    s.ringPut key 0x10 8 (s.ring key).cons

/-- The tenancy ring is read from HBM; a header that cannot be read skips the sampling. -/
def State.sampleTen (s : State) (t : Nat) : State :=
  let s :=
    if s.tn t = tnFree then s
    else
      let a := s.fld (TN_RING_BASE t)
      let (v, bad, s) := s.physRead a 16 reqHost
      if bad then s
      else s.sampleRing t (v % 2 ^ 64) (v / 2 ^ 64) (fun (s : State) n =>
        let (x, b, s) := s.physRead (a + 0x1000 + 64 * (n % s.ringSlots t)) 64 reqHost
        (some (x, b), s))
  (s.joinMgmt t).goRing t

/-- A module slot tick at which LH_SLOT_COUNT is a multiple of 64. -/
def State.ringTick (s : State) (key : Nat) : Bool := s.fld LH_SLOT_COUNT_COUNT % 64 == 0 && (s.ring key).last != some s.now
def State.ticked (s : State) (key : Nat) : State := s.setRing key { s.ring key with last := some s.now }

/-- IDLE_RING_SAMPLE (R428, R436): the 32 µs sampling of a tenancy ring that does not run; `k` 16 is that of the management
path's own commands. -/
def execIdleRingSample (k : Fin 17) (s : State) : Out :=
  let key := if k = 16 then 20 else k.val
  if !s.takes ∨ !s.ringTick key ∨ (key < 16 ∧ s.running key) then .next s
  else if key = 20 then .next ((((s.ticked 20)).joinMgmt 20).goRing 20)
  else .next ((s.ticked key).sampleTen key)

/-- PORT_RING_SAMPLE (R428): what the port ring in host memory holds: CMD_PROD, CPL_CONS, and the records from CMD_CONS on,
each with whether it was read uncorrectable or poisoned. -/
def execPortRingSample (p : Fin 4) (prod cplCons : BitVec 64) (records : List (BitVec 512 × Bool)) (s : State) : Out :=
  let key := 16 + p.val
  if !s.takes ∨ s.fld (HP_PORT_RING_ENABLE p) = 0 ∨ !s.ringTick key then .next s
  else
    let first := (s.ring key).cons
    .next (((s.ticked key).sampleRing key prod.toNat cplCons.toNat (fun (s : State) n =>
      ((records[(n + 2 ^ 64 - first) % 2 ^ 64]?).map (fun x => (x.1.toNat, x.2)), s))).goRing key)

/-- Queue of a management command (R436): its tenancy's, or the management path's own. -/
def mgmtKey (op ten : Nat) : Nat := if opOnTen op ∧ op ≠ opQuery ∧ ten < 16 then ten else 20

/-- MGMT_COMMAND (R435, R436): a record over the management path joins the next sampling. -/
def execMgmtCommand (record : BitVec 512) (s : State) : Out :=
  let v := record.toNat
  let c := HCmd.ofRecord (mgmtKey (bits v 0 8) (bits v 16 8)) true s.mgmtCnt v false
  .next { s with mgmtQ := s.mgmtQ ++ [c], mgmtCnt := s.mgmtCnt + 1 }

/-! ### The commands themselves, as they are taken -/

/-- A command with this opcode is taken from `src`, and its queue goes on. -/
def hostRow (op : Nat) (src : CmdSrc) (seq : BitVec 64) (ten : Fin 16) (flags : BitVec 8) (ops : BitVec 384)
    (img : Option (List Byte × Bool)) (s : State) : State :=
  let (key, mgmt) : Nat × Bool := match src with
    | .ten t => (t.val, false)
    | .port p => (16 + p.val, false)
    | .mgmt => (mgmtKey op ten, true)
  let open_ := if mgmt then true else if key < 16 then s.tn key != tnFree else s.fld (HP_PORT_RING_ENABLE (key - 16)) == 1
  let c : HCmd := { key := key, mgmt := mgmt, cnt := if mgmt then s.mgmtCnt else (s.ring key).cons, op := op, flags := flags.toNat, ten := ten,
                    seq := seq.toNat, ops := ops.toNat }
  if !s.takes || !open_ then s
  else if mgmt then ({ s with mgmtCnt := s.mgmtCnt + 1 }.accept c).goRing key img
  else
    let s := s.setRing key { s.ring key with cons := (c.cnt + 1) % 2 ^ 64 }
    ((s.accept c).ringPut key 0x10 8 (s.ring key).cons).goRing key img

/-- TENANCY_CREATE (R424). -/
def execTenancyCreate (src : CmdSrc) (seq : BitVec 64) (ten : Fin 16) (flags : BitVec 8) (ops : BitVec 384) (s : State) : Out :=
  .next (hostRow opCreate src seq ten flags ops none s)
/-- TENANCY_RESHAPE (R425). -/
def execTenancyReshape (src : CmdSrc) (seq : BitVec 64) (ten : Fin 16) (flags : BitVec 8) (ops : BitVec 384) (s : State) : Out :=
  .next (hostRow opReshape src seq ten flags ops none s)
/-- TENANCY_RELEASE (R425, R426). -/
def execTenancyRelease (src : CmdSrc) (seq : BitVec 64) (ten : Fin 16) (flags : BitVec 8) (ops : BitVec 384) (s : State) : Out :=
  .next (hostRow opRelease src seq ten flags ops none s)
/-- LOAD_IMAGE (R57): the bytes read through the port for the command under way, or for this one; `ok`: all were read well. -/
def execLoadImage (src : CmdSrc) (seq : BitVec 64) (ten : Fin 16) (flags : BitVec 8) (ops : BitVec 384) (image : List Byte) (ok : Bool) (s : State) : Out :=
  let key := match src with | .ten t => t.val | .port p => 16 + p.val | .mgmt => ten.val
  match (s.ring key).cur with
  | some c =>
    if c.op = opLoad ∧ c.seq = seq.toNat ∧ s.takes ∧ !s.asleep then .next ((s.actLoad c (some (image, ok))).goRing key)
    else .next (hostRow opLoad src seq ten flags ops (some (image, ok)) s)
  | none => .next (hostRow opLoad src seq ten flags ops (some (image, ok)) s)
/-- START (R407). -/
def execStart (src : CmdSrc) (seq : BitVec 64) (ten : Fin 16) (flags : BitVec 8) (ops : BitVec 384) (s : State) : Out :=
  .next (hostRow opStart src seq ten flags ops none s)
/-- HALT (R35). -/
def execHalt (src : CmdSrc) (seq : BitVec 64) (ten : Fin 16) (flags : BitVec 8) (ops : BitVec 384) (s : State) : Out :=
  .next (hostRow opHalt src seq ten flags ops none s)
/-- CHECKPOINT (R397). -/
def execCheckpoint (src : CmdSrc) (seq : BitVec 64) (ten : Fin 16) (flags : BitVec 8) (ops : BitVec 384) (s : State) : Out :=
  .next (hostRow opCheckpoint src seq ten flags ops none s)
/-- RESTORE (R403). -/
def execRestore (src : CmdSrc) (seq : BitVec 64) (ten : Fin 16) (flags : BitVec 8) (ops : BitVec 384) (s : State) : Out :=
  .next (hostRow opRestore src seq ten flags ops none s)
/-- SET_OP (R46). -/
def execSetOp (src : CmdSrc) (seq : BitVec 64) (ten : Fin 16) (flags : BitVec 8) (ops : BitVec 384) (s : State) : Out :=
  .next (hostRow opSetOp src seq ten flags ops none s)
/-- QUERY (R432). -/
def execQuery (src : CmdSrc) (seq : BitVec 64) (ten : Fin 16) (flags : BitVec 8) (ops : BitVec 384) (s : State) : Out :=
  .next (hostRow opQuery src seq ten flags ops none s)
/-- RETIRE_PAGE (R300). -/
def execRetirePage (src : CmdSrc) (seq : BitVec 64) (ten : Fin 16) (flags : BitVec 8) (ops : BitVec 384) (s : State) : Out :=
  .next (hostRow opRetirePage src seq ten flags ops none s)
/-- RETIRE_BANK (R300). -/
def execRetireBank (src : CmdSrc) (seq : BitVec 64) (ten : Fin 16) (flags : BitVec 8) (ops : BitVec 384) (s : State) : Out :=
  .next (hostRow opRetireBank src seq ten flags ops none s)
/-- ATOMIC_STATUS (R365). -/
def execAtomicStatus (src : CmdSrc) (seq : BitVec 64) (ten : Fin 16) (flags : BitVec 8) (ops : BitVec 384) (s : State) : Out :=
  .next (hostRow opAtomic src seq ten flags ops none s)
/-- ATTEST (R526). -/
def execAttest (src : CmdSrc) (seq : BitVec 64) (ten : Fin 16) (flags : BitVec 8) (ops : BitVec 384) (s : State) : Out :=
  .next (hostRow opAttest src seq ten flags ops none s)
/-- STAGE_UPDATE (R529). -/
def execStageUpdate (src : CmdSrc) (seq : BitVec 64) (ten : Fin 16) (flags : BitVec 8) (ops : BitVec 384) (s : State) : Out :=
  .next (hostRow opStage src seq ten flags ops none s)
/-- ACTIVATE (R531). -/
def execActivate (src : CmdSrc) (seq : BitVec 64) (ten : Fin 16) (flags : BitVec 8) (ops : BitVec 384) (s : State) : Out :=
  .next (hostRow opActivate src seq ten flags ops none s)
/-- LOCK_UPDATES (R534). -/
def execLockUpdates (src : CmdSrc) (seq : BitVec 64) (ten : Fin 16) (flags : BitVec 8) (ops : BitVec 384) (s : State) : Out :=
  .next (hostRow opLock src seq ten flags ops none s)

/-! ### What ends a command that waits -/

/-- Island i's fill or zeroing has ended: the command that waits for it last completes. -/
def State.isleDone (s : State) (i : Nat) : State :=
  s.rings.foldl (fun (s : State) e =>
    let r := s.ring e.1
    match r.cur with
    | some c =>
      if !bitOf r.wait i then s
      else
        let w := clearBits r.wait (2 ^ i)
        if w = 0 then (s.complete c csOk).goRing e.1 else s.setRing e.1 { r with wait := w }
    | none => s) s

/-- ZERO_FILL_DONE (R292, R424). -/
def execZeroFillDone (i : Fin 16) (s : State) : Out :=
  if !bitOf s.filling i then .next s
  else
    let s := (List.range 4).foldl (fun (s : State) k => s.setFld (BT_MC_REGION_DETECT_ONLY i k) 0) s
    .next ({ s with filling := clearBits s.filling (2 ^ i.val) }.isleDone i)

/-- ISLAND_ZEROED (R426). -/
def execIslandZeroed (i : Fin 16) (s : State) : Out :=
  if !bitOf s.zeroing i then .next s else .next ({ s.wipeIsland i with zeroing := clearBits s.zeroing (2 ^ i.val) }.isleDone i)

/-- WEIGHT_DIGEST_DONE (R27, R407): START completes, and the first frame tick falls at the next module slot tick. -/
def execWeightDigestDone (t : Fin 16) (s : State) : Out :=
  match (s.ring t).cur with
  | none => .next s
  | some c =>
    if c.op ≠ opStart then .next s
    else
      let items := s.digestItems t rgWeight 0
      let (d, bad, s) := (s.digestBusy items false).digestList items
      let s := (s.setDigest (TN_WDIGEST_BYTES t) d).setFld (TN_WDIGEST_STAT_VALID t) 1
      let s := (s.setFld (TN_WDIGEST_STAT_POISONED t) (if bad then 1 else 0)).setFld (TN_STATE_STATE t) tnRunning
      let s := (s.setFld (TN_CKPT_STAT_CLEAN t) 0).setRun t { fresh := true, hold := (s.run t).hold, degraded := (s.run t).degraded }
      .next ((s.complete c csOk).goRing t)

/-- CAPTURE_END (R398, R400, R402): requests and channels are quiet; the parts, BODY_DIGEST and VALID are written, and
CHECKPOINT completes. A running tenancy goes on at its next slot tick, or halts clean. -/
def execCaptureEnd (t : Fin 16) (s : State) : Out :=
  match s.caps.find? (fun e => e.1 == t.val) with
  | none => .next s
  | some (_, k) =>
    if !s.quiesced t then .next s
    else
      let (all, poison, s) := (List.range (s.tnN t)).foldl (fun (r : Bool × Bool × State) j =>
        let i := r.2.2.physOf t j
        match r.2.2.ckBase t j with
        | some a =>
          if r.2.2.avail i && r.2.2.present i then
            let (p, z) := r.2.2.captureIsland t j i a
            (r.1, r.2.1 || p, z)
          else (false, r.2)
        | none => (false, r.2)) (true, false, s)
      let st := if !all then csNotCommitted else if poison then csPoison else csOk
      let pause := if s.running t then min ((s.run t).pauseSlots + 1) 0xFFFF else (s.run t).pauseSlots
      let s := (s.captureRelease t).setFld (TN_CKPT_STAT_BUSY t) 0
      let s := (s.setFld (TN_CKPT_STAT_LAST_STATUS t) st).setFld (TN_CKPT_STAT_LAST_PAUSE t) pause
      let s := if all then (s.setFld (TN_CKPT_STEP_STEP t) (s.fld (TN_STEP_STEP t))).bump (TN_CKPT_STAT_CHECKPOINTS t) 1 else s
      let s := s.setRun t { s.run t with pause := clearBits (s.run t).pause 2 }
      let s := s.complete k.cmd st (s.ckMark t + pause * 2 ^ 32)
      .next ((if k.hold ∧ s.running t then s.haltNow t true 0 else s).goRing k.cmd.key)

end Sys2Proof.Machine
end

