-- ==== Sys2Proof/Machine/Frames.lean ====
section
/-!
DEFINITION. Slots and frames (R25 to R48): the tenancy slot tick, stalls and stretches, the frame tick and its seven steps,
the operating point (R45 to R48, R448, R484), run records (R408 to R411).
-/
namespace Sys2Proof.Machine

open Sys2Proof

/-! ### The operating point (R45, R46) -/

/-- A throttle in force at a tick is noted (R394). -/
def State.noteThrottle (s : State) (t : Nat) : State :=
  if s.fld (TN_FRAME_CFG_THROTTLED t) = 1 then (s.setFld (TN_DET_THROTTLED t) 1).setRun t { s.run t with throttled := true } else s

/-- A lowering that has been called for takes force (R46); answers whether one did. -/
def State.lowerNow (s : State) (t : Nat) : Bool × State :=
  let r := s.run t
  let op := s.fld (TN_FRAME_CFG_OP_NOW t)
  if !r.lower then (false, s.noteThrottle t)
  else
    let s := s.setRun t { r with lower := false }
    if op < 4 then
      let s := s.setFld (TN_FRAME_CFG_OP_NOW t) (op + 1)
      (true, (if s.fld (TN_FRAME_CFG_OP_REQ t) < op + 1 then s.setFld (TN_FRAME_CFG_THROTTLED t) 1 else s).noteThrottle t)
    else (true, s.noteThrottle t)

/-- The array clock at an operating point, in units of 100 MHz (R25). -/
def opClock (op : Nat) : Nat := 16 - 2 * op

/-- The current of every island leaves room for one operating point more (R484). -/
def State.roomToRaise (s : State) (t op : Nat) : Bool :=
  let r := s.run t
  (s.tnIslands t).all (fun i => !s.sourceActive i &&
    decide (100 * r.amps.get 0 i * opClock (op - 1) ≤ 95 * s.fld (BT_TH_ILIM_LIMIT i) * r.ampTicks * opClock op))

/-- One operating point is raised at a frame tick (R46, R448, R484), unless a throttle lowers it there. At OP0 off a module
slot tick step 6 is deferred (R48). -/
def State.raiseOp (s : State) (t : Nat) (lowered aligned : Bool) : State :=
  let op := s.fld (TN_FRAME_CFG_OP_NOW t)
  let req := s.fld (TN_FRAME_CFG_OP_REQ t)
  if lowered || decide (op ≤ req) || (s.run t).hold != 0 || !s.roomToRaise t op then s
  else
    let s := s.setFld (TN_FRAME_CFG_OP_NOW t) (op - 1)
    let s := if op - 1 = req then s.setFld (TN_FRAME_CFG_THROTTLED t) 0 else s
    if op - 1 = 0 ∧ !aligned ∧ s.running t then s.setRun t { s.run t with pause := (s.run t).pause ||| 1 } else s

/-! ### Legs at a tick (R221, R222, R228, R229) -/

/-- Legs that have a slot in plan slot n. -/
def Plan.legsIn (p : Plan) (n : Nat) : List Nat :=
  (List.range p.legs.length).filter (fun l => let e := p.leg l; decide (e.slot0 ≤ n) && decide (n < e.slot0 + e.slots))

/-- A leg's slot k ends: segments that have not come fail; those of absent lanes wait for an extension slot, until which the sender keeps the
slot's bytes. -/
def State.endLegSlot (s : State) (t l k : Nat) : State :=
  let p := s.plan t
  let e := p.leg l
  let snd := s.physOf t e.snd
  let rcv := s.physOf t e.rcv
  let s := (List.range e.lanes).foldl (fun (s : State) u =>
    let r := s.leg t l
    let plane := e.plane0 + u / 16
    if r.dark || !s.present rcv then s
    else if s.lanePresent snd plane (u % 16) && s.lanePresent rcv plane (u % 16) then
      if r.failed.any (fun f => f.1 == segKey k u) then s else s.failSegment t l k u
    else s.setLeg t l { r with deferred := r.deferred ++ [segKey k u] }) s
  let r := s.leg t l
  s.setLeg t l { r with served := k + 1, tx := if r.deferred.any (fun d => d / 1024 == k) then r.tx else r.tx.erase k, lastTick := if k + 1 = e.slots then some ((s.run t).slots + 1) else r.lastTick }

/-- Plan slot n of the straits ends. Answers whether it carried a connection of reduced width (R229). -/
def State.endStraitSlot (s : State) (t n : Nat) : Bool × State :=
  let p := s.plan t
  let ls := p.legsIn n
  let reduced := ls.any (fun l => let e := p.leg l; (List.range e.planes).any (fun j =>
    decide ((s.width (s.physOf t e.snd) (s.physOf t e.rcv) (e.plane0 + j)).length < 16)))
  (reduced, ls.foldl (fun (s : State) l => s.endLegSlot t l (n - (p.leg l).slot0)) s)

/-- An extension slot ends: what was deferred and has not come fails. -/
def State.endExtension (s : State) (t : Nat) : State :=
  (List.range (s.plan t).legs.length).foldl (fun (s : State) l =>
    let d := (s.leg t l).deferred
    if d.isEmpty then s
    else
      let s := d.foldl (fun (s : State) k => s.failSegment t l (k / 1024) (k % 1024)) s
      s.setLeg t l { s.leg t l with deferred := [], tx := (s.leg t l).tx.filter (fun x => decide ((s.leg t l).served ≤ x.1)) }) s

/-- Base tiles that have segments to send in an extension slot. -/
def State.extSenders (s : State) (t : Nat) : List Nat :=
  let p := s.plan t
  (((List.range p.legs.length).filter (fun l => !(s.leg t l).deferred.isEmpty)).map (fun l => s.physOf t (p.leg l).snd)).eraseDups

/-- Base tiles at which a leg of plan slot n is not ready (R221). -/
def State.notReady (s : State) (t n : Nat) : List Nat :=
  let p := s.plan t
  ((p.legsIn n).flatMap (fun l =>
    let e := p.leg l
    let x := p.xferOf l
    let snd := s.physOf t e.snd
    let a := if s.present snd && decide ((s.leg t l).filled ≤ n - e.slot0) then [snd] else []
    let rs := ((p.xfer x).legs.map (fun g => (p.leg g).rcv)).eraseDups
    a ++ (rs.filter (fun j => s.present (s.physOf t j) && (!((s.xrun t x).recv.any (fun q => q.1 == j)) || decide (rxBuffer < p.slotInto n j)))).map
      (s.physOf t))).eraseDups

/-- The readiness test of the legs of plan slot n: whether it asks for a stall slot. -/
def State.readyTest (s : State) (t n : Nat) : Bool × State :=
  let is := s.notReady t n
  (!is.isEmpty, is.foldl (fun (s : State) i => s.bump (BT_ST_STALL_READY_STALLS i) 1) s)

/-- Window k of plan slot n or earlier is in progress at the slot's tick: held cycles keep t short of the slot's end, and of the
window's (R201). -/
def Mesh.inProgress (m : Mesh) (n k : Nat) : Bool :=
  m.done.get false k && decide (0 < m.lag) && decide ((((n + 1) * 800 : Nat) : Int) < ((winAt m k).start : Int) + (winAt m k).len + m.lag)

/-- The mesh test at the end of plan slot n (R201): whether an island asks for a stall slot. -/
def State.meshTest (s : State) (t n : Nat) : Bool × State :=
  (s.tnIslands t).foldl (fun (r : Bool × State) i =>
    let m := r.2.mesh i
    if !r.2.avail i || !r.2.present i then r
    else if (List.range m.wins.length).any (fun k => decide ((winAt m k).start < (n + 1) * 800) && (!m.done.get false k || m.inProgress n k)) then
      (true, (r.2.setMesh i { m with lag := m.lag - 800 }).bump (IS_MESH_STAT_STALL_SLOTS i) 1)
    else (r.1, r.2.setMesh i { m with t := (n + 1) * 800, lag := 0 })) (false, s)

/-! ### A frame starts (R36 step 6, R196, R199, R304, R408) -/

/-- A core with a program section starts it (R36). -/
def State.startCore (s : State) (c : CoreId) : State :=
  let x := s.core c
  if !x.prog ∨ !s.avail c.isl ∨ !s.present c.isl then s else (s.setCore c { x with pc := 0, wait := .none }).setScState c stRunning

/-- The units and the schedule of an island at the start of a frame: no window taken, no weights held. -/
def State.startUnits (s : State) (i : Nat) : State :=
  let s := (List.range 64).foldl (fun (s : State) j =>
    let x := s.arr i j
    if x.buf0.isNone ∧ x.buf1.isNone ∧ x.iss.wpos = 0 then s
    else s.setArr i j { x with buf0 := none, buf1 := none, iss := { x.iss with wpos := 0 } }) s
  let s := (List.range 32).foldl (fun (s : State) j => let x := s.vc i j; if x.iss.wpos = 0 then s else s.setVc i j { x with iss := { x.iss with wpos := 0 } }) s
  let s := s.setMesh i { s.mesh i with t := 0, done := [], lag := 0, shared := [] }
  (List.range 8).foldl (fun (s : State) n => s.startCore ⟨Fin.ofNat 16 i, Fin.ofNat 8 n⟩) s

/-- BT_SU_STAT.BUF_PEAK follows the reductions open in plan slot n. -/
def State.bufPeak (s : State) (t n : Nat) : State :=
  (List.range (s.tnN t)).foldl (fun (s : State) j =>
    let i := s.physOf t j
    let k := (s.suHeld t j n + 1023) / 1024
    if s.fld (BT_SU_STAT_BUF_PEAK i) < k then s.setFld (BT_SU_STAT_BUF_PEAK i) k else s) s

/-- A tenancy slot begins: nothing has been received in it yet (R212). -/
def State.newSlot (s : State) (t : Nat) : State := { s with segRx := s.segRx.filter (fun k => !s.fldBit (TN_ISLANDS_ISLANDS t) (k / 1088)) }

/-- Plan slot n begins: WAIT SLOT (R315), the reduction buffers. -/
def State.beginSlot (s : State) (t n : Nat) : State := ((s.newSlot t).dmaTick t (waitSlot n)).bufPeak t n

/-- A slot counts against the overrun allowance (R42 to R44): the first raises EV_FRAME_STRETCH, one too many halts. -/
def State.countSlot (s : State) (t : Nat) (ext : Bool) : State :=
  let n := (s.run t).counted + 1
  let s := s.setRun t { s.run t with counted := n }
  if s.fld (TN_FRAME_CFG_OVERRUN_ALLOW t) < n then (s.raise 0x5002 16 (srcIx 0 0) n [t]).haltNow t false 0x5002
  else
    let s := (if n = 1 then s.raise 0x5001 16 (srcIx 0 0) 0 [t] else s).newSlot t
    { s with stallNow := s.stallNow.set t true, extNow := if ext then s.extNow.set t true else s.extNow.erase t }

/-- The frame programs start; the legs of plan slot 0 are tested (R221). -/
def State.startFrame (s : State) (t : Nat) : State :=
  let fresh := (s.run t).fresh
  let s := { s with legs := s.legs.filter (fun e => e.1 / 16384 != t), xruns := s.xruns.filter (fun e => e.1 / 4096 != t),
                    stallNow := s.stallNow.erase t, extNow := s.extNow.erase t }
  let s := s.setRun t { s.run t with
    fresh := false, await := false, counted := 0, slots := 0, throttled := s.fld (TN_FRAME_CFG_THROTTLED t) == 1, input := none, amps := [],
    ampTicks := 0, pend0 := false, seeds := (s.progCores t).map (fun c => ((s.core c).cwGet cwSeed).toNat) }
  let s := (s.tnIslands t).foldl (fun (s : State) i => s.startUnits i) s
  let s := if fresh then s.dmaFrameStart t else s
  let s := s.digestBusy (s.digestItems t rgInput (s.fld (TN_STEP_STEP t))) true
  let (stall, s) := s.readyTest t 0
  if stall then (s.setRun t { s.run t with pend0 := true }).countSlot t false else s.beginSlot t 0

/-! ### The frame tick (R35, R36) -/

/-- Halts that act at a tick: whether they let the frame commit, and the event that HALT_EVENT names (R35, R545). -/
def haltsClean (l : List PHalt) : Bool := l.all (fun h => h.kind == hkClean)
def haltsCode (l : List PHalt) : Nat := ((l.find? (fun h => h.kind != hkClean)).orElse (fun _ => l.head?)).elim 0 (·.code)

/-- The count of the frame that reached the tick (R43, R412). -/
def State.stretchStats (s : State) (t : Nat) : State :=
  let n := (s.run t).counted
  let s := (s.setFld (TN_FRAME_STAT_LAST_STRETCH t) n).setFld (TN_FRAME_STAT_MAX_STRETCH t) (max n (s.fld (TN_FRAME_STAT_MAX_STRETCH t)))
  if n = 0 then s else (s.bump (TN_FRAME_STAT_STRETCHED_FRAMES t) 1).setFld (TN_DET_STRETCHED t) 1

/-- Step 3 of R36: the step counter, equal time (R394), the run record (R409), WAIT FRAME, bond health (R187). `op`: the
operating point at the frame's end. -/
def State.commitFrame (s : State) (t op : Nat) : State :=
  let r := s.run t
  let step := s.fld (TN_STEP_STEP t)
  let equal := (s.image t).timeDet && r.counted == 0 && !r.throttled && !r.degraded
  let s := s.setFld (TN_STEP_STEP t) (step + 1)
  let s := if equal then s else s.bump (TN_DET_FRAMES_UNEQUAL t) 1
  let none_ := (s.digestItems t rgInput 0).isEmpty
  let rec_ : RunRec := {
    step := step, op := op, tick := s.fld LH_SLOT_COUNT_COUNT, slots := r.slots, seeds := r.seeds,
    flags := (if s.fld (TN_WDIGEST_STAT_POISONED t) = 1 then 2 else 0) + (if none_ then 4 else 0) + (if equal then 8 else 0),
    digest := if none_ then some (0, false) else r.input }
  let s := if s.fld (TN_RUNREC_CFG_ENABLE t) = 1 ∧ s.recSlots t ≠ 0 then { s with recs := s.recs.set t (s.recs.get [] t ++ [rec_]) }.runrecGo t else s
  let s := (s.dmaFrame t).setRun t { (s.dmaFrame t).run t with hold := r.hold - 1 }
  s.bondHeal (s.fld (TN_ISLANDS_ISLANDS t))

/-- Step 4 of R36: a CHECKPOINT is captured first; a HALT beside it takes effect when the capture ends (R397, R398). -/
def State.boundStep (s : State) (t : Nat) (committed : Bool) : State :=
  let cs := s.bounds.get [] t
  let s := { s with bounds := s.bounds.erase t }
  let ck := cs.filter (fun c => c.op == opCheckpoint)
  let rest := cs.filter (fun c => c.op != opCheckpoint)
  let keep (s : State) (c : HCmd) : State := { s with bounds := s.bounds.set t (s.bounds.get [] t ++ [c]) }
  let s := match ck with
    | [] => s
    | c :: more => more.foldl keep (s.boundAct t committed c)
  rest.foldl (fun (s : State) c =>
    if c.op = opHalt ∧ s.running t then
      match s.caps.find? (fun e => e.1 == t) with
      | some (_, k) => keep { s with caps := s.caps.set t { k with hold := true } } c
      | none => s.boundAct t committed c
    else s.boundAct t committed c) s

/-- Step 5 of R36: repairs (R493 stores their selections), bias trims (R460), key-value configuration, the raise. -/
def State.forceStep (s : State) (t : Nat) (lowered aligned : Bool) : State :=
  let s := ((s.forceRepairs (s.fld (TN_ISLANDS_ISLANDS t)) (s.now + 1)).storeSelected.forceTrims t).noteDegraded t
  let s := (s.tnIslands t).foldl (fun (s : State) i => s.kvForce i) s
  s.raiseOp t lowered aligned

/-- Step 6 of R36: the counters, and the start unless a pause defers it. -/
def State.startStep (s : State) (t : Nat) (committed : Bool) : State :=
  let s := ((s.setFld (TN_SLOT_FRAME_TICK_AT t) (s.fld LH_SLOT_COUNT_COUNT)).setFld (TN_SLOT_ELAPSED t) 0).setFld (TN_SLOT_PLAN_SLOT t) 0
  let r := s.run t
  let act := if s.fld SEC_STAT_ACTIVITY = 2 ∧ committed then 8 else 0
  let blk := if s.recStuck t then 4 else 0
  let p := r.pause ||| act ||| blk
  let s := s.setRun t { r with await := true, pause := p, pauseSlots := 0 }
  if p = 0 then s.startFrame t else s.setFld (TN_DET_PAUSED t) 1

/-- Steps 5 to 7 of R36. -/
def State.frameTail (s : State) (t : Nat) (committed aligned lowered : Bool) : State :=
  let s := s.forceStep t lowered aligned
  let s := if s.running t then s.startStep t committed else s
  if s.takes then s.sampleTen t else s

/-- A halt at a frame tick, for which the frame does not commit (R35, R36): the commands that waited for the tick act, then steps 5
and 7. -/
def State.haltTick (s : State) (t code : Nat) (clean aligned lowered : Bool) : State :=
  (s.haltNow t clean code).frameTail t false aligned lowered

/-- Steps 4 to 7 of R36, after the commit decision. -/
def State.frameSteps (s : State) (t : Nat) (committed aligned lowered : Bool) : State :=
  let hs := (s.run t).halts
  let s := s.setRun t { s.run t with halts := [] }
  let s := s.boundStep t committed
  let s :=
    if s.running t ∧ committed ∧ s.fld (TN_STOP_AT_ENABLE t) = 1 ∧ s.fld (TN_STOP_AT_STOP t) ≤ s.fld (TN_STEP_STEP t) then
      (s.setFld (TN_STOP_AT_ENABLE t) 0).haltNow t true 0
    else s
  let s := if s.running t && !hs.isEmpty then s.haltNow t true (haltsCode hs) else s
  s.frameTail t committed aligned lowered

/-- A frame tick of tenancy t (R36). `aligned`: it falls on a module slot tick. -/
def State.frameTick (s : State) (t : Nat) (aligned : Bool) : State :=
  let r := s.run t
  let op := s.fld (TN_FRAME_CFG_OP_NOW t)
  let (lowered, s1) := s.lowerNow t
  if r.fresh then
    if r.halts.isEmpty then s1.frameSteps t false aligned lowered
    else s1.haltTick t (haltsCode r.halts) (haltsClean r.halts) aligned lowered
  else
    let st (s : State) : State := s.stretchStats t
    if !haltsClean r.halts then (st s1).haltTick t (haltsCode r.halts) false aligned lowered
    else if s.fld (TN_STEP_STEP t) = 2 ^ 48 - 1 then ((st s1).raise 0x5007 16 (srcIx 0 0) 0 [t]).haltTick t 0x5007 false aligned lowered
    else
      let (lowered, s) := ((st s).commitFrame t op).lowerNow t
      s.frameSteps t true aligned lowered

/-! ### The tenancy slot tick (R30, R34, R40 to R45, R50, R201, R221) -/

/-- Every program core of the tenancy has retired FEND, or its island is absent (R33, R452). -/
def State.allFend (s : State) (t : Nat) : Bool :=
  (s.progCores t).all (fun c => !s.avail c.isl || !s.present c.isl || s.scState c == stFend)

/-- A tick within a boundary pause: halts act (R50), the pause is counted, and the frame starts when nothing defers it. -/
def State.pauseTick (s : State) (t : Nat) : State :=
  let r := s.run t
  if !r.halts.isEmpty then s.haltNow t (haltsClean r.halts) (haltsCode r.halts)
  else
    let s := (s.lowerNow t).2
    let n := (s.run t).pauseSlots + 1
    let s := s.setRun t { s.run t with pauseSlots := n }
    if (s.run t).pause = 0 then (s.setFld (TN_CKPT_STAT_LAST_PAUSE t) (min n 0xFFFF)).startFrame t else s

/-- A tick within a frame: the slot just begun, or the tick is a frame tick (`true`). A halt that is due acts at the tick; at a frame tick it
acts in step 1 (R50). -/
def State.innerTick (s : State) (t : Nat) (aligned : Bool) : State × Bool :=
  let cur := s.fld (TN_SLOT_PLAN_SLOT t)
  let pend := (s.run t).pend0
  let stalled := s.stallNow.get false t
  let (reduced, s) := if stalled then (false, if s.extNow.get false t then s.endExtension t else s)
    else if s.fld (TN_FRAME_CFG_FRAME_SLOTS t) ≤ cur then (false, s) else s.endStraitSlot t cur
  let s := s.setRun t { s.run t with slots := (s.run t).slots + 1 }
  let hs := (s.run t).halts
  let halted := (s.haltNow t false (haltsCode hs), false)
  let s := if reduced then (s.extSenders t).foldl (fun (s : State) i => s.bump (BT_ST_STALL_EXT_SLOTS i) 1) s else s
  let (mesh, s) := if pend then (false, s) else s.meshTest t cur
  let nxt := if pend then 0 else cur + 1
  let (late, s) := if nxt < s.fld (TN_FRAME_CFG_FRAME_SLOTS t) then s.readyTest t nxt else (false, s)
  let stall := reduced || mesh || late
  let boundary := !stall && decide (s.fld (TN_FRAME_CFG_FRAME_SLOTS t) ≤ nxt)
  if boundary && s.allFend t then (s.frameTick t aligned, true)
  else if hs.any (fun h => h.kind == hkTick) || (boundary && !haltsClean hs) then halted
  else if stall then (((s.lowerNow t).2).countSlot t reduced, false)
  else if boundary then (((s.lowerNow t).2).countSlot t false, false)
  else
    let s := (s.lowerNow t).2.setFld (TN_SLOT_PLAN_SLOT t) nxt
    let s := { s with stallNow := s.stallNow.erase t, extNow := s.extNow.erase t }
    ((s.setRun t { s.run t with pend0 := false }).beginSlot t nxt, false)

/-- A tenancy slot tick: the state after it, and whether it was a frame tick. At OP0 every one of them is a module slot tick (R27). -/
def State.slotTick (s : State) (t : Nat) (aligned : Bool) : State × Bool :=
  let r := s.run t
  if !s.running t then (s, false)
  else if s.fld (TN_FRAME_CFG_OP_NOW t) = 0 ∧ !aligned then (s, false)
  else if r.fresh && !r.await then
    if aligned then (s.frameTick t aligned, true) else (s, false)
  else if r.await && bitOf r.pause 0 then (s, false)
  else
    let s := s.bump (TN_SLOT_ELAPSED t) 1
    if r.await then (s.pauseTick t, false) else s.innerTick t aligned

/-- TENANCY_SLOT_TICK (R27, R30): `aligned`: the tick coincides with a module slot tick; `trims`: what the module trimmed in the slot that ends
(R508). -/
def execTenancySlotTick (t : Fin 16) (aligned : Bool) (trims : List Trim) (s : State) : Out := .next ((s.trims t trims).slotTick t aligned).1

/-- FRAME_TICK (R29, R36): a tenancy slot tick that is a frame tick. -/
def execFrameTick (t : Fin 16) (aligned : Bool) (trims : List Trim) (s : State) : Out :=
  let (z, frame) := (s.trims t trims).slotTick t aligned
  .next (if frame then z else s)

/-- OP0_ALIGN_START (R48): the module slot tick for which step 6 has waited. -/
def execOp0AlignStart (t : Fin 16) (s : State) : Out :=
  let r := s.run t
  if !s.running t || !r.await || !bitOf r.pause 0 then .next s
  else .next (((s.setRun t { r with pause := clearBits r.pause 1 }).bump (TN_SLOT_ELAPSED t) 1).pauseTick t)

/-- INPUT_DIGEST_DONE (R408, R410): the digest of the oldest record that waits for one, else of the frame under way. -/
def execInputDigestDone (t : Fin 16) (s : State) : Out :=
  let l := s.recs.get [] t
  let items (n : Nat) : List (Nat × Nat × Nat × Nat) := s.digestItems t rgInput n
  match l.find? (fun x => x.digest.isNone) with
  | some x =>
    let (d, bad, s) := (s.digestBusy (items x.step) false).digestList (items x.step)
    .next ({ s with recs := s.recs.set t (l.map (fun (y : RunRec) => if y.step = x.step ∧ y.digest.isNone then { y with digest := some (d, bad) } else y)) }.runrecGo t)
  | none =>
    let n := s.fld (TN_STEP_STEP t)
    if !s.running t || (s.run t).fresh || (s.run t).await || (s.run t).input.isSome || (items n).isEmpty then .next s
    else
      let (d, bad, s) := (s.digestBusy (items n) false).digestList (items n)
      .next (s.setRun t { s.run t with input := some (d, bad) })

end Sys2Proof.Machine
end

