-- ==== Sys2Proof/Machine/Registers.lean ====
section
/-!
DEFINITION. Access to the control registers (R4 to R10, R24, R423, R464): who may read and write, the 64-bit read latch,
registers shown through a select register or a window, writes with an effect of their own; a port's reset (R413, R416) and the
tenancy memory window (R417 to R419).
-/
namespace Sys2Proof.Machine

open Sys2Proof

/-! ### Visibility (R375, R423, R464) -/

/-- Tenancy t is bound to port p. -/
def State.ownsTen (s : State) (p t : Nat) : Bool := s.fld (TN_STATE_STATE t) != tnFree && s.fld (TN_STATE_PORT t) == p
def State.ownsSome (s : State) (p : Nat) : Bool := (List.range 16).any (s.ownsTen p)
def State.ownsIsle (s : State) (p i : Nat) : Bool :=
  match s.tenOf i with
  | some t => s.ownsTen p t
  | none => false
def State.ownsLink (s : State) (p k : Nat) : Bool := s.fld (LK_STAT_OWNED k) == 1 && s.ownsTen p (s.fld (LK_STAT_TENANCY k))

/-- Host port p may read the register at `off`; an offset of no block is not filtered (R8). -/
def State.mayRead (s : State) (p off : Nat) : Bool :=
  if off < 0x200000 then true
  else if off < 0x300000 then (off - 0x200000) / 0x40000 == p
  else if off < 0x400000 then s.ownsTen p ((off - 0x300000) / 0x10000)
  else if off < 0x600000 then s.ownsLink p ((off - 0x400000) / 0x10000)
  else if off < 0x1000000 then true
  else if off < 0x2000000 then s.ownsIsle p ((off - 0x1000000) / 0x100000)
  else if off < 0x3000000 then s.ownsIsle p ((off - 0x2000000) / 0x100000)
  else true

/-- Host port p may write FB_ offset `o` (R375). -/
def State.mayWriteFb (s : State) (p o : Nat) : Bool :=
  if 0x100 ≤ o ∧ o < 0x180 then s.ownsTen p ((o - 0x100) / 8)
  else if 0x200 ≤ o ∧ o < 0x400 then s.ownsTen p ((o - 0x200) / 32)
  else if (0x180 ≤ o ∧ o < 0x188) ∨ (0x400 ≤ o ∧ o < 0x408) ∨ (0x600 ≤ o ∧ o < 0x618) then false
  else s.ownsSome p

/-- Host port p may write the register at `off` (R346, R375, R423, R517). -/
def State.mayWrite (s : State) (p off : Nat) : Bool :=
  if off < 0x200000 then false
  else if off < 0x300000 then (off - 0x200000) / 0x40000 == p
  else if off < 0x400000 then s.ownsTen p ((off - 0x300000) / 0x10000)
  else if off < 0x600000 then s.ownsLink p ((off - 0x400000) / 0x10000) && decide ((off - 0x400000) % 0x10000 < 16)
  else if off < 0x700000 then s.mayWriteFb p (off - 0x600000)
  else if off < 0x800000 then false
  else if off < 0x1000000 then true
  else if off < 0x2000000 then s.ownsIsle p ((off - 0x1000000) / 0x100000)
  else if off < 0x3000000 then s.ownsIsle p ((off - 0x2000000) / 0x100000)
  else true

/-- Registers a host may read before READY (R464). -/
def earlyRead (off : Nat) : Bool := [0x0, 0x8, 0x10, 0x80, 0x88].contains (off / 8 * 8)

/-! ### What stands at an offset -/

/-- Fields of the register at 8-aligned offset `off`, through its select register where it has one. -/
def State.fieldsAt (s : State) (off : Nat) : List Fld :=
  if off < 0x400000 then plainFields off
  else if off < 0x600000 then
    let k := (off - 0x400000) / 0x10000
    let l := s.fld (LK_LANE_SEL_LW k)
    if (off - 0x400000) % 0x10000 = 0x50 then (if l ≤ 8 then LK_LANE_fields k l else []) else plainFields off
  else if off = 0x600510 then FB_HT_DATA_fields (s.fld FB_HT_SEL_BANK) (s.fld FB_HT_SEL_NODE)
  else if off < 0x700000 then plainFields off
  else if off < 0x740000 then
    let p := (off - 0x700000) / 0x10000
    if (off - 0x700000) % 0x10000 = 0x20 then FY_SRC_fields p (s.fld (FY_SRC_SEL_SOURCE p)) else plainFields off
  else if off < 0x1000000 then []
  else if off < 0x2000000 then
    let i := (off - 0x1000000) / 0x100000
    match (off - 0x1000000) % 0x100000 with
    | 0x50018 => BT_ST_PORT_fields i (s.fld (BT_ST_PORT_SEL_PLANE i))
    | 0x60028 => BT_TH_SENSOR_fields i (s.fld (BT_TH_SEL_SENSOR i))
    | _ => plainFields off
  else if off < 0x3000000 then
    let i := (off - 0x2000000) / 0x100000
    match (off - 0x2000000) % 0x100000 with
    | 0x820 => IS_BOND_GROUP_fields i (s.fld (IS_BOND_SEL_GROUP i))
    | 0xA10 => IS_CLK_REGION_fields i (s.fld (IS_CLK_SEL_REGION i))
    | _ => plainFields off
  else []

/-- Sets fields in turn. -/
def State.setFlds (s : State) (l : List (Fld × Nat)) : State := l.foldl (fun (s : State) x => s.setFld x.1 x.2) s

/-- What BT_MC_XLATE_OUT shows (R275, R300). -/
def State.xlateOut (s : State) (i : Nat) : List (Fld × Nat) :=
  let o := s.fld (BT_MC_XLATE_IN_OFFSET i)
  let isMeta := s.fld (BT_MC_XLATE_IN_META i) == 1
  let byte := s.fld (BT_MC_XLATE_IN_RECORD_BYTE i)
  let ok := decide (o < s.fld (BT_MC_EXTENT_USABLE i)) &&
    (!isMeta || decide (byte < recordBytes (s.fld (BT_MC_REGION_LEVEL i (s.regionOf i o)))))
  let a := if isMeta then s.recordAddr i (stackPage o) byte else stackAddr o / 128 * 128
  [(BT_MC_XLATE_OUT_STACK i, stackOf o), (BT_MC_XLATE_OUT_CHANNEL i, channelOf a), (BT_MC_XLATE_OUT_PCH i, pchOf a),
   (BT_MC_XLATE_OUT_BANK i, bankOf a), (BT_MC_XLATE_OUT_ROW i, rowOf a), (BT_MC_XLATE_OUT_COLUMN i, colOf a),
   (BT_MC_XLATE_OUT_VALID i, if ok then 1 else 0), (BT_MC_XLATE_OUT_RETIRED i, if ok && s.retired i o then 1 else 0)]

/-- An image is being read through port p (R57, R415). -/
def State.imageReads (s : State) (p : Nat) : Bool :=
  s.rings.any (fun e => match e.2.cur with
    | some c => c.op == opLoad && c.at 0x10 1 == 0 && s.ownsTen p c.ten
    | none => false)
/-- Non-posted requests of a port outstanding (R415): how many reads of an image are, at an instant, is left open. -/
def State.npOut (s : State) (p : Nat) : Nat × State :=
  let n := s.chanReads p
  if s.imageReads p then
    let (w, s) := s.free
    (n + w.toNat % (npMax + 1 - n), s)
  else (n, s)

/-- Fields that show something held elsewhere take its present value, LH_CAP and LH_LINKS that from before a change of this tick (R15); analog readings are free. -/
def State.refresh (s : State) (off : Nat) : State :=
  if off = 0x10 then
    match s.availWas with
    | some w => if w.1 = s.now then s.setFld LH_CAP_ISLANDS_AVAIL w.2 else s
    | none => s
  else if off = 0x18 then
    match s.linksWas with
    | some w => if w.1 = s.now then s.setFld LH_LINKS_LINKS_UP w.2 else s
    | none => s
  else if 0x200000 ≤ off ∧ off < 0x300000 ∧ off % 0x40000 = 0 then
    let p := (off - 0x200000) / 0x40000
    let (n, s) := s.npOut p
    s.setFld (HP_STAT_NP_OUTSTANDING p) n
  else if 0x400000 ≤ off ∧ off < 0x600000 ∧ off % 0x10000 = 0x50 then
    let k := (off - 0x400000) / 0x10000
    let l := s.fld (LK_LANE_SEL_LW k)
    if l ≤ 8 then
      let (rx, s) := s.free
      let (tx, s) := s.free
      s.setFlds [(LK_LANE_RX_POWER k l, rx.toNat), (LK_LANE_TX_POWER k l, tx.toNat)]
    else s
  else if 0x1000000 ≤ off ∧ off < 0x2000000 then
    let i := (off - 0x1000000) / 0x100000
    let o := (off - 0x1000000) % 0x100000
    if 0x10100 ≤ o ∧ o < 0x10300 ∧ o % 0x40 = 0 then s.setFld (BT_MC_STK_STAT_RATE i ((o - 0x10100) / 0x40)) (if Config.hbmExt = 1 then 10 else 8)
    else if 0x10100 ≤ o ∧ o < 0x10300 ∧ o % 0x40 = 0x28 then
      let n := (o - 0x10128) / 0x40
      s.setFld (BT_MC_STK_LAP_ELAPSED i n) (s.lapElapsed i n)
    else s
  else if 0x2000000 ≤ off ∧ off < 0x3000000 then
    let i := (off - 0x2000000) / 0x100000
    let o := (off - 0x2000000) % 0x100000
    if o = 0xB00 then s.setFld (IS_FENCE_LOSSES_600S i) (min (s.losses600 i).length 15)
    else if 0x600 ≤ o ∧ o < 0x700 ∧ o % 0x20 = 0 then
      let n := (o - 0x600) / 0x20
      s.setFld (IS_SC_STATUS_HAS_PROGRAM i n) (if (s.core ⟨Fin.ofNat 16 i, Fin.ofNat 8 n⟩).prog then 1 else 0)
    else s
  else s

/-- Word `k` of a record. -/
def Rec4.word (r : Rec4) (k : Nat) : Nat := (match k with | 0 => r.w0 | 1 => r.w1 | 2 => r.w2 | _ => r.w3).toNat

/-- The 64-bit word of a window at `off` (R299, R414, R549): record rings, MSI-X table and pending bits. -/
def State.windowWord (s : State) (off : Nat) : Option Nat :=
  let k := off / 8 % 4
  if 0x20000 ≤ off ∧ off < 0x40000 then some ((s.modRing.get {} ((off - 0x20000) / 32)).word k)
  else if 0x200000 ≤ off ∧ off < 0x300000 then
    let p := (off - 0x200000) / 0x40000
    let o := (off - 0x200000) % 0x40000
    let w (j : Nat) : Nat := s.msixTbl.get (if j % 4 = 3 then 1 else 0) (p * 8192 + j)
    if 0x20000 ≤ o ∧ o < 0x28000 then some (w ((o - 0x20000) / 4) + w ((o - 0x20000) / 4 + 1) * 2 ^ 32)
    else if 0x30000 ≤ o ∧ o < 0x30100 then
      some (ofBitList ((List.range 64).filter (fun j => s.msixPba.get false (p * 2048 + (o - 0x30000) * 8 + j))))
    else none
  else if 0x300000 ≤ off ∧ off < 0x400000 ∧ 0x8000 ≤ off % 0x10000 then
    some ((s.tnRings.get {} ((off - 0x300000) / 0x10000 * 1024 + off % 0x10000 / 32 % 1024)).word k)
  else if 0x1000000 ≤ off ∧ off < 0x2000000 ∧ 0x18000 ≤ off % 0x100000 ∧ off % 0x100000 < 0x20000 then
    some ((s.elog.get {} ((off - 0x1000000) / 0x100000 * 1024 + (off % 0x100000 - 0x18000) / 32)).word k)
  else none

/-- A register's value, of its fields. -/
def State.fieldsWord (s : State) (l : List Fld) : Nat := l.foldl (fun (n : Nat) f => n + s.fld f * 2 ^ f.lo) 0

/-! ### Reading (R6, R9, R10) -/

def whoKey : RegSrc → Nat
  | .host p => p.val
  | .mgmt => 4
  | .config p _ => p.val

/-- RC fields lose the bits of `mask` (R6). -/
def State.clearRc (s : State) (l : List Fld) (mask : Nat) : State :=
  l.foldl (fun (s : State) f => if f.acc = .rc then s.setFld f (clearBits (s.fld f) (bits mask f.lo f.w)) else s) s

def lowMask : Nat := 2 ^ 32 - 1
def highMask : Nat := lowMask * 2 ^ 32
def wordMask : Nat := 2 ^ 64 - 1

/-- A field as a read returns it: zero where it is write-only. -/
def Fld.shows (f : Fld) : Bool := f.acc != .wo

/-- The read of a register by a requester that may see it: `off` 8-aligned; `part` 0 the whole, 1 its lower half, 2 its
upper half (R9). -/
def State.readReg (s : State) (who off part : Nat) : Nat × State :=
  match s.windowWord off with
  | some w => (if part = 0 then w else if part = 1 then w % 2 ^ 32 else w / 2 ^ 32, s)
  | none =>
    let l := s.fieldsAt off
    let r := s.refresh off
    let w := r.fieldsWord (l.filter Fld.shows)
    let s := { s with freeCtr := r.freeCtr }
    let s := if who = 4 ∧ off = 0x180 then { s with alertN := false } else s
    if part = 0 then (w, s.clearRc l wordMask)
    else if part = 1 then (w % 2 ^ 32, { s.clearRc l wordMask with latch := s.latch.set who (off, w / 2 ^ 32) })
    else
      match s.latch.find? (fun e => e.1 == who && e.2.1 == off) with
      | some e => (e.2.2, { s with latch := s.latch.erase who })
      | none => (w / 2 ^ 32, s.clearRc l highMask)

/-- The access is one the register space takes (R10). -/
def accessOk (off size : Nat) : Bool := (size == 4 || size == 8) && off % size == 0 && decide (off < 0x4000000)

/-- Which part of the register an access names. -/
def partOf (off size : Nat) : Nat := if size = 8 then 0 else if off % 8 = 0 then 1 else 2

def badAccess : Nat := 0x10

/-- An access that R10 turns away. -/
def State.refuseAccess (s : State) (src : RegSrc) (off : Nat) : State :=
  match src with
  | .host p => s.emit (.regRefused p off)
  | .mgmt => s.emit (.mgmtStatus off badAccess)
  | .config _ _ => s

/-! ### Configuration space (R414) -/

/-- What an entry reads as. A BAR's low bits say that it is a 64-bit memory BAR, BAR2's that it is prefetchable. -/
def State.cfgWord (s : State) (p : Nat) : CfgItem → Nat
  | .ids => Config.vendorId.toNat + 0x1652 * 2 ^ 16
  | .classRev => 0xB0 + 0x120000 * 2 ^ 8
  | .bar0 => (s.pcie.get {} p).bar0 + 0x4
  | .bar2 => (s.pcie.get {} p).bar2 + 0xC
  | .bar2Size => (s.pcie.get {} p).bar2Size
  | .msixEnable => if s.msixOn.get false p then 1 else 0
  | .msixVectors => 2048
  | .power => if (s.pcie.get {} p).d3hot then 3 else 0
  | .maxPayload => (s.pcie.get {} p).maxPayload
  | .timeoutOff => if (s.pcie.get {} p).timeoutOff then 1 else 0
  | .serial => s.fld LH_SERIAL_SERIAL

/-- A write of an entry; what it cannot hold leaves it as it was. BAR0 is 64 MiB, BAR2 from 1 GiB to 8 TiB. -/
def State.cfgWrite (s : State) (p v : Nat) (item : CfgItem) : State :=
  let c := s.pcie.get {} p
  let put (c : Pcie) : State := { s with pcie := s.pcie.set p c }
  match item with
  | .bar0 => put { c with bar0 := v / 2 ^ 26 * 2 ^ 26 % 2 ^ 64 }
  | .bar2 => put { c with bar2 := v / 2 ^ (30 + c.bar2Size) * 2 ^ (30 + c.bar2Size) % 2 ^ 64 }
  | .bar2Size => if v ≤ 13 then put { c with bar2Size := v, bar2 := c.bar2 / 2 ^ (30 + v) * 2 ^ (30 + v) } else s
  | .msixEnable => { s with msixOn := if bitOf v 0 then s.msixOn.set p true else s.msixOn.erase p }
  | .power => if v = 0 ∨ v = 3 then put { c with d3hot := v == 3 } else s
  | .maxPayload => if v ≤ 2 then put { c with maxPayload := v } else s
  | .timeoutOff => put { c with timeoutOff := bitOf v 0 }
  | .ids | .classRev | .msixVectors | .serial => s

/-- A register read by a requester (R9, R10, R423, R435, R464). -/
def State.accessRead (s : State) (src : RegSrc) (off size : Nat) : State :=
  let answer (v : Nat) (s : State) : State := s.emit (.regData (whoKey src) off size v)
  let read (s : State) : State :=
    let (v, s) := s.readReg (whoKey src) (off / 8 * 8) (partOf off size)
    answer v s
  match src with
  | .config p item => answer (s.cfgWord p item) s
  | .mgmt => if !accessOk off size then s.refuseAccess src off else (read s).emit (.mgmtStatus off 0)
  | .host p =>
      if !accessOk off size then s.refuseAccess src off
      else if s.fld LH_START_PHASE ≠ 9 then (if earlyRead off then read s else answer 0 s)
      else if s.mayRead p off then read s
      else answer 0 (s.bump (HP_FILTERED_READS p) 1)

/-! ### Writing (R4, R5, R7, R8) -/

/-- A field takes the bits of `v` under mask `m`, by its access code. -/
def State.writeFld (s : State) (m v : Nat) (f : Fld) : State :=
  let fm := bits m f.lo f.w
  let new := clearBits (s.fld f) fm ||| (bits v f.lo f.w &&& fm)
  match f.acc with
  | .rw => if fm = 0 then s else s.setFld f new
  | .rwl => if fm = 0 ∨ s.fld SEC_LOCK_CLOSED = 1 then s else s.setFld f new
  | .rw1c =>
    if 0x300000 ≤ f.off ∧ f.off < 0x400000 ∧ f.off % 0x10000 = 0x110 then (if bitOf (bits v f.lo f.w &&& fm) 0 then s.setFld f 0 else s)
    else s.setFld f (clearBits (s.fld f) (bits v f.lo f.w &&& fm))
  | _ => s
def State.writeFlds (s : State) (l : List Fld) (m v : Nat) : State := l.foldl (fun (s : State) f => s.writeFld m v f) s

/-- The value a register would hold with the bits of `v` under `m` in place. -/
def mergeWord (old m v : Nat) : Nat := clearBits old m ||| (v &&& m)

/-- HP_PORT_RING (R437): BASE and LOG2 stay when ENABLE was set before; a ring that becomes enabled starts at zero counts. -/
def State.writePortRing (s : State) (p m v : Nat) : State :=
  let was := s.fld (HP_PORT_RING_ENABLE p)
  let s1 := if was = 1 then s else (s.writeFld m v (HP_PORT_RING_LOG2 p)).writeFld m v (HP_PORT_RING_BASE p)
  let s2 := s1.writeFld m v (HP_PORT_RING_ENABLE p)
  if was = 0 ∧ s2.fld (HP_PORT_RING_ENABLE p) = 1 then s2.setRing (16 + p) { s2.ring (16 + p) with cons := 0, cpl := 0, fault := false } else s2

/-- LK_CTL (R340 to R342): RESET alone, else TARGET and then RETRAIN. -/
def State.writeLkCtl (s : State) (k m v : Nat) : State :=
  let w := v &&& m
  if bitOf w 3 then (s.writeFld m v (LK_CTL_TARGET k)).linkReset k
  else
    let t := mergeWord (s.fld (LK_CTL_TARGET k)) m v % 4
    let s := if bits m 0 2 = 0 ∨ (bitOf w 2 ∧ t = s.fld (LK_CTL_TARGET k)) then s else s.linkTarget k t
    if bitOf w 2 then s.linkRetrain k else s

/-- A 32-bit word of the MSI-X table of port p; unmasking a vector sends what is pending (R414). -/
def State.writeMsix (s : State) (p j w : Nat) : State :=
  let v := j / 4
  let s := { s with msixTbl := s.msixTbl.set (p * 8192 + j) w }
  if j % 4 = 3 ∧ !bitOf w 0 ∧ s.msixPba.get false (p * 2048 + v) then s.msix p v else s

/-- The HP_ block of port p. -/
def State.writeHp (s : State) (p o m v : Nat) : State :=
  if o = 0x8 then s.writePortRing p m v
  else if 0x20000 ≤ o ∧ o < 0x28000 then
    let j := (o - 0x20000) / 4
    let s := if m % 2 ^ 32 = 0 then s else s.writeMsix p j (v % 2 ^ 32)
    if m / 2 ^ 32 = 0 then s else s.writeMsix p (j + 1) (v / 2 ^ 32)
  else if 0x10000 ≤ o ∧ o < 0x10400 ∧ o % 0x80 = 0x40 then
    let key := 512 + 8 * p + (o - 0x10040) / 0x80
    s.setCh key { s.ch key with ctl := (s.ch key).ctl ||| (v &&& m &&& 7) }
  else if 0x10000 ≤ o ∧ o < 0x10400 ∧ (o % 0x80 = 0x30 ∨ o % 0x80 = 0x38 ∨ o % 0x80 = 0x48) then
    -- PROG, HOSTBASE and PROGLEN keep their values while the channel runs, waits or drains (R325)
    let st := s.fld (dmState (512 + 8 * p + (o - 0x10000) / 0x80))
    if st = dsRunning ∨ st = dsWaiting ∨ st = dsDraining then s
    else s.writeFlds (hpFields p o) m (if o % 0x80 = 0x30 then v / 16 * 16 else v)
  else if 0x100 ≤ o ∧ o < 0x200 ∧ o % 0x10 = 8 then s.writeFlds (hpFields p o) m (v / 4096 * 4096)
  else s.writeFlds (hpFields p o) m v

/-- The FB_ block. -/
def State.writeFb (s : State) (o m v : Nat) : State :=
  let l := s.fieldsAt (0x600000 + o)
  if o = 0x0 then (if m % 2 ^ 16 = 0 then s else s.nodeWrite (v % 65536))
  else if o = 0x28 then s.rtInval (v &&& m)
  else if (0x100 ≤ o ∧ o < 0x180) ∨ o = 0x180 then s.writeFlds l m (v / 2 ^ 20 * 2 ^ 20)
  else if o = 0x500 then
    let s := s.writeFlds l m v
    if bitOf (v &&& m) 1 then s.htSwitch else s
  else if o = 0x510 then
    let bank := s.fld FB_HT_SEL_BANK
    if bank = s.fld FB_HT_CTL_ACTIVE ∨ s.fld FB_HT_CTL_DRAINING = 1 then s else s.writeFlds l m v
  else if o = 0x610 then
    let w := mergeWord (s.fld FB_MBOX_CTL_WRITE * 2 + s.fld FB_MBOX_CTL_WIDE * 4) m v
    if bitOf (v &&& m) 0 then s.mboxGo (bitOf w 1) (bitOf w 2) else s.writeFlds l m v
  else s.writeFlds l m v

/-- The BT_ block of island i. -/
def State.writeBt (s : State) (i o m v : Nat) : State :=
  let l := s.fieldsAt (0x1000000 + i * 0x100000 + o)
  match o with
  | 0x10040 => let s := s.writeFlds l m v; s.setFlds (s.xlateOut i)
  | 0x20018 => if m % 2 ^ 32 = 0 then s else s.flipCtl i true (v % 2 ^ 32)
  | 0x10038 => if bits m 16 10 = 0 then s else s.elogTail i (bits v 16 10)
  | 0x32000 => s.kvWrite i false (mergeWord ((s.kv i).cfg.getD (s.fieldsWord l)) m v)
  | 0x32008 => s.kvWrite i true (mergeWord ((s.kv i).done.getD (s.fieldsWord l)) m v)
  | _ => s.writeFlds l m v

/-- The TN_ block of tenancy t: TAIL and BLOCK free waiting run records (R410). -/
def State.writeTn (s : State) (t o m v : Nat) : State :=
  let s := s.writeFlds (tnFields t o) m v
  if o = 0x190 ∨ o = 0x198 then s.runrecGo t else s

/-- The LH_ block. -/
def State.writeLh (s : State) (o m v : Nat) : State :=
  match o with
  | 0x98 => s.coolantWrite (mergeWord (s.fieldsWord (lhFields o)) m v)
  | 0xA0 => s.lhResetWrite (v &&& m)
  | 0xD0 => s.pwrCtl (v &&& m)
  | 0x118 => s.fenceRequest (v &&& m &&& 0xFFFF)
  | _ => s.writeFlds (lhFields o) m v

/-- The write of a register by a requester that may write it: `off` 8-aligned, `m` the bits written. -/
def State.writeReg (s : State) (off m v : Nat) : State :=
  if off < 0x100000 then s.writeLh off m v
  else if off < 0x200000 then s.writeFlds (secFields off) m v
  else if off < 0x300000 then s.writeHp ((off - 0x200000) / 0x40000) ((off - 0x200000) % 0x40000) m v
  else if off < 0x400000 then s.writeTn ((off - 0x300000) / 0x10000) ((off - 0x300000) % 0x10000) m v
  else if off < 0x600000 then
    if (off - 0x400000) % 0x10000 = 0 then s.writeLkCtl ((off - 0x400000) / 0x10000) m v else s.writeFlds (s.fieldsAt off) m v
  else if off < 0x700000 then s.writeFb (off - 0x600000) m v
  else if 0x1000000 ≤ off ∧ off < 0x2000000 then s.writeBt ((off - 0x1000000) / 0x100000) ((off - 0x1000000) % 0x100000) m v
  else if 0x2000000 ≤ off ∧ off < 0x3000000 ∧ off % 0x100000 = 0x908 then
    if m % 2 ^ 32 = 0 then s else s.flipCtl ((off - 0x2000000) / 0x100000) false (v % 2 ^ 32)
  else s.writeFlds (s.fieldsAt off) m v

/-- Bits of the register, and the value in place, of an access. -/
def maskOf (off size : Nat) : Nat := if size = 8 then wordMask else if off % 8 = 0 then lowMask else highMask
def shiftOf (off size v : Nat) : Nat := if size = 8 then v % 2 ^ 64 else if off % 8 = 0 then v % 2 ^ 32 else v % 2 ^ 32 * 2 ^ 32

/-- A register write by a requester (R10, R423, R435, R464); or of an entry of the configuration space (R414). -/
def State.accessWrite (s : State) (src : RegSrc) (off size v : Nat) : State :=
  let write (s : State) : State := s.writeReg (off / 8 * 8) (maskOf off size) (shiftOf off size v)
  match src with
  | .config p item => s.cfgWrite p v item
  | .mgmt => if !accessOk off size then s.refuseAccess src off else (write s).emit (.mgmtStatus off 0)
  | .host p =>
    if !accessOk off size then s.refuseAccess src off
    else if s.fld LH_START_PHASE ≠ 9 then s
    else if s.mayWrite p off then write s
    else s.bump (HP_FILTERED_WRITES p) 1

/-- REGISTER_WRITE (R7, R8, R10, R419, R423). -/
def execRegisterWrite (src : RegSrc) (off : BitVec 32) (size : BitVec 8) (value : BitVec 64) (s : State) : Out :=
  .next (s.accessWrite src off.toNat size.toNat value.toNat)
/-- RC_READ (R6). -/
def execRcRead (src : RegSrc) (off : BitVec 32) (size : BitVec 8) (s : State) : Out := .next (s.accessRead src off.toNat size.toNat)
/-- LOWER_HALF_READ (R9). -/
def execLowerHalfRead (src : RegSrc) (off : BitVec 32) (s : State) : Out := .next (s.accessRead src (off.toNat / 8 * 8) 4)
/-- UPPER_HALF_READ (R9). -/
def execUpperHalfRead (src : RegSrc) (off : BitVec 32) (s : State) : Out := .next (s.accessRead src (off.toNat / 8 * 8 + 4) 4)
/-- MGMT_REG_READ, MGMT_REG_WRITE (R435). -/
def execMgmtRegRead (off : BitVec 32) (width : BitVec 8) (s : State) : Out := .next (s.accessRead .mgmt off.toNat width.toNat)
def execMgmtRegWrite (off : BitVec 32) (width : BitVec 8) (value : BitVec 64) (s : State) : Out :=
  .next (s.accessWrite .mgmt off.toNat width.toNat value.toNat)
/-- PORT_RING_WRITE (R437). -/
def execPortRingWrite (src : RegSrc) (p : Fin 4) (value : BitVec 64) (s : State) : Out := .next (s.accessWrite src (hpBlock p + 0x8) 8 value.toNat)
/-- RUNREC_TAIL_WRITE (R410): the upper half of TN_RUNREC_STAT. -/
def execRunrecTailWrite (src : RegSrc) (t : Fin 16) (tail : BitVec 32) (s : State) : Out :=
  .next (s.accessWrite src (tnBlock t + 0x19C) 4 tail.toNat)
/-- STOP_AT_WRITE (R411). -/
def execStopAtWrite (src : RegSrc) (t : Fin 16) (value : BitVec 64) (s : State) : Out :=
  .next (s.accessWrite src (tnBlock t + 0x1B0) 8 value.toNat)
def lkBlock (k : Nat) : Nat := 0x400000 + k * 0x10000
/-- LINK_TARGET_WRITE (R341, R342). -/
def execLinkTargetWrite (src : RegSrc) (k : Fin 32) (target : BitVec 2) (s : State) : Out := .next (s.accessWrite src (lkBlock k) 8 target.toNat)
/-- LINK_RETRAIN_WRITE (R340): TARGET is written with the value it holds. -/
def execLinkRetrainWrite (src : RegSrc) (k : Fin 32) (s : State) : Out :=
  .next (s.accessWrite src (lkBlock k) 8 (s.fld (LK_CTL_TARGET k) + 4))
/-- LINK_RESET (R341). -/
def execLinkReset (src : RegSrc) (k : Fin 32) (s : State) : Out := .next (s.accessWrite src (lkBlock k) 8 (s.fld (LK_CTL_TARGET k) + 8))

/-! ### Port reset (R413, R416, R437, R557) -/

/-- HP_ registers that a port reset returns to their reset values: all but PORT_SEQ, what shows the module or the link, and
the record of a channel's halt. -/
def portFields (p : Nat) : List Fld :=
  [HP_PORT_RING_LOG2 p, HP_PORT_RING_ENABLE p, HP_PORT_RING_BASE p, HP_FILTERED_READS p, HP_FILTERED_WRITES p, HP_EV_CFG_IRQ p] ++
  (List.range 16).flatMap (fun k => hpFields p (0x100 + 16 * k) ++ hpFields p (0x108 + 16 * k)) ++
  (List.range 8).flatMap (fun c => [0x28, 0x30, 0x38, 0x48].flatMap (fun o => hpFields p (0x10000 + c * 0x80 + o)))
def linkFields (p : Nat) : List Fld := [HP_STAT_SPEED p, HP_STAT_WIDTH p, HP_STAT_FLIT p, HP_STAT_SRIS p]
def State.resetFlds (s : State) (l : List Fld) : State := l.foldl (fun (s : State) f => s.setFld f f.rst) s

/-- PORT_RESET (R416, R437): FLR leaves the link trained. -/
def execPortReset (p : Fin 4) (kind : PortRst) (s : State) : Out :=
  let s := (List.range 8).foldl (fun (s : State) c => s.dmaStopFor (512 + 8 * p.val + c) drSoftware) s
  let s := s.resetFlds (portFields p)
  let s := if kind = .flr then s else s.resetFlds (linkFields p)
  .next { s with
    msixOn := s.msixOn.erase p,
    pcie := s.pcie.erase p,
    msixNext := s.msixNext.filter (fun k => k / 2048 != p.val),
    msixTbl := s.msixTbl.filter (fun e => e.1 / 8192 != p.val),
    msixPba := s.msixPba.filter (fun e => e.1 / 2048 != p.val),
    latch := s.latch.erase p }

/-- PERST_RELEASE (R413, R557): the strap is sampled, and the port has trained. -/
def execPerstRelease (p : Fin 4) (speed : Fin 8) (width : BitVec 4) (flit : Bool) (clkmode : Fin 4) (s : State) : Out :=
  .next (s.setFlds [(HP_STAT_SPEED p, speed), (HP_STAT_WIDTH p, width.toNat), (HP_STAT_FLIT p, if flit then 1 else 0),
    (HP_STAT_SRIS p, if 2 ≤ clkmode.val then 1 else 0)])

/-! ### The tenancy memory window (R417 to R419) -/

/-- Where BAR2 offset x of port p falls: island and module physical address. -/
def State.barTarget (s : State) (p x : Nat) : Option (Nat × Nat) :=
  let hit (k : Nat) : Bool :=
    let b := s.fld (HP_WIN_A_BAR_GIB p k) * gib
    s.fld (HP_WIN_A_VALID p k) == 1 && s.fld (HP_WIN_A_KIND p k) != 3 && s.fld (HP_WIN_A_SIZE_GIB p k) != 0 &&
    s.ownsTen p (s.fld (HP_WIN_A_TENANCY p k)) && decide (b ≤ x) && decide (x < b + s.fld (HP_WIN_A_SIZE_GIB p k) * gib)
  match (List.range 16).find? (fun k => decide (x < 2 ^ (30 + (s.pcie.get {} p).bar2Size)) && hit k) with
  | none => none
  | some k =>
    let o := s.fld (HP_WIN_B_OFFSET p k) + x - s.fld (HP_WIN_A_BAR_GIB p k) * gib
    match s.islandOf (s.fld (HP_WIN_A_TENANCY p k)) (s.fld (HP_WIN_A_LISL p k)) with
    | none => none
    | some i =>
      match s.fld (HP_WIN_A_KIND p k) with
      | 0 => if o < s.extent i then some (i, hbmBase i + o) else none
      | 1 => if o < shoalSize then some (i, shoalBase i + o) else none
      | _ => if o < 0x100000 then some (i, flagBase i + o) else none

/-- The ferry packet of a BAR2 access to line `a` of island i: from the port's base tile, on VC0. -/
def barPkt (p i a typ data mask poison : Nat) : Pkt :=
  { typ := typ, vc := 0, src := portTile p, dst := i, tile := true, addr := a / 128 * 128, data := data, mask := mask, poison := poison }

/-- Sends the lines of a BAR2 read. -/
def State.barRead (s : State) (p req a : Nat) : List Nat → State
  | [] => s
  | j :: r =>
    match s.barTarget p (a + 128 * j) with
    | none => (s.emit (.barRefused p req)).barRead p req a r
    | some (i, at_) => (s.request (portTile p) [(barPkt p i at_ ptRdReq 0 0 0, .host p req j)]).barRead p req a r

/-- BAR2_READ (R417, R418, R464): a read of `len` bytes at BAR2 offset x, line by line; it waits while the tile has no tag. -/
def execBar2Read (p : Fin 4) (x : BitVec 64) (len : Fin 4097) (req : BitVec 32) (s : State) : Out :=
  let n := spanLines x.toNat (max len.val 1)
  if s.fld LH_START_PHASE ≠ 9 then .next (s.emit (.barRefused p req.toNat))
  else if s.ferryBusy (portTile p) (((s.barTarget p (x.toNat / 128 * 128)).map (·.1)).getD (portTile p)) n then .next s
  else .next (s.barRead p req.toNat (x.toNat / 128 * 128) (List.range n))

/-- BAR2_WRITE (R417 to R419, R464): bytes of one line; a poisoned TLP stores its words poisoned and is reported under AER. -/
def execBar2Write (p : Fin 4) (x : BitVec 64) (data : BitVec 1024) (mask : BitVec 128) (poison : Bool) (s : State) : Out :=
  if s.fld LH_START_PHASE ≠ 9 then .next (s.emit (.barRefused p 0))
  else
    match s.barTarget p (x.toNat / 128 * 128) with
    | none => .next (s.emit (.barRefused p 0))
    | some (i, a) =>
      if s.ferryBusy (portTile p) i 1 then .next s
      else
        let s := s.request (portTile p) [(barPkt p i a ptWrReq data.toNat mask.toNat (if poison then 0xFFFF else 0), .hostWrite p)]
        .next (if poison then s.emit (.aerPoisoned p) else s)

end Sys2Proof.Machine
end

