-- ==== Sys2Proof/Machine/Deliver.lean ====
section
/-!
DEFINITION. What a base tile does with the packets that reach it (R248 to R250, R266, R268, R269, R399, R566), and with the
fabric requests that reach the module (R351, R352, R354, R357 to R361, R365, R366, R374).
-/
namespace Sys2Proof.Machine

open Sys2Proof

/-! ### A capture holds back requests from outside (R399) -/

/-- The address is shoal or flag space of a tenancy under capture: that tenancy. -/
def State.captured (s : State) (a : Nat) : Option Nat :=
  let of (i : Nat) : Option Nat :=
    match s.tenOf i with
    | some t => if s.caps.any (fun e => e.1 == t) then some t else none
    | none => none
  match place a with
  | .shoal i _ => of i
  | .flag i _ => of i
  | _ => none

/-- What waits for the response of a packet, at its source. -/
def State.sourceOf (s : State) (k : Pkt) : Option Waiter := ((s.tile k.src).tags.find? (fun e => e.1 == k.tag)).map (·.2)

def isResponse (typ : Nat) : Bool := typ == ptRdRsp || typ == ptWrAck || typ == ptAtomRsp

/-- A packet waits at its target: a capture runs there and the request comes from outside the tenancy. -/
def State.waits (s : State) (k : Pkt) : Bool :=
  if isResponse k.typ || k.typ == ptSkip || s.crossing.any (fun e => e.1 == crossKey k) then false
  else
    match s.captured k.addr with
    | none => false
    | some t =>
      if k.vc = 2 ∧ !k.tile then s.tenOf k.src != some t
      else
        match s.sourceOf k with
        | some w => s.waiterTen false w != t
        | none => true

/-! ### Register access on VC3 (R351, R374) -/

/-- A management request for the aligned word at `off`; FB_MGMT_ACL.WRITE is ignored: none when it is not admitted, else the line of its response. -/
def State.mgmtAccess (s : State) (node : Nat) (write : Bool) (off mask data : Nat) : Option (Nat × State) :=
  let at_ := off % 128
  let m := mask / 2 ^ at_
  let admitted := s.fld FB_MGMT_ACL_VALID == 1 && ((node ^^^ s.fld FB_MGMT_ACL_BASE) &&& s.fld FB_MGMT_ACL_MASK) == 0
  match place off with
  | .regs r =>
    if !admitted ∨ r % 8 ≠ 0 then none
    else if write then
      if m * 2 ^ at_ = mask ∧ (m = 0xFF ∨ m = 0x0F ∨ m = 0xF0) then
        some (0, s.writeReg r (if m = 0xFF then wordMask else if m = 0x0F then lowMask else highMask) (data / 256 ^ at_ % 2 ^ 64))
      else none
    else
      let (v, s) := s.readReg 4 r 0
      some (v * 256 ^ at_, s)
  | _ => none

/-! ### Ferry packets (R248 to R250, R266, R268, R269) -/

/-- The error log's code for who asks (R299). -/
def waiterReq (w : Option Waiter) : Nat :=
  match w with
  | some (.dmaRead _ _) | some (.dmaWrite _ _) | some (.dmaSignal _) | some (.kv _ _) => reqDma
  | some (.host _ _ _) | some (.hostWrite _) => reqHost
  | some (.repair _ _ _ _ _) => reqStrait
  | _ => reqFerry

/-- A BAR2 access to the flag space of island b: reads of the line, writes as FLAG.SET word by word (R171, R419). -/
def State.flagLine (s : State) (b : Nat) (k : Pkt) : Pkt × State :=
  let a := k.addr / 128 * 128
  if k.typ = ptRdReq then (k.answer b fsOk (s.peek a 128) 0, s)
  else
    (k.answer b fsOk 0 0, (List.range 16).foldl (fun (s : State) j =>
      let m := bits k.mask (8 * j) 8
      if m = 0 then s
      else
        let old := s.peek (a + 8 * j) 8
        let new := (List.range 8).foldl (fun (v : Nat) n => if bitOf m n then putBits v (8 * n) 8 (bits k.data (64 * j + 8 * n) 8) else v) old
        s.setFlag (a + 8 * j) new) s)

/-- Base tile b applies a request and makes its response. -/
def State.serveReq (s : State) (b : Nat) (k : Pkt) : Pkt × State :=
  let w := s.sourceOf k
  if k.vc = 3 then
    match s.mgmtAccess s.node (k.typ == ptWrReq) k.addr k.mask k.data with
    | some (v, s) => (k.answer b fsOk v 0, s)
    | none => (k.answer b fsUnmapped 0 0, s)
  else
    match w, place k.addr with
    | some (.repair t l _ _ _), _ =>
      if ((s.plan t).xfer ((s.plan t).xferOf l)).kind = 2 then (k.answer b fsOk 0 0, s.landRepair t l k)
      else ((s.applyReq b k reqStrait).1, ((s.applyReq b k reqStrait).2).notePoison t l k.poison)
    | some (.host _ _ _), .flag i _ => if i = b then s.flagLine b k else s.applyReq b k reqHost
    | some (.hostWrite _), .flag i _ => if i = b then s.flagLine b k else s.applyReq b k reqHost
    | some (.dmaWrite ch no), _ => s.applyReq b k reqDma (((s.ch ch).reqs.find? (fun e => e.1 == no)).any (fun e => e.2.page))
    | _, _ => s.applyReq b k (waiterReq w)

/-- A SKIP (R266): held packets of the island's own stream up to the value carried are discarded. -/
def State.skip (s : State) (b : Nat) (k : Pkt) : State :=
  let key := streamKey { k with tile := false }
  let last := k.addr % 65536
  let t := s.tile b
  let out := t.hold.filter (fun h => streamKey h.pkt == key && decide ((last + 65536 - h.pkt.pseq) % 65536 < 32768))
  let lo := t.expect.get 0 key
  let t := { t with hold := t.hold.filter (fun h => !out.contains h), expect := t.expect.set key ((last + 1) % 65536),
                    skipped := t.skipped.set key (lo, (last + 65537 - lo) % 65536) }
  let t := out.foldl (fun (t : Tile) h => t.free h.plane h.pkt.vc (cellsOf h.pkt.typ)) t
  out.foldl (fun (s : State) h => s.bump (FY_RX_SKIPPED h.plane) 1) (s.setTile b t)

/-! ### Fabric requests at their target -/

/-- What a request is answered with: packet type, data, POISON. -/
structure FAns where
  typ : Nat
  data : Nat := 0
  poison : Bool := false

def fNack (code : Nat) : FAns := { typ := ftNack, data := code }
def ansTyp (typ : Nat) : Nat := if typ = ftRdReq then ftRdRsp else if typ = ftWrReq then ftWrAck else ftAtomRsp
def nackUnmapped : Nat := 1
def nackDenied : Nat := 2
def nackReset : Nat := 3
def nackNoStream : Nat := 6
def nackBusy : Nat := 7
def nackExpired : Nat := 8
def nackBad : Nat := 9

/-- A request breaks R354: a zero field, its type, its channel, its alignment, its unit or its atomic code. -/
def FPkt.malformed (p : FPkt) : Bool :=
  p.odd || p.typ == 0 || decide (10 ≤ p.typ) || p.hops == 0 || p.vc == 1 || p.vc == 2 || decide (16 < p.srcUnit) ||
  (p.vc == 3 && !(p.typ == ftRdReq || p.typ == ftWrReq)) ||
  (p.vc == 0 && (p.typ == ftRdReq || p.typ == ftWrReq) && p.offset % 128 != 0) ||
  (p.typ == ftAtomReq && (p.offset % 8 != 0 || decide (5 < p.aop) || p.srcUnit == 16)) ||
  (p.haldula && decide (65536 ≤ p.path))

/-- The ferry packet that stands for a fabric request at island i. -/
def FPkt.toPkt (p : FPkt) (i : Nat) : Pkt :=
  { typ := if p.typ = ftRdReq then ptRdReq else if p.typ = ftWrReq then ptWrReq else ptAtomReq, vc := 0, src := i, dst := i, tile := true,
    addr := p.offset, aop := p.aop, mask := p.mask, data := p.data, poison := if p.poison then 0xFFFF else 0 }

/-- A delivered request is applied (R250, R351, R352, R374). -/
def State.applyFabric (s : State) (p : FPkt) : FAns × State :=
  let memory (i : Nat) : FAns × State :=
    if p.vc = 3 then (fNack nackBad, s)
    else if !s.admits i p.srcNode (p.typ != ftRdReq) then (fNack nackDenied, s)
    else
      let (r, s) := s.applyReq i (p.toPkt i) reqFabric
      if r.status = fsOk then ({ typ := ansTyp p.typ, data := r.data }, s)
      else if r.status = fsPoison then ({ typ := ansTyp p.typ, poison := true }, s)
      else if r.status = fsReset then (fNack nackReset, s)
      else (fNack nackUnmapped, s)
  match place p.offset with
  | .hbm i _ => memory i
  | .shoal i _ => memory i
  | _ =>
    if p.vc ≠ 3 then (fNack nackUnmapped, s)
    else if p.srcUnit ≠ 16 then (fNack nackBad, s)
    else
      match s.mgmtAccess p.srcNode (p.typ == ftWrReq) p.offset p.mask p.data with
      | some (v, s) => ({ typ := ansTyp p.typ, data := v }, s)
      | none => (fNack nackBad, s)

/-- The answer sets out from the base tile of the destination unit; for a register access, from the link's. -/
def State.sendAns (s : State) (p : FPkt) (k : Nat) (a : FAns) : State :=
  s.fabricAnswer (if dunitOf p.offset < 16 then dunitOf p.offset else linkTile k) p k p.hop a.typ a.data a.poison

/-! ### The result cache (R365) -/

def RCache.is (e : RCache) (p : FPkt) : Bool :=
  e.tile == dunitOf p.offset && e.node == p.srcNode && e.unit == p.srcUnit && e.incarn == p.incarn && e.tag == p.tag && e.eseq == p.eseq
/-- Cache code of an atomic that found its word poisoned. -/
def cachedPoison : Nat := 0x100

/-- The partition of the atomic's unit holds 4,096 entries younger than 16 ms. -/
def State.cacheFull (s : State) (p : FPkt) : Bool :=
  decide (4096 ≤ (s.rcache.filter (fun e => e.tile == dunitOf p.offset && e.unit == p.srcUnit && decide (s.now - e.at_ < ms 16))).length)

/-- The outcome of a delivered atomic is kept; entries of 16 ms and more make room. -/
def State.remember (s : State) (p : FPkt) (a : FAns) : State :=
  let code := if a.typ = ftNack then a.data else if a.poison then cachedPoison else 0
  { s with rcache := s.rcache.filter (fun e => decide (s.now - e.at_ < ms 16)) ++
      [{ tile := dunitOf p.offset, node := p.srcNode, unit := p.srcUnit, incarn := p.incarn, tag := p.tag, eseq := p.eseq,
         old := if code = 0 then a.data else 0, code := code, at_ := s.now }] }

/-- The answer a cache entry gives a duplicate. -/
def RCache.answer (e : RCache) : FAns :=
  if e.code = 0 then { typ := ftAtomRsp, data := e.old } else if e.code = cachedPoison then { typ := ftAtomRsp, poison := true } else fNack e.code

/-- ASTAT_REQ (R365): APPLIED with the old value, the refusal, or NOT_APPLIED. -/
def State.astatAnswer (s : State) (p : FPkt) : FAns :=
  match s.rcache.find? (fun e => e.is p) with
  | some e =>
    if e.code = 0 then { typ := ftAstatRsp, data := 4 * e.old }
    else if e.code = cachedPoison then { typ := ftAstatRsp, data := 1 }
    else fNack e.code
  | none => { typ := ftAstatRsp, data := 1 }

/-! ### Streams (R359, R360) -/

def DCtx.is (c : DCtx) (p : FPkt) : Bool := c.node == p.srcNode && c.unit == p.srcUnit && c.dunit == dunitOf p.offset && c.vc == p.vc
def DCtx.same (c d : DCtx) : Bool := c.node == d.node && c.unit == d.unit && c.dunit == d.dunit && c.vc == d.vc
def State.setDctx (s : State) (c : DCtx) : State := { s with dctxs := s.dctxs.filter (fun x => !x.same c) ++ [c] }
def seqMod : Nat := 2 ^ 24
/-- `a` lies among the 2^23 values at or above `b`. -/
def atOrAbove (a b : Nat) : Bool := decide ((a + seqMod - b) % seqMod < 2 ^ 23)

/-- The expected request of a stream is applied, its ESEQ passed and its answer sent by link k; an atomic whose partition
is full stays expected (R365). -/
def State.fabDeliver (s : State) (c : DCtx) (k : Nat) (p : FPkt) : State :=
  if p.typ = ftAtomReq ∧ s.cacheFull p then (s.setDctx c).sendAns p k (fNack nackBusy)
  else
    let (a, s) := s.applyFabric p
    let s := if p.typ = ftAtomReq then s.remember p a else s
    (s.setDctx { c with expect := (c.expect + 1) % seqMod }).sendAns p k a

/-- Held requests that have become the expected one are delivered. -/
def State.fabPump (q : DCtx) : Nat → State → State
  | 0, s => s
  | n + 1, s =>
    match s.dctxs.find? (fun c => c.same q) with
    | none => s
    | some c =>
      match c.held.find? (fun e => e.1.eseq == c.expect && (s.captured e.1.offset).isNone) with
      | none => s
      | some e => State.fabPump q n (s.fabDeliver { c with held := c.held.erase e } e.2 e.1)

/-- Requests held at the base tile of a destination unit. -/
def State.heldAt (s : State) (d : Nat) : Nat := (s.dctxs.filter (fun c => c.dunit == d)).foldl (fun (n : Nat) c => n + c.held.length) 0

/-- A request is held until its turn: a later copy takes the place of an earlier one. -/
def State.holdEarly (s : State) (c : DCtx) (k : Nat) (p : FPkt) : State :=
  let rest := c.held.filter (fun e => e.1.eseq != p.eseq)
  if rest.length = c.held.length ∧ 2048 ≤ s.heldAt c.dunit then (s.setDctx c).sendAns p k (fNack nackBusy)
  else s.setDctx { c with held := rest ++ [(p, k)] }

/-- A request delivered before (R360, R365). -/
def State.duplicate (s : State) (c : DCtx) (k : Nat) (p : FPkt) : State :=
  let s := (s.setDctx c).bump FB_STAT2_DUP_DISCARD 1
  if p.typ = ftWrReq then s.sendAns p k { typ := ftWrAck }
  else if p.typ = ftAtomReq then
    match s.rcache.find? (fun e => e.is p) with
    | some e => (s.bump FB_STAT2_CACHE_HITS 1).sendAns p k e.answer
    | none => s.sendAns p k (fNack nackExpired)
  else
    let (a, s) := s.applyFabric p
    s.sendAns p k a

/-- A request of an open stream: expected, early, or a duplicate. -/
def State.offer (s : State) (c : DCtx) (k : Nat) (p : FPkt) : State :=
  let c := { c with lastAt := s.now }
  if p.eseq = c.expect then
    if (s.captured p.offset).isSome then s.holdEarly c k p
    else State.fabPump c (c.held.length + 1) (s.fabDeliver c k p)
  else if atOrAbove p.eseq c.expect then s.holdEarly c k p
  else s.duplicate c k p

/-- A request meets its stream's context (R359). -/
def State.meetStream (s : State) (k : Nat) (p : FPkt) : State :=
  let fresh : DCtx := { node := p.srcNode, unit := p.srcUnit, dunit := dunitOf p.offset, vc := p.vc, incarn := p.incarn, expect := p.eseq, lastAt := s.now }
  match s.dctxs.find? (fun c => c.is p) with
  | none =>
    if !p.syn then s.sendAns p k (fNack nackNoStream)
    else if 1024 ≤ (s.dctxs.filter (fun c => c.dunit == fresh.dunit)).length then s.sendAns p k (fNack nackBusy)
    else s.offer fresh k p
  | some c =>
    if c.incarn ≠ p.incarn then (if p.syn then s.offer fresh k p else s.sendAns p k (fNack nackNoStream))
    else if !p.syn then s.offer c k p
    else if atOrAbove p.eseq c.expect then
      s.offer { c with expect := p.eseq, held := c.held.filter (fun e => atOrAbove e.1.eseq p.eseq) } k p
    else s.duplicate { c with lastAt := s.now } k p

/-- A request that link k brought reaches its destination unit. -/
def State.fabricTarget (s : State) (k : Nat) (p : FPkt) : State :=
  if p.typ = ftAstatReq then s.sendAns p k (s.astatAnswer p) else s.meetStream k p

/-- A request that link k brought to this node: one for an island crosses the base to its tile, or is the tile's own traffic (R13, R357,
R566). -/
def State.fabricArrive (s : State) (k : Nat) (p : FPkt) : State :=
  let refuse (code : Nat) : State := s.fabricAnswer (linkTile k) p k p.hop ftNack code
  if p.life = 0 then s.bump FB_STAT_EXPIRED 1
  else if s.asleep then refuse nackBusy
  else if p.malformed then refuse nackBad
  else if dunitOf p.offset < 16 then s.crossBase (linkTile k) (dunitOf p.offset) { kind := .request, link := k, pkt := p, at_ := s.now }
  else s.fabricTarget k p

/-! ### Delivery (R249, R250, R566) -/

/-- A fabric packet has crossed the base (R241, R357): it leaves by its link, less the time it waited here (R358), or acts at its island. -/
def State.crossed (s : State) (x : Cross) : State :=
  let out (p : FPkt) : State := if s.lkState x.link = lsUp then s.sendLink x.link p else s.lostPkt x.link p
  match x.kind with
  | .out => out x.pkt
  | .transit =>
    let life := x.pkt.life - 5 * (s.now - x.at_)
    if life = 0 then s.bump FB_STAT_EXPIRED 1 else out { x.pkt with life := life }
  | .request => s.fabricTarget x.link x.pkt
  | .answer => s.fabricResponse x.pkt

/-- Base tile b acts on a delivered packet (R250). A signal of a DMA channel is acknowledged (R316). -/
def State.servePkt (s : State) (b : Nat) (k : Pkt) : State :=
  let ack (s : State) : State :=
    if k.tile then s.postPkts b [{ typ := ptWrAck, vc := 1, src := b, dst := k.src, tile := true, tag := k.tag, addr := k.addr }] else s
  match s.crossing.find? (fun e => e.1 == crossKey k) with
  | some (key, x) => ({ s with crossing := s.crossing.erase key }).crossed x
  | none =>
  if isResponse k.typ then
    let t := s.tile b
    match t.tags.find? (fun e => e.1 == k.tag) with
    | some (_, w) => (s.setTile b { t with tags := t.tags.erase k.tag }).respond w k.status k.data k.poison
    | none => s
  else if k.typ = ptFlagSet then ack (s.setFlag k.addr k.data)
  else if k.typ = ptFlagAdd then ack (s.addFlag k.addr k.data)
  else if k.typ = ptBarArrive then s.arrive b k.addr (k.data % 256)
  else if k.typ = ptSkip then s.skip b k
  else
    let (r, s) := s.serveReq b k
    s.postPkts b [r]

/-- FERRY_PACKET_DELIVER (R249, R250): the next packet of a stream into base tile b, in PSEQ order, once. -/
def execFerryPacketDeliver (b src : Fin 16) (tile : Bool) (vc : Fin 4) (s : State) : Out :=
  let t := s.tile b
  let key := streamKey { typ := 0, vc := vc, src := src, dst := b, tile := tile }
  match t.hold.find? (fun h => streamKey h.pkt == key && h.pkt.pseq == t.expect.get 0 key) with
  | none => .next s
  | some h =>
    if s.waits h.pkt then .next s
    else
      let t := { t with hold := t.hold.erase h, expect := t.expect.set key ((h.pkt.pseq + 1) % 65536), skipped := t.skipped.erase key }
      .next ((s.setTile b (t.free h.plane h.pkt.vc (cellsOf h.pkt.typ))).servePkt b h.pkt)

/-- The first packet of own traffic that may be served, the order of each stream kept. -/
def State.nextHere (s : State) : List Pkt → List Nat → Option Pkt
  | [], _ => none
  | k :: r, stuck =>
    if stuck.contains (streamKey k) then s.nextHere r stuck
    else if s.waits k then s.nextHere r (streamKey k :: stuck)
    else some k

/-- SAME_TILE_SERVE (R566). -/
def execSameTileServe (b : Fin 16) (s : State) : Out :=
  let t := s.tile b
  match s.nextHere t.here [] with
  | none => .next s
  | some k => .next ((s.setTile b { t with here := t.here.erase k }).servePkt b k)

/-! ### FABRIC_REQUEST_ARRIVE -/

/-- FABRIC_REQUEST_ARRIVE (R357 to R360, R365): the next request that link k holds for this node; with none, a request held
back by a capture that has ended (R399). -/
def execFabricRequestArrive (k : Fin 32) (s : State) : Out :=
  match s.takeIn k (fun p => p.isRequest && (match s.hop p with | .deliver => true | _ => false)) with
  | some (f, s) => .next (s.fabricArrive k f.pkt)
  | none =>
    match s.dctxs.find? (fun c => c.held.any (fun e => e.1.eseq == c.expect && e.2 == k.val && (s.captured e.1.offset).isNone)) with
    | some c => .next (State.fabPump c (c.held.length + 1) s)
    | none => .next s

end Sys2Proof.Machine
end

