-- ==== Sys2Proof/Machine/ScalarFp.lean ====
section
/-!
DEFINITION. Scalar floating point (R138): FP32 and FP64 under R92 and R94, sticky flags in cw.fflags.
-/
namespace Sys2Proof.Machine

open Sys2Proof

def precFmt (dbl : Bool) : FFmt := if dbl then fp64 else fp32

/-- The bits an operand of precision P is read from (R129). -/
def fpBits (dbl : Bool) (x : Word) : Nat := if dbl then x.toNat else x.toNat % 2 ^ 32

/-- Unused fields are zero: `ns` sources, rounding fields only with a rounding step (R125, R127, R138). -/
def fpLegal (a : FpArgs) (ns : Nat) (rounds : Bool) : Bool :=
  (decide (2 ≤ ns) || a.rs2 == 0) && (decide (3 ≤ ns) || a.rs3 == 0) && (rounds || (!a.rmEn && a.rm == 0))

/-- The rounding mode in force (R125). -/
def fpRm (x : Core) (a : FpArgs) : Rm := Rm.ofCode (if a.rmEn then a.rm.toNat else (x.cwGet cwFrnd).toNat)

def fpSrcs (a : FpArgs) (ns : Nat) : List SReg := ([.f a.rs1, .f a.rs2, .f a.rs3] : List SReg).take ns

/-- cw.frnd, read by the hardware on its own, is checked; a bad word poisons the result (R110). -/
def frndBad (c : CoreId) (a : FpArgs) (rounds : Bool) (s : State) : Bool × State :=
  if rounds && !a.rmEn then s.senseAll c [.cw cwFrnd] else (false, s)

/-- A floating instruction whose result is an f register: legality, operands, result and flags. -/
def fpToF (c : CoreId) (a : FpArgs) (ns : Nat) (rounds legal : Bool) (src : Bool)
    (f : Rm → Nat → Nat → Nat → Nat × Nat) (s : State) : State :=
  issueWith c (fpSrcs a ns) (fun s =>
    if !(fpLegal a ns rounds && legal) then .trap s trIllegal 0
    else
      let (bad, s) := frndBad c a rounds s
      let x := s.core c
      let (r, fl) := f (fpRm x a) (fpBits src (x.fGet a.rs1)) (fpBits src (x.fGet a.rs2)) (fpBits src (x.fGet a.rs3))
      let s := (s.setF c a.rd (BitVec.ofNat 64 r)).setFflags c fl
      .done (if bad then s.poisonF c a.rd else s)) s

/-- A floating instruction whose result is a g register. -/
def fpToG (c : CoreId) (a : FpArgs) (ns : Nat) (rounds : Bool) (f : Rm → Nat → Nat → Nat × Nat) (s : State) : State :=
  issueWith c (fpSrcs a ns) (fun s =>
    if !fpLegal a ns rounds then .trap s trIllegal 0
    else
      let (bad, s) := frndBad c a rounds s
      let x := s.core c
      let (r, fl) := f (fpRm x a) (fpBits a.dbl (x.fGet a.rs1)) (fpBits a.dbl (x.fGet a.rs2))
      let s := (s.setG c a.rd (BitVec.ofNat 64 r)).setFflags c fl
      .done (if bad then s.poisonG c a.rd else s)) s

def execFadd (c : CoreId) (a : FpArgs) (s : State) : Out := .next (fpToF c a 2 true true a.dbl (fun m x y _ => fAdd (precFmt a.dbl) m x y) s)
def execFsub (c : CoreId) (a : FpArgs) (s : State) : Out := .next (fpToF c a 2 true true a.dbl (fun m x y _ => fSub (precFmt a.dbl) m x y) s)
def execFmul (c : CoreId) (a : FpArgs) (s : State) : Out := .next (fpToF c a 2 true true a.dbl (fun m x y _ => fMul (precFmt a.dbl) m x y) s)
def execFdiv (c : CoreId) (a : FpArgs) (s : State) : Out := .next (fpToF c a 2 true true a.dbl (fun m x y _ => fDiv (precFmt a.dbl) m x y) s)
def execFsqrt (c : CoreId) (a : FpArgs) (s : State) : Out := .next (fpToF c a 1 true true a.dbl (fun m x _ _ => fSqrt (precFmt a.dbl) m x) s)
def execFmin (c : CoreId) (a : FpArgs) (s : State) : Out := .next (fpToF c a 2 false true a.dbl (fun _ x y _ => fMin (precFmt a.dbl) x y) s)
def execFmax (c : CoreId) (a : FpArgs) (s : State) : Out := .next (fpToF c a 2 false true a.dbl (fun _ x y _ => fMax (precFmt a.dbl) x y) s)
def execFma (c : CoreId) (a : FpArgs) (s : State) : Out := .next (fpToF c a 3 true true a.dbl (fun m x y z => fFma (precFmt a.dbl) m x y z) s)
def execFms (c : CoreId) (a : FpArgs) (s : State) : Out := .next (fpToF c a 3 true true a.dbl (fun m x y z => fFms (precFmt a.dbl) m x y z) s)
def execFnma (c : CoreId) (a : FpArgs) (s : State) : Out := .next (fpToF c a 3 true true a.dbl (fun m x y z => fFnma (precFmt a.dbl) m x y z) s)
def execFabs (c : CoreId) (a : FpArgs) (s : State) : Out := .next (fpToF c a 1 false true a.dbl (fun _ x _ _ => (fAbs (precFmt a.dbl) x, 0)) s)
def execFneg (c : CoreId) (a : FpArgs) (s : State) : Out := .next (fpToF c a 1 false true a.dbl (fun _ x _ _ => (fNeg (precFmt a.dbl) x, 0)) s)
def execFcpys (c : CoreId) (a : FpArgs) (s : State) : Out := .next (fpToF c a 2 false true a.dbl (fun _ x y _ => (fCpys (precFmt a.dbl) x y, 0)) s)

def execFeq (c : CoreId) (a : FpArgs) (s : State) : Out := .next (fpToG c a 2 false (fun _ x y => fEq (precFmt a.dbl) x y) s)
def execFlt (c : CoreId) (a : FpArgs) (s : State) : Out := .next (fpToG c a 2 false (fun _ x y => fLt (precFmt a.dbl) x y) s)
def execFle (c : CoreId) (a : FpArgs) (s : State) : Out := .next (fpToG c a 2 false (fun _ x y => fLe (precFmt a.dbl) x y) s)
def execFclass (c : CoreId) (a : FpArgs) (s : State) : Out := .next (fpToG c a 1 false (fun _ x _ => (fClass (precFmt a.dbl) x, 0)) s)

/-- FP64 to FP32, rounded; P zero. -/
def execFcvtsd (c : CoreId) (a : FpArgs) (s : State) : Out := .next (fpToF c a 1 true (!a.dbl) true (fun m x _ _ => fCvt fp64 fp32 m x) s)
/-- FP32 to FP64, exact; P zero. -/
def execFcvtds (c : CoreId) (a : FpArgs) (s : State) : Out := .next (fpToF c a 1 false (!a.dbl) false (fun m x _ _ => fCvt fp32 fp64 m x) s)
def execFcvti (c : CoreId) (a : FpArgs) (s : State) : Out := .next (fpToG c a 1 true (fun m x _ => fToInt (precFmt a.dbl) m true 64 x) s)
def execFcvtu (c : CoreId) (a : FpArgs) (s : State) : Out := .next (fpToG c a 1 true (fun m x _ => fToInt (precFmt a.dbl) m false 64 x) s)

/-- An integer in a g register to a float in an f register. -/
def intToF (c : CoreId) (a : FpArgs) (signed : Bool) (s : State) : State :=
  issueWith c [.g a.rs1] (fun s =>
    if !fpLegal a 1 true then .trap s trIllegal 0
    else
      let (bad, s) := frndBad c a true s
      let x := s.core c
      let v := x.gGet a.rs1
      let (r, fl) := fOfInt (precFmt a.dbl) (fpRm x a) (if signed then v.toInt else (v.toNat : Int))
      let s := (s.setF c a.rd (BitVec.ofNat 64 r)).setFflags c fl
      .done (if bad then s.poisonF c a.rd else s)) s
def execFcvtfi (c : CoreId) (a : FpArgs) (s : State) : Out := .next (intToF c a true s)
def execFcvtfu (c : CoreId) (a : FpArgs) (s : State) : Out := .next (intToF c a false s)

/-- f[rd] := {0, imm[31:0]} (R138). -/
def execFli (c : CoreId) (rd : Reg) (imm : BitVec 32) (s : State) : Out :=
  .next (issueWith c [] (fun s => .done (s.setF c rd (imm.setWidth 64))) s)
/-- f[rd] := {imm[31:0], f[rs1][31:0]} (R138). -/
def execFlih (c : CoreId) (rd rs1 : Reg) (imm : BitVec 32) (s : State) : Out :=
  .next (issueWith c [.f rs1] (fun s => .done (s.setF c rd (imm ++ ((s.core c).fGet rs1).extractLsb' 0 32))) s)

end Sys2Proof.Machine
end

