-- ==== Sys2Proof/Machine/ScalarInt.lean ====
section
/-!
DEFINITION. Scalar integer and control instructions (R133 to R135, R137, R175): majors 0x00 to 0x02 and 0x05 to 0x07,
and the moves between g and f.
-/
namespace Sys2Proof.Machine

open Sys2Proof

/-- An integer operation on rs1 and the second operand (R133, R134). -/
def alu (c : CoreId) (rd rs1 : Reg) (b : Opd) (f : Word → Word → Word) (s : State) : State :=
  issueWith c (.g rs1 :: opdSrcs b) (fun s => .done (s.setG c rd (f ((s.core c).gGet rs1) (opdVal (s.core c) b)))) s

/-- Immediate shift amounts use imm40[5:0]; imm40[39:6] must be zero (R133). -/
def shiftOk : Opd → Bool
  | .reg _ => true
  | .imm v => v.toNat < 64

/-- A shift: by the low six bits of the second operand; an immediate with higher bits is ILLEGAL (R133, R127). -/
def aluShift (c : CoreId) (rd rs1 : Reg) (b : Opd) (f : Word → Nat → Word) (s : State) : State :=
  if shiftOk b then alu c rd rs1 b (fun x y => f x (y.toNat % 64)) s
  else issueWith c [] (fun s => .trap s trIllegal 0) s

def bool64 (b : Bool) : Word := if b then 1 else 0

def execAdd (c : CoreId) (rd rs1 : Reg) (b : Opd) (s : State) : Out := .next (alu c rd rs1 b (fun x y => x + y) s)
def execSub (c : CoreId) (rd rs1 : Reg) (b : Opd) (s : State) : Out := .next (alu c rd rs1 b (fun x y => x - y) s)
def execAnd (c : CoreId) (rd rs1 : Reg) (b : Opd) (s : State) : Out := .next (alu c rd rs1 b (fun x y => x &&& y) s)
def execOr (c : CoreId) (rd rs1 : Reg) (b : Opd) (s : State) : Out := .next (alu c rd rs1 b (fun x y => x ||| y) s)
def execXor (c : CoreId) (rd rs1 : Reg) (b : Opd) (s : State) : Out := .next (alu c rd rs1 b (fun x y => x ^^^ y) s)
def execSll (c : CoreId) (rd rs1 : Reg) (b : Opd) (s : State) : Out := .next (aluShift c rd rs1 b (fun x n => x <<< n) s)
def execSrl (c : CoreId) (rd rs1 : Reg) (b : Opd) (s : State) : Out := .next (aluShift c rd rs1 b (fun x n => x >>> n) s)
def execSra (c : CoreId) (rd rs1 : Reg) (b : Opd) (s : State) : Out := .next (aluShift c rd rs1 b (fun x n => x.sshiftRight n) s)
def execSlt (c : CoreId) (rd rs1 : Reg) (b : Opd) (s : State) : Out := .next (alu c rd rs1 b (fun x y => bool64 (x.slt y)) s)
def execSltu (c : CoreId) (rd rs1 : Reg) (b : Opd) (s : State) : Out := .next (alu c rd rs1 b (fun x y => bool64 (x.ult y)) s)
def execMin (c : CoreId) (rd rs1 : Reg) (b : Opd) (s : State) : Out := .next (alu c rd rs1 b (fun x y => if y.slt x then y else x) s)
def execMax (c : CoreId) (rd rs1 : Reg) (b : Opd) (s : State) : Out := .next (alu c rd rs1 b (fun x y => if x.slt y then y else x) s)
def execMinu (c : CoreId) (rd rs1 : Reg) (b : Opd) (s : State) : Out := .next (alu c rd rs1 b (fun x y => if y.ult x then y else x) s)
def execMaxu (c : CoreId) (rd rs1 : Reg) (b : Opd) (s : State) : Out := .next (alu c rd rs1 b (fun x y => if x.ult y then y else x) s)
def execMul (c : CoreId) (rd rs1 rs2 : Reg) (s : State) : Out := .next (alu c rd rs1 (.reg rs2) (fun x y => x * y) s)
/-- High 64 bits of the signed product (R133). -/
def mulhs (x y : Word) : Word := BitVec.ofInt 64 (x.toInt * y.toInt / 2 ^ 64)
def mulhu (x y : Word) : Word := BitVec.ofNat 64 (x.toNat * y.toNat / 2 ^ 64)
def execMulh (c : CoreId) (rd rs1 rs2 : Reg) (s : State) : Out := .next (alu c rd rs1 (.reg rs2) mulhs s)
def execMulhu (c : CoreId) (rd rs1 rs2 : Reg) (s : State) : Out := .next (alu c rd rs1 (.reg rs2) mulhu s)
/-- Division truncates towards zero; by zero all ones; −2^63 by −1 gives −2^63 (R134). -/
def divs (x y : Word) : Word := if y = 0 then BitVec.allOnes 64 else BitVec.ofInt 64 (x.toInt.tdiv y.toInt)
def divu (x y : Word) : Word := if y = 0 then BitVec.allOnes 64 else BitVec.ofNat 64 (x.toNat / y.toNat)
def rems (x y : Word) : Word := if y = 0 then x else BitVec.ofInt 64 (x.toInt.tmod y.toInt)
def remu (x y : Word) : Word := if y = 0 then x else BitVec.ofNat 64 (x.toNat % y.toNat)
def execDiv (c : CoreId) (rd rs1 rs2 : Reg) (s : State) : Out := .next (alu c rd rs1 (.reg rs2) divs s)
def execDivu (c : CoreId) (rd rs1 rs2 : Reg) (s : State) : Out := .next (alu c rd rs1 (.reg rs2) divu s)
def execRem (c : CoreId) (rd rs1 rs2 : Reg) (s : State) : Out := .next (alu c rd rs1 (.reg rs2) rems s)
def execRemu (c : CoreId) (rd rs1 rs2 : Reg) (s : State) : Out := .next (alu c rd rs1 (.reg rs2) remu s)

/-- Leading zeros of a 64-bit value, 0 to 64. -/
def clz64 (x : Word) : Nat := if x = 0 then 64 else 63 - x.toNat.log2
/-- Trailing zeros within `n` bits. -/
def ctzGo : Nat → Nat → Nat
  | 0, _ => 0
  | n + 1, x => if x % 2 = 1 then 0 else 1 + ctzGo n (x / 2)
def ctz64 (x : Word) : Nat := ctzGo 64 x.toNat
def popc64 (x : Word) : Nat := popc 64 x.toNat
/-- An operation on rs1 alone. -/
def unary (c : CoreId) (rd rs1 : Reg) (f : Word → Word) (s : State) : State :=
  issueWith c [.g rs1] (fun s => .done (s.setG c rd (f ((s.core c).gGet rs1)))) s
def execClz (c : CoreId) (rd rs1 : Reg) (s : State) : Out := .next (unary c rd rs1 (fun x => BitVec.ofNat 64 (clz64 x)) s)
def execCtz (c : CoreId) (rd rs1 : Reg) (s : State) : Out := .next (unary c rd rs1 (fun x => BitVec.ofNat 64 (ctz64 x)) s)
def execPopc (c : CoreId) (rd rs1 : Reg) (s : State) : Out := .next (unary c rd rs1 (fun x => BitVec.ofNat 64 (popc64 x)) s)
/-- rd := rs1 if rs3 ≠ 0, else rs2 (R133). -/
def execSel (c : CoreId) (rd rs1 rs2 rs3 : Reg) (s : State) : Out :=
  .next (issueWith c [.g rs1, .g rs2, .g rs3] (fun s =>
    let x := s.core c
    .done (s.setG c rd (if x.gGet rs3 ≠ 0 then x.gGet rs1 else x.gGet rs2))) s)

def execLi (c : CoreId) (rd : Reg) (imm : BitVec 40) (s : State) : Out :=
  .next (issueWith c [] (fun s => .done (s.setG c rd (sext40 imm))) s)
/-- rd := {imm[23:0], g[rs1][39:0]} (R135). -/
def execLih (c : CoreId) (rd rs1 : Reg) (imm : BitVec 24) (s : State) : Out :=
  .next (unary c rd rs1 (fun x => imm ++ x.extractLsb' 0 40) s)

/-- A conditional branch: a misaligned offset is ILLEGAL; a taken one adds the offset to pc (R127, R135). -/
def branch (c : CoreId) (rs1 rs2 : Reg) (off : BitVec 40) (p : Word → Word → Bool) (s : State) : State :=
  issueWith c [.g rs1, .g rs2] (fun s =>
    let x := s.core c
    if off.toNat % 8 ≠ 0 then .trap s trIllegal 0
    else if p (x.gGet rs1) (x.gGet rs2) then .jump s (x.pc + sext40 off)
    else .done s) s
def execBeq (c : CoreId) (rs1 rs2 : Reg) (off : BitVec 40) (s : State) : Out := .next (branch c rs1 rs2 off (fun x y => x == y) s)
def execBne (c : CoreId) (rs1 rs2 : Reg) (off : BitVec 40) (s : State) : Out := .next (branch c rs1 rs2 off (fun x y => x != y) s)
def execBlt (c : CoreId) (rs1 rs2 : Reg) (off : BitVec 40) (s : State) : Out := .next (branch c rs1 rs2 off (fun x y => x.slt y) s)
def execBge (c : CoreId) (rs1 rs2 : Reg) (off : BitVec 40) (s : State) : Out := .next (branch c rs1 rs2 off (fun x y => !x.slt y) s)
def execBltu (c : CoreId) (rs1 rs2 : Reg) (off : BitVec 40) (s : State) : Out := .next (branch c rs1 rs2 off (fun x y => x.ult y) s)
def execBgeu (c : CoreId) (rs1 rs2 : Reg) (off : BitVec 40) (s : State) : Out := .next (branch c rs1 rs2 off (fun x y => !x.ult y) s)

def execJal (c : CoreId) (rd : Reg) (off : BitVec 40) (s : State) : Out :=
  .next (issueWith c [] (fun s =>
    let pc := (s.core c).pc
    if off.toNat % 8 ≠ 0 then .trap s trIllegal 0 else .jump (s.setG c rd (pc + 8)) (pc + sext40 off)) s)
/-- Clears the low three bits. -/
def align8 (x : Word) : Word := BitVec.ofNat 64 (x.toNat / 8 * 8)
def execJalr (c : CoreId) (rd rs1 : Reg) (off : BitVec 40) (s : State) : Out :=
  .next (issueWith c [.g rs1] (fun s =>
    let x := s.core c
    .jump (s.setG c rd (x.pc + 8)) (align8 (x.gGet rs1 + sext40 off))) s)

/-- CWR: an undefined number or a vector-core word is ILLEGAL; a poisoned word traps POISON (R110, R131). -/
def execCwr (c : CoreId) (rd : Reg) (cw : BitVec 12) (s : State) : Out :=
  .next (issueWith c (if cwWidth cw.toNat ≠ 0 then [.cw cw.toNat] else []) (fun s =>
    match s.cwRead c cw.toNat with
    | none => .trap s trIllegal 0
    | some v => .done (s.setG c rd v)) s)
def execCww (c : CoreId) (rs1 : Reg) (cw : BitVec 12) (s : State) : Out :=
  .next (issueWith c [.g rs1] (fun s =>
    if cwWritable cw.toNat then .done (s.setCw c cw.toNat ((s.core c).gGet rs1)) else .trap s trIllegal 0) s)
/-- CWRC: reads cw.fflags and clears every bit read as one; any other word is ILLEGAL (R131, R135). -/
def execCwrc (c : CoreId) (rd : Reg) (cw : BitVec 12) (s : State) : Out :=
  .next (issueWith c (if cw.toNat = cwFflags then [.cw cwFflags] else []) (fun s =>
    if cw.toNat = cwFflags then .done ((s.setG c rd ((s.core c).cwGet cwFflags)).setCw c cwFflags 0) else .trap s trIllegal 0) s)

def execMovgf (c : CoreId) (rd rs1 : Reg) (s : State) : Out :=
  .next (issueWith c [.g rs1] (fun s => .done (s.setF c rd ((s.core c).gGet rs1))) s)
def execMovfg (c : CoreId) (rd rs1 : Reg) (s : State) : Out :=
  .next (issueWith c [.f rs1] (fun s => .done (s.setG c rd ((s.core c).fGet rs1))) s)

/-- TRAP takes a trap with cause BREAK (R175). -/
def execTrap (c : CoreId) (s : State) : Out := .next (issueWith c [] (fun s => .trap s trBreak 0) s)

/-- The units of a core's group start again on TRET, but for one whose deferred trap the core has not yet taken (R117). -/
def State.undiscard (s : State) (c : CoreId) : State :=
  let s := (groupArrays c.sc 255).foldl (fun s j => s.setIssue c.isl (.array j) { s.issue c.isl (.array j) with discard := (s.issue c.isl (.array j)).fault.isSome }) s
  (groupVecs c.sc 15).foldl (fun s j => s.setIssue c.isl (.vec j) { s.issue c.isl (.vec j) with discard := (s.issue c.isl (.vec j)).fault.isSome }) s

/-- TRET clears cw.tstat and continues at cw.tpc; outside a handler it is ILLEGAL (R116, R175). Both words are
read through the checker (R110). -/
def execTret (c : CoreId) (s : State) : Out :=
  .next (issueWith c [] (fun s =>
    let (st, s) := s.hwRead c cwTstat
    if bitOf st.toNat 0 then
      let (tpc, s) := s.hwRead c cwTpc
      .jump (((s.setCw c cwTstat 0).setScState c stRunning).undiscard c) (align8 tpc)
    else .trap s trIllegal 0) s)

/-- CKMARK writes g[rs1][31:0] to cw.ckmark (R175). -/
def execCkmark (c : CoreId) (rs1 : Reg) (s : State) : Out :=
  .next (issueWith c [.g rs1] (fun s => .done (s.setCw c cwCkmark ((s.core c).gGet rs1))) s)

end Sys2Proof.Machine
end

