-- ==== Sys2Proof/Machine/Isa.lean ====
section
/-!
DEFINITION. The instruction word of a scalar core (R122 to R127, R148 to R156): the instruction it names with the operands of its
fields, or none. A word that names none is ILLEGAL.
-/
namespace Sys2Proof.Machine

open Sys2Proof

/-! ### Fields (R125) -/

/-- The register field at bit `lo` of a word. -/
def regAt (w lo : Nat) : Reg := Fin.ofNat 32 (bits w lo 5)
/-- The `n` bits from `lo` are zero, as an unused field must be. -/
def clearAt (w lo n : Nat) : Bool := bits w lo n == 0
def imm40 (w : Nat) : BitVec 40 := BitVec.ofNat 40 (bits w 0 40)
/-- An instruction, where the fields it does not use are zero. -/
def named (zero : Bool) (i : Instr) : Option Instr := if zero then some i else none

/-- Format R of majors 0x10 to 0x12 (R125, R138). -/
def fpArgs (w : Nat) : FpArgs :=
  { rd := regAt w 45, rs1 := regAt w 40, rs2 := regAt w 35, rs3 := regAt w 30, dbl := bitOf w 29, rmEn := bitOf w 28,
    rm := BitVec.ofNat 2 (bits w 26 2) }

/-- Format V (R125). -/
def vArgs (w : Nat) : VArgs :=
  { vd := regAt w 45, vs1 := regAt w 40, vs2 := regAt w 35, vs3 := regAt w 30, mask := Fin.ofNat 8 (bits w 27 3),
    cores := BitVec.ofNat 4 (bits w 23 4), fmt := BitVec.ofNat 3 (bits w 20 3), rmEn := bitOf w 19, rm := BitVec.ofNat 2 (bits w 17 2),
    s2 := bitOf w 16, imm := BitVec.ofNat 16 (bits w 0 16) }

/-- The formats of majors 0x30, 0x31, 0x32 and 0x34 (R149, R151). -/
def maMask (w : Nat) : BitVec 8 := BitVec.ofNat 8 (bits w 42 8)
def maBank (w : Nat) : Fin 4 := Fin.ofNat 4 (bits w 40 2)
def wloadArgs (w : Nat) : WloadArgs :=
  { arrays := maMask w, buf := bitOf w 41, fmtW := BitVec.ofNat 5 (bits w 36 5), sp := bitOf w 35, rs1 := regAt w 30, rs2 := regAt w 25 }
def macArgs (w : Nat) : MacArgs :=
  { arrays := maMask w, bank := maBank w, buf := bitOf w 39, fmtA := BitVec.ofNat 5 (bits w 34 5), m1 := BitVec.ofNat 7 (bits w 27 7),
    r0 := BitVec.ofNat 7 (bits w 20 7), rs1 := regAt w 15, rs2 := regAt w 10, rs3 := regAt w 5, amEn := bitOf w 4, am := bitOf w 3 }
def scanArgs (w : Nat) : ScanArgs :=
  { arrays := maMask w, bank := maBank w, buf := bitOf w 39, fmtA := BitVec.ofNat 5 (bits w 34 5), m1 := BitVec.ofNat 7 (bits w 27 7),
    re := regAt w 22, rs1 := regAt w 15, rs2 := regAt w 10, rs3 := regAt w 5, ewsrc := bitOf w 4 }
def drainArgs (w : Nat) : DrainArgs :=
  { arrays := maMask w, bank := maBank w, ofmt := BitVec.ofNat 5 (bits w 35 5), first := BitVec.ofNat 7 (bits w 28 7),
    count1 := BitVec.ofNat 7 (bits w 21 7), rs1 := regAt w 16, rs2 := regAt w 11, rs3 := regAt w 6, clr := bitOf w 5, rndEn := bitOf w 4,
    rnd := bitOf w 3, scEn := bitOf w 2, sc := bitOf w 1 }

/-! ### Scalar integer and control, majors 0x00 to 0x08 (R133, R135) -/

/-- The operations that majors 0x00 and 0x01 share, with the second operand `b`. -/
def aluBoth (c : CoreId) (fn : Nat) (rd rs1 : Reg) (b : Opd) : Option Instr :=
  match fn with
  | 0x01 => some (.add c rd rs1 b)
  | 0x02 => some (.sub c rd rs1 b)
  | 0x03 => some (.and c rd rs1 b)
  | 0x04 => some (.or c rd rs1 b)
  | 0x05 => some (.xor c rd rs1 b)
  | 0x06 => named (shiftOk b) (.sll c rd rs1 b)
  | 0x07 => named (shiftOk b) (.srl c rd rs1 b)
  | 0x08 => named (shiftOk b) (.sra c rd rs1 b)
  | 0x09 => some (.slt c rd rs1 b)
  | 0x0A => some (.sltu c rd rs1 b)
  | 0x0B => some (.min c rd rs1 b)
  | 0x0C => some (.max c rd rs1 b)
  | 0x0D => some (.minu c rd rs1 b)
  | 0x0E => some (.maxu c rd rs1 b)
  | _ => none

/-- Major 0x00. -/
def aluReg (c : CoreId) (fn w : Nat) : Option Instr :=
  let rd := regAt w 45
  let rs1 := regAt w 40
  let rs2 := regAt w 35
  let two := clearAt w 0 35
  let one := clearAt w 0 40
  match fn with
  | 0x10 => named two (.mul c rd rs1 rs2)
  | 0x11 => named two (.mulh c rd rs1 rs2)
  | 0x12 => named two (.mulhu c rd rs1 rs2)
  | 0x14 => named two (.div c rd rs1 rs2)
  | 0x15 => named two (.divu c rd rs1 rs2)
  | 0x16 => named two (.rem c rd rs1 rs2)
  | 0x17 => named two (.remu c rd rs1 rs2)
  | 0x18 => named one (.clz c rd rs1)
  | 0x19 => named one (.ctz c rd rs1)
  | 0x1A => named one (.popc c rd rs1)
  | 0x1B => named (clearAt w 0 30) (.sel c rd rs1 rs2 (regAt w 30))
  | _ => if two then aluBoth c fn rd rs1 (.reg rs2) else none

/-- Control words that CWR reads (R130, R131). -/
def cwReadable (n : Nat) : Bool := cwWidth n != 0 || (decide (0x20 ≤ n) && decide (n ≤ 0x23))

/-- Majors 0x02 to 0x08. -/
def scalarWord (c : CoreId) (major fn w : Nat) : Option Instr :=
  let rd := regAt w 45
  let rs1 := regAt w 40
  let imm := imm40 w
  let cw : BitVec 12 := BitVec.ofNat 12 (bits w 28 12)
  let pos : Fin 4 := Fin.ofNat 4 (bits w 38 2)
  let lane : Fin 128 := Fin.ofNat 128 (bits w 31 7)
  let aligned := clearAt w 0 3
  match major, fn with
  | 0x02, 0x01 => named (clearAt w 40 5) (.li c rd imm)
  | 0x02, 0x02 => named (clearAt w 24 16) (.lih c rd rs1 (BitVec.ofNat 24 (bits w 0 24)))
  | 0x03, 0x01 => some (.ld8s c rd rs1 imm)
  | 0x03, 0x02 => some (.ld8u c rd rs1 imm)
  | 0x03, 0x03 => some (.ld16s c rd rs1 imm)
  | 0x03, 0x04 => some (.ld16u c rd rs1 imm)
  | 0x03, 0x05 => some (.ld32s c rd rs1 imm)
  | 0x03, 0x06 => some (.ld32u c rd rs1 imm)
  | 0x03, 0x07 => some (.ld64 c rd rs1 imm)
  | 0x04, 0x01 => some (.st8 c rd rs1 imm)
  | 0x04, 0x02 => some (.st16 c rd rs1 imm)
  | 0x04, 0x03 => some (.st32 c rd rs1 imm)
  | 0x04, 0x04 => some (.st64 c rd rs1 imm)
  | 0x05, 0x01 => named aligned (.beq c rd rs1 imm)
  | 0x05, 0x02 => named aligned (.bne c rd rs1 imm)
  | 0x05, 0x03 => named aligned (.blt c rd rs1 imm)
  | 0x05, 0x04 => named aligned (.bge c rd rs1 imm)
  | 0x05, 0x05 => named aligned (.bltu c rd rs1 imm)
  | 0x05, 0x06 => named aligned (.bgeu c rd rs1 imm)
  | 0x06, 0x01 => named (clearAt w 40 5 && aligned) (.jal c rd imm)
  | 0x06, 0x02 => some (.jalr c rd rs1 imm)
  | 0x07, 0x01 => named (clearAt w 0 28 && clearAt w 40 5 && cwReadable cw.toNat) (.cwr c rd cw)
  | 0x07, 0x02 => named (clearAt w 0 28 && clearAt w 45 5 && cwWritable cw.toNat) (.cww c rs1 cw)
  | 0x07, 0x03 => named (clearAt w 0 28 && clearAt w 40 5 && cw.toNat == cwFflags) (.cwrc c rd cw)
  | 0x08, 0x01 => named (clearAt w 0 40) (.movgf c rd rs1)
  | 0x08, 0x02 => named (clearAt w 0 40) (.movfg c rd rs1)
  | 0x08, 0x03 => named (clearAt w 0 31) (.getv c rd rs1 pos lane)
  | 0x08, 0x04 => named (clearAt w 0 31) (.putv c rd rs1 pos lane)
  | _, _ => none

/-! ### Scalar floating point, majors 0x10 to 0x14 (R138) -/

/-- The instruction and what its word may use: how many sources, a rounding step, P. -/
def floatOp (c : CoreId) (major fn : Nat) (a : FpArgs) : Option (Instr × Nat × Bool × Bool) :=
  match major, fn with
  | 0x10, 0x01 => some (.fadd c a, 2, true, true)
  | 0x10, 0x02 => some (.fsub c a, 2, true, true)
  | 0x10, 0x03 => some (.fmul c a, 2, true, true)
  | 0x10, 0x04 => some (.fdiv c a, 2, true, true)
  | 0x10, 0x05 => some (.fsqrt c a, 1, true, true)
  | 0x10, 0x06 => some (.fmin c a, 2, false, true)
  | 0x10, 0x07 => some (.fmax c a, 2, false, true)
  | 0x10, 0x08 => some (.fma c a, 3, true, true)
  | 0x10, 0x09 => some (.fms c a, 3, true, true)
  | 0x10, 0x0A => some (.fnma c a, 3, true, true)
  | 0x10, 0x0B => some (.fabs c a, 1, false, true)
  | 0x10, 0x0C => some (.fneg c a, 1, false, true)
  | 0x10, 0x0D => some (.fcpys c a, 2, false, true)
  | 0x11, 0x01 => some (.feq c a, 2, false, true)
  | 0x11, 0x02 => some (.flt c a, 2, false, true)
  | 0x11, 0x03 => some (.fle c a, 2, false, true)
  | 0x11, 0x04 => some (.fclass c a, 1, false, true)
  | 0x12, 0x01 => some (.fcvtsd c a, 1, true, false)
  | 0x12, 0x02 => some (.fcvtds c a, 1, false, false)
  | 0x12, 0x03 => some (.fcvti c a, 1, true, true)
  | 0x12, 0x04 => some (.fcvtu c a, 1, true, true)
  | 0x12, 0x05 => some (.fcvtfi c a, 1, true, true)
  | 0x12, 0x06 => some (.fcvtfu c a, 1, true, true)
  | _, _ => none

def floatWord (c : CoreId) (major fn w : Nat) : Option Instr :=
  let rd := regAt w 45
  let rs1 := regAt w 40
  let imm := imm40 w
  let imm32 : BitVec 32 := BitVec.ofNat 32 (bits w 0 32)
  match major, fn with
  | 0x13, 0x01 => some (.fld32 c rd rs1 imm)
  | 0x13, 0x02 => some (.fld64 c rd rs1 imm)
  | 0x13, 0x03 => some (.fst32 c rd rs1 imm)
  | 0x13, 0x04 => some (.fst64 c rd rs1 imm)
  | 0x14, 0x01 => named (clearAt w 40 5 && clearAt w 32 8) (.fli c rd imm32)
  | 0x14, 0x02 => named (clearAt w 32 8) (.flih c rd rs1 imm32)
  | _, _ =>
    match floatOp c major fn (fpArgs w) with
    | some (i, sources, rounds, p) => named (fpLegal (fpArgs w) sources rounds && (p || !bitOf w 29) && clearAt w 0 26) i
    | none => none

/-! ### Vector, majors 0x20 to 0x29 (R139) -/

def vecInstr (c : CoreId) (major fn : Nat) (a : VArgs) : Option (VOp × Instr) :=
  match major, fn with
  | 0x20, 0x01 => some (.vadd, .vadd c a)
  | 0x20, 0x02 => some (.vsub, .vsub c a)
  | 0x20, 0x03 => some (.vmul, .vmul c a)
  | 0x20, 0x04 => some (.vdiv, .vdiv c a)
  | 0x20, 0x05 => some (.vsqrt, .vsqrt c a)
  | 0x20, 0x06 => some (.vmin, .vmin c a)
  | 0x20, 0x07 => some (.vmax, .vmax c a)
  | 0x20, 0x08 => some (.vfma, .vfma c a)
  | 0x20, 0x09 => some (.vfms, .vfms c a)
  | 0x20, 0x0A => some (.vfnma, .vfnma c a)
  | 0x20, 0x0B => some (.vabs, .vabs c a)
  | 0x20, 0x0C => some (.vneg, .vneg c a)
  | 0x21, 0x01 => some (.viadd, .viadd c a)
  | 0x21, 0x02 => some (.visub, .visub c a)
  | 0x21, 0x03 => some (.vimul, .vimul c a)
  | 0x21, 0x04 => some (.vimulh, .vimulh c a)
  | 0x21, 0x05 => some (.vand, .vand c a)
  | 0x21, 0x06 => some (.vor, .vor c a)
  | 0x21, 0x07 => some (.vxor, .vxor c a)
  | 0x21, 0x08 => some (.vsll, .vsll c a)
  | 0x21, 0x09 => some (.vsrl, .vsrl c a)
  | 0x21, 0x0A => some (.vsra, .vsra c a)
  | 0x21, 0x0B => some (.vimin, .vimin c a)
  | 0x21, 0x0C => some (.vimax, .vimax c a)
  | 0x22, 0x01 => some (.vcmp, .vcmp c a)
  | 0x22, 0x02 => some (.mand, .mand c a)
  | 0x22, 0x03 => some (.mor, .mor c a)
  | 0x22, 0x04 => some (.mxor, .mxor c a)
  | 0x22, 0x05 => some (.mandn, .mandn c a)
  | 0x23, 0x01 => some (.vcvt, .vcvt c a)
  | 0x23, 0x02 => some (.vmov, .vmov c a)
  | 0x23, 0x03 => some (.vsel, .vsel c a)
  | 0x23, 0x04 => some (.vbcast, .vbcast c a)
  | 0x24, 0x01 => some (.vexp2, .vexp2 c a)
  | 0x24, 0x02 => some (.vlog2, .vlog2 c a)
  | 0x24, 0x03 => some (.vrcp, .vrcp c a)
  | 0x24, 0x04 => some (.vrsq, .vrsq c a)
  | 0x24, 0x05 => some (.vsin, .vsin c a)
  | 0x24, 0x06 => some (.vcos, .vcos c a)
  | 0x25, 0x01 => some (.vrsum, .vrsum c a)
  | 0x25, 0x02 => some (.vrmax, .vrmax c a)
  | 0x25, 0x03 => some (.vrmin, .vrmin c a)
  | 0x26, 0x01 => some (.smxInit, .vSmxInit c a)
  | 0x26, 0x02 => some (.smxStep, .vSmxStep c a)
  | 0x26, 0x03 => some (.smxMerge, .vSmxMerge c a)
  | 0x26, 0x04 => some (.smxRead, .vSmxRead c a)
  | 0x26, 0x05 => some (.smxWrite, .vSmxWrite c a)
  | 0x27, 0x01 => some (.vld, .vld c a)
  | 0x27, 0x02 => some (.vst, .vst c a)
  | 0x28, 0x01 => some (.vcg, .vCg c a)
  | 0x28, 0x02 => some (.vperm, .vperm c a)
  | 0x28, 0x03 => some (.vrot, .vrot c a)
  | 0x29, 0x01 => some (.vcwr, .vCwr c a)
  | 0x29, 0x02 => some (.vcww, .vCww c a)
  | 0x29, 0x03 => some (.vcwrc, .vCwrc c a)
  | _, _ => none

def vecWord (c : CoreId) (major fn w : Nat) : Option Instr :=
  match vecInstr c major fn (vArgs w) with
  | some (op, i) => named (vLegal op (vArgs w)) i
  | none => none

/-! ### Arrays, majors 0x30 to 0x34 (R149, R151) -/

def arrayWord (c : CoreId) (major fn w : Nat) : Option Instr :=
  match major, fn with
  | 0x30, 0x01 => named (clearAt w 0 25) (.maWload c (wloadArgs w))
  | 0x31, 0x01 => named (clearAt w 0 3) (.maMac c (macArgs w))
  | 0x32, 0x01 => named (clearAt w 0 4 && clearAt w 20 2 && (bitOf w 4 || clearAt w 22 5)) (.maScan c (scanArgs w))
  | 0x33, 0x01 => named (clearAt w 0 35) (.maAnchor c (maMask w) (maBank w) (regAt w 35))
  | 0x33, 0x02 => named (clearAt w 0 40) (.maZero c (maMask w) (maBank w))
  | 0x33, 0x03 => named (clearAt w 0 34) (.maFlags c (maMask w) (maBank w) (regAt w 35) (bitOf w 34))
  | 0x34, 0x01 => named (clearAt w 0 1) (.maDrain c (drainArgs w))
  | _, _ => none

/-! ### Transfer, synchronisation and frame control, majors 0x38 to 0x3E -/

def moveWord (c : CoreId) (major fn w : Nat) : Option Instr :=
  let r1 := regAt w 45
  let r2 := regAt w 40
  let r3 := regAt w 35
  let cnt31 : Fin 16 := Fin.ofNat 16 (bits w 31 4)
  let cnt29 : Fin 16 := Fin.ofNat 16 (bits w 29 4)
  let cnt26 : Fin 16 := Fin.ofNat 16 (bits w 26 4)
  let xfer : BitVec 12 := BitVec.ofNat 12 (bits w 33 12)
  match major, fn with
  | 0x38, 0x01 => named (clearAt w 0 31) (.xfMove c r1 r2 r3 cnt31)
  | 0x39, 0x01 => named (clearAt w 0 29) (.stSend c r1 xfer cnt29)
  | 0x39, 0x02 => named (clearAt w 0 29) (.stRecv c r1 xfer cnt29)
  | 0x3A, 0x01 => named (clearAt w 0 31) (.fyRd c r1 r2 r3 cnt31)
  | 0x3A, 0x02 => named (clearAt w 0 31) (.fyWr c r1 r2 r3 cnt31)
  | 0x3B, 0x01 => named (clearAt w 0 26 && clearAt w 30 5) (.fbRd c r1 r2 r3 cnt26)
  | 0x3B, 0x02 => named (clearAt w 0 26) (.fbWr c r1 r2 r3 (regAt w 30) cnt26)
  | 0x3B, 0x03 => named (clearAt w 0 22) (.fbAtom c r1 r2 r3 (regAt w 30) (regAt w 25) (BitVec.ofNat 3 (bits w 22 3)))
  | 0x3C, 0x01 => named (clearAt w 0 50) (.fend c)
  | 0x3C, 0x02 => named (clearAt w 0 37) (.sync c (maMask w) (BitVec.ofNat 4 (bits w 38 4)) (bitOf w 37))
  | 0x3C, 0x03 => named (clearAt w 0 41) (.waitc c (Fin.ofNat 16 (bits w 46 4)) (regAt w 41))
  | 0x3C, 0x04 => named (clearAt w 0 48) (.fence c (bitOf w 49) (bitOf w 48))
  | 0x3D, 0x01 => named (clearAt w 0 40) (.flagSet c r1 r2)
  | 0x3D, 0x02 => named (clearAt w 0 40) (.flagAdd c r1 r2)
  | 0x3D, 0x03 => named (clearAt w 0 38) (.flagWait c r1 r2 (BitVec.ofNat 2 (bits w 38 2)))
  | 0x3D, 0x04 => named (clearAt w 0 32 && clearAt w 40 5) (.barrier c r1 (BitVec.ofNat 8 (bits w 32 8)))
  | 0x3E, 0x01 => named (clearAt w 0 50) (.trap c)
  | 0x3E, 0x02 => named (clearAt w 0 50) (.tret c)
  | 0x3E, 0x03 => named (clearAt w 45 5 && clearAt w 0 40) (.ckmark c r2)
  | _, _ => none

/-! ### The word -/

/-- The instruction that word `w` names for core c (R122 to R127, R148): major in [63:58], fn in [57:50]. -/
def decodeWord (c : CoreId) (w : Nat) : Option Instr :=
  let major := bits w 58 6
  let fn := bits w 50 8
  if major = 0 then aluReg c fn w
  else if major = 1 then aluBoth c fn (regAt w 45) (regAt w 40) (.imm (imm40 w))
  else if major < 0x10 then scalarWord c major fn w
  else if major < 0x20 then floatWord c major fn w
  else if major < 0x30 then vecWord c major fn w
  else if major < 0x38 then arrayWord c major fn w
  else moveWord c major fn w

/-- The word at the pc of core c, little-endian, where its section holds one there (R112, R122). -/
def State.wordAtPc (s : State) (c : CoreId) : Option Nat :=
  let pc := (s.core c).pc.toNat
  if (s.core c).sect < pc + 8 then none else some (s.peek (s.progAddr c + pc) 8)

/-- The instruction that core c issues next: none where its word names none or there is none. -/
def State.nextInstr (s : State) (c : CoreId) : Option Instr :=
  match s.wordAtPc c with
  | some w => decodeWord c w
  | none => none

/-- ILLEGAL_WORD (R120, R124, R127): the word at pc names no instruction. A word that names one is issued by its own row. -/
def execIllegalWord (c : CoreId) (w : BitVec 64) (s : State) : Out :=
  match decodeWord c w.toNat with
  | some _ => .next s
  | none => .next (issueWith c [] (fun s => .trap s trIllegal 0) s)

end Sys2Proof.Machine
end

