-- ==== Sys2Proof/Machine/Dispatch.lean ====
section
/-!
DEFINITION. One arm per command: a direct call of its meaning.
-/
namespace Sys2Proof.Machine

open Sys2Proof

/-- The effect of a command on everything but the queue. -/
def exec (i : Instr) (s : State) : Host.Outcome State Fault Refusal :=
  match i with
  | .meshWindowStart isl w held => Sys2Proof.Machine.execMeshWindowStart isl w held s
  | .unitOpExecute isl u => Sys2Proof.Machine.execUnitOpExecute isl u s
  | .ifetchLineFill c line flip => Sys2Proof.Machine.execIfetchLineFill c line flip s
  | .deferredTrap isl u => Sys2Proof.Machine.execDeferredTrap isl u s
  | .add c rd rs1 b => Sys2Proof.Machine.execAdd c rd rs1 b s
  | .sub c rd rs1 b => Sys2Proof.Machine.execSub c rd rs1 b s
  | .and c rd rs1 b => Sys2Proof.Machine.execAnd c rd rs1 b s
  | .or c rd rs1 b => Sys2Proof.Machine.execOr c rd rs1 b s
  | .xor c rd rs1 b => Sys2Proof.Machine.execXor c rd rs1 b s
  | .sll c rd rs1 b => Sys2Proof.Machine.execSll c rd rs1 b s
  | .srl c rd rs1 b => Sys2Proof.Machine.execSrl c rd rs1 b s
  | .sra c rd rs1 b => Sys2Proof.Machine.execSra c rd rs1 b s
  | .slt c rd rs1 b => Sys2Proof.Machine.execSlt c rd rs1 b s
  | .sltu c rd rs1 b => Sys2Proof.Machine.execSltu c rd rs1 b s
  | .min c rd rs1 b => Sys2Proof.Machine.execMin c rd rs1 b s
  | .max c rd rs1 b => Sys2Proof.Machine.execMax c rd rs1 b s
  | .minu c rd rs1 b => Sys2Proof.Machine.execMinu c rd rs1 b s
  | .maxu c rd rs1 b => Sys2Proof.Machine.execMaxu c rd rs1 b s
  | .mul c rd rs1 rs2 => Sys2Proof.Machine.execMul c rd rs1 rs2 s
  | .mulh c rd rs1 rs2 => Sys2Proof.Machine.execMulh c rd rs1 rs2 s
  | .mulhu c rd rs1 rs2 => Sys2Proof.Machine.execMulhu c rd rs1 rs2 s
  | .div c rd rs1 rs2 => Sys2Proof.Machine.execDiv c rd rs1 rs2 s
  | .divu c rd rs1 rs2 => Sys2Proof.Machine.execDivu c rd rs1 rs2 s
  | .rem c rd rs1 rs2 => Sys2Proof.Machine.execRem c rd rs1 rs2 s
  | .remu c rd rs1 rs2 => Sys2Proof.Machine.execRemu c rd rs1 rs2 s
  | .clz c rd rs1 => Sys2Proof.Machine.execClz c rd rs1 s
  | .ctz c rd rs1 => Sys2Proof.Machine.execCtz c rd rs1 s
  | .popc c rd rs1 => Sys2Proof.Machine.execPopc c rd rs1 s
  | .sel c rd rs1 rs2 rs3 => Sys2Proof.Machine.execSel c rd rs1 rs2 rs3 s
  | .li c rd imm => Sys2Proof.Machine.execLi c rd imm s
  | .lih c rd rs1 imm => Sys2Proof.Machine.execLih c rd rs1 imm s
  | .ld8s c rd rs1 imm => Sys2Proof.Machine.execLd8s c rd rs1 imm s
  | .ld8u c rd rs1 imm => Sys2Proof.Machine.execLd8u c rd rs1 imm s
  | .ld16s c rd rs1 imm => Sys2Proof.Machine.execLd16s c rd rs1 imm s
  | .ld16u c rd rs1 imm => Sys2Proof.Machine.execLd16u c rd rs1 imm s
  | .ld32s c rd rs1 imm => Sys2Proof.Machine.execLd32s c rd rs1 imm s
  | .ld32u c rd rs1 imm => Sys2Proof.Machine.execLd32u c rd rs1 imm s
  | .ld64 c rd rs1 imm => Sys2Proof.Machine.execLd64 c rd rs1 imm s
  | .st8 c rt rs1 imm => Sys2Proof.Machine.execSt8 c rt rs1 imm s
  | .st16 c rt rs1 imm => Sys2Proof.Machine.execSt16 c rt rs1 imm s
  | .st32 c rt rs1 imm => Sys2Proof.Machine.execSt32 c rt rs1 imm s
  | .st64 c rt rs1 imm => Sys2Proof.Machine.execSt64 c rt rs1 imm s
  | .beq c rs1 rs2 off => Sys2Proof.Machine.execBeq c rs1 rs2 off s
  | .bne c rs1 rs2 off => Sys2Proof.Machine.execBne c rs1 rs2 off s
  | .blt c rs1 rs2 off => Sys2Proof.Machine.execBlt c rs1 rs2 off s
  | .bge c rs1 rs2 off => Sys2Proof.Machine.execBge c rs1 rs2 off s
  | .bltu c rs1 rs2 off => Sys2Proof.Machine.execBltu c rs1 rs2 off s
  | .bgeu c rs1 rs2 off => Sys2Proof.Machine.execBgeu c rs1 rs2 off s
  | .jal c rd off => Sys2Proof.Machine.execJal c rd off s
  | .jalr c rd rs1 off => Sys2Proof.Machine.execJalr c rd rs1 off s
  | .cwr c rd cw => Sys2Proof.Machine.execCwr c rd cw s
  | .cww c rs1 cw => Sys2Proof.Machine.execCww c rs1 cw s
  | .cwrc c rd cw => Sys2Proof.Machine.execCwrc c rd cw s
  | .movgf c rd rs1 => Sys2Proof.Machine.execMovgf c rd rs1 s
  | .movfg c rd rs1 => Sys2Proof.Machine.execMovfg c rd rs1 s
  | .getv c rd rs1 pos lane => Sys2Proof.Machine.execGetv c rd rs1 pos lane s
  | .putv c rd rs1 pos lane => Sys2Proof.Machine.execPutv c rd rs1 pos lane s
  | .fadd c a => Sys2Proof.Machine.execFadd c a s
  | .fsub c a => Sys2Proof.Machine.execFsub c a s
  | .fmul c a => Sys2Proof.Machine.execFmul c a s
  | .fdiv c a => Sys2Proof.Machine.execFdiv c a s
  | .fsqrt c a => Sys2Proof.Machine.execFsqrt c a s
  | .fmin c a => Sys2Proof.Machine.execFmin c a s
  | .fmax c a => Sys2Proof.Machine.execFmax c a s
  | .fma c a => Sys2Proof.Machine.execFma c a s
  | .fms c a => Sys2Proof.Machine.execFms c a s
  | .fnma c a => Sys2Proof.Machine.execFnma c a s
  | .fabs c a => Sys2Proof.Machine.execFabs c a s
  | .fneg c a => Sys2Proof.Machine.execFneg c a s
  | .fcpys c a => Sys2Proof.Machine.execFcpys c a s
  | .feq c a => Sys2Proof.Machine.execFeq c a s
  | .flt c a => Sys2Proof.Machine.execFlt c a s
  | .fle c a => Sys2Proof.Machine.execFle c a s
  | .fclass c a => Sys2Proof.Machine.execFclass c a s
  | .fcvtsd c a => Sys2Proof.Machine.execFcvtsd c a s
  | .fcvtds c a => Sys2Proof.Machine.execFcvtds c a s
  | .fcvti c a => Sys2Proof.Machine.execFcvti c a s
  | .fcvtu c a => Sys2Proof.Machine.execFcvtu c a s
  | .fcvtfi c a => Sys2Proof.Machine.execFcvtfi c a s
  | .fcvtfu c a => Sys2Proof.Machine.execFcvtfu c a s
  | .fld32 c rd rs1 imm => Sys2Proof.Machine.execFld32 c rd rs1 imm s
  | .fld64 c rd rs1 imm => Sys2Proof.Machine.execFld64 c rd rs1 imm s
  | .fst32 c rt rs1 imm => Sys2Proof.Machine.execFst32 c rt rs1 imm s
  | .fst64 c rt rs1 imm => Sys2Proof.Machine.execFst64 c rt rs1 imm s
  | .fli c rd imm => Sys2Proof.Machine.execFli c rd imm s
  | .flih c rd rs1 imm => Sys2Proof.Machine.execFlih c rd rs1 imm s
  | .vadd c a => Sys2Proof.Machine.execVadd c a s
  | .vsub c a => Sys2Proof.Machine.execVsub c a s
  | .vmul c a => Sys2Proof.Machine.execVmul c a s
  | .vdiv c a => Sys2Proof.Machine.execVdiv c a s
  | .vsqrt c a => Sys2Proof.Machine.execVsqrt c a s
  | .vmin c a => Sys2Proof.Machine.execVmin c a s
  | .vmax c a => Sys2Proof.Machine.execVmax c a s
  | .vfma c a => Sys2Proof.Machine.execVfma c a s
  | .vfms c a => Sys2Proof.Machine.execVfms c a s
  | .vfnma c a => Sys2Proof.Machine.execVfnma c a s
  | .vabs c a => Sys2Proof.Machine.execVabs c a s
  | .vneg c a => Sys2Proof.Machine.execVneg c a s
  | .viadd c a => Sys2Proof.Machine.execViadd c a s
  | .visub c a => Sys2Proof.Machine.execVisub c a s
  | .vimul c a => Sys2Proof.Machine.execVimul c a s
  | .vimulh c a => Sys2Proof.Machine.execVimulh c a s
  | .vand c a => Sys2Proof.Machine.execVand c a s
  | .vor c a => Sys2Proof.Machine.execVor c a s
  | .vxor c a => Sys2Proof.Machine.execVxor c a s
  | .vsll c a => Sys2Proof.Machine.execVsll c a s
  | .vsrl c a => Sys2Proof.Machine.execVsrl c a s
  | .vsra c a => Sys2Proof.Machine.execVsra c a s
  | .vimin c a => Sys2Proof.Machine.execVimin c a s
  | .vimax c a => Sys2Proof.Machine.execVimax c a s
  | .vcmp c a => Sys2Proof.Machine.execVcmp c a s
  | .mand c a => Sys2Proof.Machine.execMand c a s
  | .mor c a => Sys2Proof.Machine.execMor c a s
  | .mxor c a => Sys2Proof.Machine.execMxor c a s
  | .mandn c a => Sys2Proof.Machine.execMandn c a s
  | .vcvt c a => Sys2Proof.Machine.execVcvt c a s
  | .vmov c a => Sys2Proof.Machine.execVmov c a s
  | .vsel c a => Sys2Proof.Machine.execVsel c a s
  | .vbcast c a => Sys2Proof.Machine.execVbcast c a s
  | .vexp2 c a => Sys2Proof.Machine.execVexp2 c a s
  | .vlog2 c a => Sys2Proof.Machine.execVlog2 c a s
  | .vrcp c a => Sys2Proof.Machine.execVrcp c a s
  | .vrsq c a => Sys2Proof.Machine.execVrsq c a s
  | .vsin c a => Sys2Proof.Machine.execVsin c a s
  | .vcos c a => Sys2Proof.Machine.execVcos c a s
  | .vrsum c a => Sys2Proof.Machine.execVrsum c a s
  | .vrmax c a => Sys2Proof.Machine.execVrmax c a s
  | .vrmin c a => Sys2Proof.Machine.execVrmin c a s
  | .vSmxInit c a => Sys2Proof.Machine.execVSmxInit c a s
  | .vSmxStep c a => Sys2Proof.Machine.execVSmxStep c a s
  | .vSmxMerge c a => Sys2Proof.Machine.execVSmxMerge c a s
  | .vSmxRead c a => Sys2Proof.Machine.execVSmxRead c a s
  | .vSmxWrite c a => Sys2Proof.Machine.execVSmxWrite c a s
  | .vld c a => Sys2Proof.Machine.execVld c a s
  | .vst c a => Sys2Proof.Machine.execVst c a s
  | .vCg c a => Sys2Proof.Machine.execVCg c a s
  | .vperm c a => Sys2Proof.Machine.execVperm c a s
  | .vrot c a => Sys2Proof.Machine.execVrot c a s
  | .vCwr c a => Sys2Proof.Machine.execVCwr c a s
  | .vCww c a => Sys2Proof.Machine.execVCww c a s
  | .vCwrc c a => Sys2Proof.Machine.execVCwrc c a s
  | .maWload c a => Sys2Proof.Machine.execMaWload c a s
  | .maMac c a => Sys2Proof.Machine.execMaMac c a s
  | .maScan c a => Sys2Proof.Machine.execMaScan c a s
  | .maAnchor c arrays bank rs1 => Sys2Proof.Machine.execMaAnchor c arrays bank rs1 s
  | .maZero c arrays bank => Sys2Proof.Machine.execMaZero c arrays bank s
  | .maFlags c arrays bank rd clr => Sys2Proof.Machine.execMaFlags c arrays bank rd clr s
  | .maDrain c a => Sys2Proof.Machine.execMaDrain c a s
  | .xfMove c rd rs1 rs2 cnt => Sys2Proof.Machine.execXfMove c rd rs1 rs2 cnt s
  | .stSend c rs1 xfer cnt => Sys2Proof.Machine.execStSend c rs1 xfer cnt s
  | .stRecv c rs1 xfer cnt => Sys2Proof.Machine.execStRecv c rs1 xfer cnt s
  | .fyRd c rd rs1 rs2 cnt => Sys2Proof.Machine.execFyRd c rd rs1 rs2 cnt s
  | .fyWr c rd rs1 rs2 cnt => Sys2Proof.Machine.execFyWr c rd rs1 rs2 cnt s
  | .fbRd c rd rs1 rs2 cnt => Sys2Proof.Machine.execFbRd c rd rs1 rs2 cnt s
  | .fbWr c rd rs1 rs2 rs3 cnt => Sys2Proof.Machine.execFbWr c rd rs1 rs2 rs3 cnt s
  | .fbAtom c rd rs1 rs2 rs3 rs4 aop => Sys2Proof.Machine.execFbAtom c rd rs1 rs2 rs3 rs4 aop s
  | .transferComplete c no => Sys2Proof.Machine.execTransferComplete c no s
  | .fend c => Sys2Proof.Machine.execFend c s
  | .fendRetire c => Sys2Proof.Machine.execFendRetire c s
  | .sync c arrays vcs xfer => Sys2Proof.Machine.execSync c arrays vcs xfer s
  | .syncRetire c => Sys2Proof.Machine.execSyncRetire c s
  | .waitc c cnt rs1 => Sys2Proof.Machine.execWaitc c cnt rs1 s
  | .waitcRetire c => Sys2Proof.Machine.execWaitcRetire c s
  | .fence c fabric ferry => Sys2Proof.Machine.execFence c fabric ferry s
  | .fenceComplete c => Sys2Proof.Machine.execFenceComplete c s
  | .fenceTimeout c => Sys2Proof.Machine.execFenceTimeout c s
  | .flagSet c rs1 rs2 => Sys2Proof.Machine.execFlagSet c rs1 rs2 s
  | .flagAdd c rs1 rs2 => Sys2Proof.Machine.execFlagAdd c rs1 rs2 s
  | .releaseSignalSend c no => Sys2Proof.Machine.execReleaseSignalSend c no s
  | .flagWait c rs1 rs2 rel => Sys2Proof.Machine.execFlagWait c rs1 rs2 rel s
  | .flagWaitRetire c => Sys2Proof.Machine.execFlagWaitRetire c s
  | .barrier c rs1 count => Sys2Proof.Machine.execBarrier c rs1 count s
  | .trap c => Sys2Proof.Machine.execTrap c s
  | .tret c => Sys2Proof.Machine.execTret c s
  | .ckmark c rs1 => Sys2Proof.Machine.execCkmark c rs1 s
  | .illegalWord c w => Sys2Proof.Machine.execIllegalWord c w s
  | .registerWrite src off size value => Sys2Proof.Machine.execRegisterWrite src off size value s
  | .rcRead src off size => Sys2Proof.Machine.execRcRead src off size s
  | .lowerHalfRead src off => Sys2Proof.Machine.execLowerHalfRead src off s
  | .upperHalfRead src off => Sys2Proof.Machine.execUpperHalfRead src off s
  | .mgmtRegRead off width => Sys2Proof.Machine.execMgmtRegRead off width s
  | .mgmtRegWrite off width value => Sys2Proof.Machine.execMgmtRegWrite off width value s
  | .mgmtCommand record => Sys2Proof.Machine.execMgmtCommand record s
  | .warmReset plan => Sys2Proof.Machine.execWarmReset plan s
  | .coldReset plan => Sys2Proof.Machine.execColdReset plan s
  | .islandReset mask => Sys2Proof.Machine.execIslandReset mask s
  | .resetWaitsForStore plan => Sys2Proof.Machine.execResetWaitsForStore plan s
  | .fenceRequest mask => Sys2Proof.Machine.execFenceRequest mask s
  | .coolantWrite v => Sys2Proof.Machine.execCoolantWrite v s
  | .nodeWrite node => Sys2Proof.Machine.execNodeWrite node s
  | .rtInval v => Sys2Proof.Machine.execRtInval v s
  | .htSwitch => Sys2Proof.Machine.execHtSwitch  s
  | .htDrainEnd => Sys2Proof.Machine.execHtDrainEnd  s
  | .mboxGo write wide => Sys2Proof.Machine.execMboxGo write wide s
  | .portRingWrite src p value => Sys2Proof.Machine.execPortRingWrite src p value s
  | .kvCfgWrite i1 done v => Sys2Proof.Machine.execKvCfgWrite i1 done v s
  | .flipArm i1 msc v => Sys2Proof.Machine.execFlipArm i1 msc v s
  | .elogTailWrite i1 tail => Sys2Proof.Machine.execElogTailWrite i1 tail s
  | .runrecTailWrite src t tail => Sys2Proof.Machine.execRunrecTailWrite src t tail s
  | .stopAtWrite src t value => Sys2Proof.Machine.execStopAtWrite src t value s
  | .capWrite v => Sys2Proof.Machine.execCapWrite v s
  | .evlogAlertClear => Sys2Proof.Machine.execEvlogAlertClear  s
  | .i3cIbiAccept => Sys2Proof.Machine.execI3cIbiAccept  s
  | .powerValid plan => Sys2Proof.Machine.execPowerValid plan s
  | .moduleReady => Sys2Proof.Machine.execModuleReady  s
  | .calStore done moved => Sys2Proof.Machine.execCalStore done moved s
  | .calStoreRetry => Sys2Proof.Machine.execCalStoreRetry  s
  | .moduleSlotTick amps => Sys2Proof.Machine.execModuleSlotTick amps s
  | .tenancySlotTick t aligned trims => Sys2Proof.Machine.execTenancySlotTick t aligned trims s
  | .frameTick t aligned trims => Sys2Proof.Machine.execFrameTick t aligned trims s
  | .op0AlignStart t => Sys2Proof.Machine.execOp0AlignStart t s
  | .idleRingSample k => Sys2Proof.Machine.execIdleRingSample k s
  | .portRingSample p prod cplCons records => Sys2Proof.Machine.execPortRingSample p prod cplCons records s
  | .tenancyCreate src seq ten flags ops => Sys2Proof.Machine.execTenancyCreate src seq ten flags ops s
  | .tenancyReshape src seq ten flags ops => Sys2Proof.Machine.execTenancyReshape src seq ten flags ops s
  | .tenancyRelease src seq ten flags ops => Sys2Proof.Machine.execTenancyRelease src seq ten flags ops s
  | .zeroFillDone i1 => Sys2Proof.Machine.execZeroFillDone i1 s
  | .islandZeroed i1 => Sys2Proof.Machine.execIslandZeroed i1 s
  | .loadImage src seq ten flags ops image ok => Sys2Proof.Machine.execLoadImage src seq ten flags ops image ok s
  | .start src seq ten flags ops => Sys2Proof.Machine.execStart src seq ten flags ops s
  | .weightDigestDone t => Sys2Proof.Machine.execWeightDigestDone t s
  | .halt src seq ten flags ops => Sys2Proof.Machine.execHalt src seq ten flags ops s
  | .checkpoint src seq ten flags ops => Sys2Proof.Machine.execCheckpoint src seq ten flags ops s
  | .captureEnd t => Sys2Proof.Machine.execCaptureEnd t s
  | .restore src seq ten flags ops => Sys2Proof.Machine.execRestore src seq ten flags ops s
  | .setOp src seq ten flags ops => Sys2Proof.Machine.execSetOp src seq ten flags ops s
  | .query src seq ten flags ops => Sys2Proof.Machine.execQuery src seq ten flags ops s
  | .retirePage src seq ten flags ops => Sys2Proof.Machine.execRetirePage src seq ten flags ops s
  | .retireBank src seq ten flags ops => Sys2Proof.Machine.execRetireBank src seq ten flags ops s
  | .atomicStatus src seq ten flags ops => Sys2Proof.Machine.execAtomicStatus src seq ten flags ops s
  | .attest src seq ten flags ops => Sys2Proof.Machine.execAttest src seq ten flags ops s
  | .stageUpdate src seq ten flags ops => Sys2Proof.Machine.execStageUpdate src seq ten flags ops s
  | .stagingDone pkg => Sys2Proof.Machine.execStagingDone pkg s
  | .activate src seq ten flags ops => Sys2Proof.Machine.execActivate src seq ten flags ops s
  | .updateSwitchBegin => Sys2Proof.Machine.execUpdateSwitchBegin  s
  | .updateSwitchover good => Sys2Proof.Machine.execUpdateSwitchover good s
  | .updateCommit good cut => Sys2Proof.Machine.execUpdateCommit good cut s
  | .updateResume => Sys2Proof.Machine.execUpdateResume  s
  | .lockUpdates src seq ten flags ops => Sys2Proof.Machine.execLockUpdates src seq ten flags ops s
  | .pldmPackage pkg => Sys2Proof.Machine.execPldmPackage pkg s
  | .portReset p kind => Sys2Proof.Machine.execPortReset p kind s
  | .perstRelease p speed width flit clkmode => Sys2Proof.Machine.execPerstRelease p speed width flit clkmode s
  | .bar2Read p x len req => Sys2Proof.Machine.execBar2Read p x len req s
  | .bar2Write p x data mask poison => Sys2Proof.Machine.execBar2Write p x data mask poison s
  | .supplySample bus => Sys2Proof.Machine.execSupplySample bus s
  | .lowSupplyEnd => Sys2Proof.Machine.execLowSupplyEnd  s
  | .supplyUnder => Sys2Proof.Machine.execSupplyUnder  s
  | .overvoltageStop => Sys2Proof.Machine.execOvervoltageStop  s
  | .pwrMarginChange asserted => Sys2Proof.Machine.execPwrMarginChange asserted s
  | .converterFault n => Sys2Proof.Machine.execConverterFault n s
  | .enterStill => Sys2Proof.Machine.execEnterStill  s
  | .stillReached => Sys2Proof.Machine.execStillReached  s
  | .wake => Sys2Proof.Machine.execWake  s
  | .wakeEnd failed => Sys2Proof.Machine.execWakeEnd failed s
  | .shutdown => Sys2Proof.Machine.execShutdown  s
  | .refclkLost => Sys2Proof.Machine.execRefclkLost  s
  | .refclkRelock => Sys2Proof.Machine.execRefclkRelock  s
  | .calrefLost => Sys2Proof.Machine.execCalrefLost  s
  | .islandClockLoss i1 => Sys2Proof.Machine.execIslandClockLoss i1 s
  | .queueDrift i1 r drift => Sys2Proof.Machine.execQueueDrift i1 r drift s
  | .marginLow i1 r margin => Sys2Proof.Machine.execMarginLow i1 r margin s
  | .islandRejoin i1 failed => Sys2Proof.Machine.execIslandRejoin i1 failed s
  | .rejoinRetry i1 => Sys2Proof.Machine.execRejoinRetry i1 s
  | .sensorSample i1 readings shoalW rise => Sys2Proof.Machine.execSensorSample i1 readings shoalW rise s
  | .fastSamplingOff i1 => Sys2Proof.Machine.execFastSamplingOff i1 s
  | .thermTrip i1 sensor temp => Sys2Proof.Machine.execThermTrip i1 sensor temp s
  | .thermalRejoinReady i1 => Sys2Proof.Machine.execThermalRejoinReady i1 s
  | .sensorDistrust i1 sensor => Sys2Proof.Machine.execSensorDistrust i1 sensor s
  | .ilimRise i1 => Sys2Proof.Machine.execIlimRise i1 s
  | .capCheck power => Sys2Proof.Machine.execCapCheck power s
  | .hbmTempSample i1 n deg => Sys2Proof.Machine.execHbmTempSample i1 n deg s
  | .keeperHashExchange a b c => Sys2Proof.Machine.execKeeperHashExchange a b c s
  | .keeperCrcCheck k ok => Sys2Proof.Machine.execKeeperCrcCheck k ok s
  | .keeperWithdraw k cause outvotes => Sys2Proof.Machine.execKeeperWithdraw k cause outvotes s
  | .keeperDisagree => Sys2Proof.Machine.execKeeperDisagree  s
  | .laneFail b sender plane lane => Sys2Proof.Machine.execLaneFail b sender plane lane s
  | .mzElementFail phys => Sys2Proof.Machine.execMzElementFail phys s
  | .combLineFail i1 chip lanes => Sys2Proof.Machine.execCombLineFail i1 chip lanes s
  | .bondCopyDrop i1 kind pair => Sys2Proof.Machine.execBondCopyDrop i1 kind pair s
  | .ringSweep b plane lane ok => Sys2Proof.Machine.execRingSweep b plane lane ok s
  | .ferryWindow => Sys2Proof.Machine.execFerryWindow  s
  | .ferryArbitration p noise => Sys2Proof.Machine.execFerryArbitration p noise s
  | .grantFrameRx b p noise0 noise1 => Sys2Proof.Machine.execGrantFrameRx b p noise0 noise1 s
  | .ferryFlitRx p d lane noise => Sys2Proof.Machine.execFerryFlitRx p d lane noise s
  | .ferryPacketDeliver b src tile vc => Sys2Proof.Machine.execFerryPacketDeliver b src tile vc s
  | .sameTileServe b => Sys2Proof.Machine.execSameTileServe b s
  | .segmentRx b plane lane late light noise => Sys2Proof.Machine.execSegmentRx b plane lane late light noise s
  | .repairNoticePost t l k u => Sys2Proof.Machine.execRepairNoticePost t l k u s
  | .repairResend b => Sys2Proof.Machine.execRepairResend b s
  | .stTxBufferFill t l => Sys2Proof.Machine.execStTxBufferFill t l s
  | .stRecvComplete t x rcv => Sys2Proof.Machine.execStRecvComplete t x rcv s
  | .stSendComplete t x snd => Sys2Proof.Machine.execStSendComplete t x snd s
  | .bondFlitRx i1 g sends noise => Sys2Proof.Machine.execBondFlitRx i1 g sends noise s
  | .shoalEccWriteback i1 word => Sys2Proof.Machine.execShoalEccWriteback i1 word s
  | .hbmRead i1 off req e => Sys2Proof.Machine.execHbmRead i1 off req e s
  | .hbmWrite i1 off req w => Sys2Proof.Machine.execHbmWrite i1 off req w s
  | .stackRecovery i1 n failed => Sys2Proof.Machine.execStackRecovery i1 n failed s
  | .rebuildPage i1 n e => Sys2Proof.Machine.execRebuildPage i1 n e s
  | .scrubPage i1 n e => Sys2Proof.Machine.execScrubPage i1 n e s
  | .scrubLapSlow i1 n => Sys2Proof.Machine.execScrubLapSlow i1 n s
  | .dmaMove ch w ok => Sys2Proof.Machine.execDmaMove ch w ok s
  | .dmaGather ch w ok => Sys2Proof.Machine.execDmaGather ch w ok s
  | .dmaScatter ch w ok => Sys2Proof.Machine.execDmaScatter ch w ok s
  | .dmaLoop ch w ok => Sys2Proof.Machine.execDmaLoop ch w ok s
  | .dmaEndloop ch w ok => Sys2Proof.Machine.execDmaEndloop ch w ok s
  | .dmaWait ch w ok => Sys2Proof.Machine.execDmaWait ch w ok s
  | .dmaWaitSatisfied ch => Sys2Proof.Machine.execDmaWaitSatisfied ch s
  | .dmaSignal ch w ok => Sys2Proof.Machine.execDmaSignal ch w ok s
  | .dmaFence ch w ok => Sys2Proof.Machine.execDmaFence ch w ok s
  | .dmaStop ch w ok => Sys2Proof.Machine.execDmaStop ch w ok s
  | .dmaLineReturn ch host => Sys2Proof.Machine.execDmaLineReturn ch host s
  | .dmaWriteAck ch => Sys2Proof.Machine.execDmaWriteAck ch s
  | .dmaHalt ch => Sys2Proof.Machine.execDmaHalt ch s
  | .dmaCtlStart p c => Sys2Proof.Machine.execDmaCtlStart p c s
  | .dmaCtlResume p c => Sys2Proof.Machine.execDmaCtlResume p c s
  | .dmaCtlAbort p c => Sys2Proof.Machine.execDmaCtlAbort p c s
  | .kvDescriptorTake i1 => Sys2Proof.Machine.execKvDescriptorTake i1 s
  | .kvWalkComplete i1 => Sys2Proof.Machine.execKvWalkComplete i1 s
  | .linkTargetWrite src k target => Sys2Proof.Machine.execLinkTargetWrite src k target s
  | .linkRetrainWrite src k => Sys2Proof.Machine.execLinkRetrainWrite src k s
  | .linkReset src k => Sys2Proof.Machine.execLinkReset src k s
  | .linkTrainStep k i1 => Sys2Proof.Machine.execLinkTrainStep k i1 s
  | .linkTrainTimeout k => Sys2Proof.Machine.execLinkTrainTimeout k s
  | .linkTrainRetry k => Sys2Proof.Machine.execLinkTrainRetry k s
  | .linkFlitTx k => Sys2Proof.Machine.execLinkFlitTx k s
  | .linkFlitRx k pos cw => Sys2Proof.Machine.execLinkFlitRx k pos cw s
  | .linkNakRepeat k => Sys2Proof.Machine.execLinkNakRepeat k s
  | .linkRxTimeout k => Sys2Proof.Machine.execLinkRxTimeout k s
  | .linkRetrainTimeout k => Sys2Proof.Machine.execLinkRetrainTimeout k s
  | .linkMapSwitch k tx => Sys2Proof.Machine.execLinkMapSwitch k tx s
  | .linkRelockTimeout k pos => Sys2Proof.Machine.execLinkRelockTimeout k pos s
  | .linkQuietTimeout k => Sys2Proof.Machine.execLinkQuietTimeout k s
  | .linkWake k peer => Sys2Proof.Machine.execLinkWake k peer s
  | .fabricForward k => Sys2Proof.Machine.execFabricForward k s
  | .fabricRequestArrive k => Sys2Proof.Machine.execFabricRequestArrive k s
  | .fabricResponse k => Sys2Proof.Machine.execFabricResponse k s
  | .fabricRetryTimeout tag => Sys2Proof.Machine.execFabricRetryTimeout tag s
  | .fabricBusyResend tag => Sys2Proof.Machine.execFabricBusyResend tag s
  | .sourceContextFree unit node dunit vc => Sys2Proof.Machine.execSourceContextFree unit node dunit vc s
  | .destContextFree node unit dunit vc => Sys2Proof.Machine.execDestContextFree node unit dunit vc s
  | .sendWindowReset unit node => Sys2Proof.Machine.execSendWindowReset unit node s
  | .atomicUnknownExpire tag => Sys2Proof.Machine.execAtomicUnknownExpire tag s
  | .astatQuerySend tag => Sys2Proof.Machine.execAstatQuerySend tag s
  | .astatQueryRetry tag => Sys2Proof.Machine.execAstatQueryRetry tag s
  | .stallLong isl src resource => Sys2Proof.Machine.execStallLong isl src resource s
  | .inputDigestDone t => Sys2Proof.Machine.execInputDigestDone t s
  | .undervoltageStop => Sys2Proof.Machine.execUndervoltageStop  s
  | .stoppingRailsFall => Sys2Proof.Machine.execStoppingRailsFall  s
  | .linkLaserLow k lane => Sys2Proof.Machine.execLinkLaserLow k lane s

end Sys2Proof.Machine
end

