-- ==== Sys2Proof/Safety.lean ====
section
/-!
DEFINITION. What statements say of outcomes and states: a command completes, a state is well kept, a scalar core issues an
instruction and what the instruction leaves behind.
-/
namespace Sys2Proof.Machine

open Sys2Proof

/-- The outcome is a next state, and `p` holds of it. -/
def Gives (o : Host.Outcome State Fault Refusal) (p : State → Prop) : Prop := ∃ t, o = .next t ∧ p t

/-- Memory keeps its one canonical form. -/
def State.Tidy (s : State) : Prop := Memory.wf s.mem = true

/-- Every byte of memory reads as before. -/
def State.SameMem (s t : State) : Prop := ∀ b, t.byte b = s.byte b

/-- Every byte of memory reads as before, but those of `n` bytes from `a`. -/
def State.SameMemBut (s t : State) (a n : Nat) : Prop := ∀ b, ¬ (a ≤ b ∧ b < a + n) → t.byte b = s.byte b

/-! ### Scalar cores -/

/-- The word of the scalar register file carries no flipped bit and no poison mark; g0 is no word (R110, R129). -/
def State.Sound (s : State) (c : CoreId) (r : SReg) : Prop :=
  r = .g 0 ∨ (s.check (r.at c) false = .good ∧ s.marked c r = false)

/-- Core `c` issues its next instruction, and nothing keeps it from its effect: it may issue, the pc is inside its program
section, its line is cached or its fetch not refused, and not bad, and every word of `srcs`, which the instruction reads, is
sound and not waited for. -/
def State.Issues (s : State) (c : CoreId) (srcs : List SReg) : Prop :=
  s.canIssue c = true ∧ (s.core c).pc.toNat + 8 ≤ (s.core c).sect ∧
  ((s.core c).icache.any (fun e => e.1 == lineOf (s.core c).pc) = true ∨ s.fetchRefused c (lineOf (s.core c).pc) = false) ∧
  (s.core c).icache.get false (lineOf (s.core c).pc) = false ∧
  (∀ r ∈ srcs, s.Sound c r) ∧ (∀ r ∈ srcs, (s.core c).waitsFor r = false)

/-- Only the core itself, its register file's flipped words and the flip control of its island have changed. -/
def State.CoreOnly (s t : State) (c : CoreId) : Prop :=
  t = { s with cores := t.cores, flips := t.flips, regs := t.regs } ∧
  (∀ d, d ≠ c → t.core d = s.core d) ∧
  (∀ f : Fld, f.key ≠ (IS_FLIP_CTL_ARM c.isl).key → f.key ≠ (IS_FLIP_CTL_DONE c.isl).key → t.fld f = s.fld f)

/-- The instruction has written `v` to g[rd] (nothing, where rd is g0), cleared its poison mark and gone on to `pc`: every
other register, every control word and everything outside the core stands. -/
def State.WroteG (s t : State) (c : CoreId) (rd : Reg) (v pc : Word) : Prop :=
  (t.core c).gGet rd = (if rd = 0 then 0 else v) ∧ t.marked c (.g rd) = false ∧
  (∀ r, r ≠ rd → (t.core c).gGet r = (s.core c).gGet r ∧ t.marked c (.g r) = s.marked c (.g r)) ∧
  (t.core c).f = (s.core c).f ∧ (t.core c).pf = (s.core c).pf ∧ (t.core c).cw = (s.core c).cw ∧
  (t.core c).pc = pc ∧ (t.core c).wait = (s.core c).wait ∧ s.CoreOnly t c

/-- The same of f[rd]; cw.fflags has gained the bits of `fl` (R109, R129). -/
def State.WroteF (s t : State) (c : CoreId) (rd : Reg) (v : Word) (fl : Nat) (pc : Word) : Prop :=
  (t.core c).fGet rd = v ∧ t.marked c (.f rd) = false ∧
  (∀ r, r ≠ rd → (t.core c).fGet r = (s.core c).fGet r ∧ t.marked c (.f r) = s.marked c (.f r)) ∧
  (t.core c).g = (s.core c).g ∧ (t.core c).pg = (s.core c).pg ∧
  (∀ k, k < 5 → ((t.core c).cwGet cwFflags).getLsbD k = (((s.core c).cwGet cwFflags).getLsbD k || fl.testBit k)) ∧
  (∀ n, n ≠ cwFflags → (t.core c).cwGet n = (s.core c).cwGet n) ∧
  (t.core c).pc = pc ∧ (t.core c).wait = (s.core c).wait ∧ s.CoreOnly t c

/-- Control word `n` takes the low bits of `v` that it has; every other word of the core and everything outside it stands
(R130, R131). -/
def State.WroteCw (s t : State) (c : CoreId) (n : Nat) (v pc : Word) : Prop :=
  (t.core c).cwGet n = BitVec.ofNat 64 (v.toNat % 2 ^ cwWidth n) ∧ t.marked c (.cw n) = false ∧
  (∀ k, k ≠ n → (t.core c).cwGet k = (s.core c).cwGet k) ∧ (t.core c).g = (s.core c).g ∧ (t.core c).f = (s.core c).f ∧
  (t.core c).pc = pc ∧ (t.core c).wait = (s.core c).wait ∧ s.CoreOnly t c

/-- Core `c` has taken a trap (R116 to R118): cause, pc, value and the in-handler bit are saved, the trap counted; it
continues in HANDLER at cw.tvec, or, where it was in a handler already or cw.tvec is zero, it is STOPPED with IS_SC_TRAP
recording the trap and EV_SC_TRAP raised (cw.tvec and cw.tstat, read through the checker, being sound: R110). Registers, memory
and the other cores stand. -/
def State.Trapped (s t : State) (c : CoreId) (cause : Nat) (tpc tval : Word) (deferred : Bool) : Prop :=
  (t.core c).cwGet cwTcause = BitVec.ofNat 64 (cause % 256) ∧ (t.core c).cwGet cwTpc = tpc ∧ (t.core c).cwGet cwTval = tval ∧
  (t.core c).cwGet cwTstat = (if deferred then 3 else 1) ∧ (t.core c).wait = .none ∧
  t.fld (IS_SC_TRAP_TRAPS c.isl c.sc) = min (s.fld (IS_SC_TRAP_TRAPS c.isl c.sc) + 1) (2 ^ (IS_SC_TRAP_TRAPS c.isl c.sc).w - 1) ∧
  (s.Sound c (.cw cwTvec) → s.Sound c (.cw cwTstat) → if (s.core c).inTrap ∨ (s.core c).cwGet cwTvec = 0 then
    t.scState c = stStopped ∧ (t.core c).pc = (s.core c).pc ∧
    t.fld (IS_SC_TRAP_CAUSE c.isl c.sc) = cause % 2 ^ (IS_SC_TRAP_CAUSE c.isl c.sc).w ∧
    t.fld (IS_SC_TRAP_DEFERRED c.isl c.sc) = (if deferred then 1 else 0) ∧
    t.fld (IS_SC_TRAP_TPC c.isl c.sc) = tpc.toNat % 2 ^ 32 ∧
    t.arisen.any (fun e => e.code == 0x3003 && e.isl == c.isl && e.src == srcIx 1 c.sc)
  else
    t.scState c = stHandler ∧ (t.core c).pc = BitVec.ofNat 64 (((s.core c).cwGet cwTvec).toNat / 8 * 8)) ∧
  (t.core c).g = (s.core c).g ∧ (t.core c).f = (s.core c).f ∧ (∀ d, d ≠ c → t.core d = s.core d) ∧ t.mem = s.mem

/-- The line of memory at `a` (a multiple of 128) can be read: none of its words is flipped or poisoned, and neither the line nor
its stored CRC has changed since it was stored (R137, R189, R288). -/
def State.CleanLine (s : State) (a : Nat) : Prop :=
  (∀ w ∈ lineWords a, s.check (.mem w) true = .good ∧ s.poisoned w = false) ∧
  (s.pageDamage a).line (lineIx a) = 0 ∧ (s.pageDamage a).crcs.get 0 (lineIx a) = 0

/-- What a dirty line leaves in memory when it goes out of the memory-side cache is what it holds: no check passes a wrong word of
it, and nothing has changed in its page (R281, R288, R289). -/
def State.CalmCache (s : State) : Prop :=
  ∀ e ∈ s.msc, e.2.dirty = true → s.pageDamage e.1 = {} ∧ ∀ w ∈ lineWords e.1, ∀ v, s.check (.mem w) true ≠ .wrong v

/-- A load has written `v` to g[rd]: other registers, the control words and the other cores stand, and so does every
byte of memory, whatever line goes out of the memory-side cache for the line read. -/
def State.LoadedG (s t : State) (c : CoreId) (rd : Reg) (v : Word) : Prop :=
  (t.core c).gGet rd = (if rd = 0 then 0 else v) ∧ t.marked c (.g rd) = false ∧
  (∀ r, r ≠ rd → (t.core c).gGet r = (s.core c).gGet r) ∧ (t.core c).f = (s.core c).f ∧ (t.core c).cw = (s.core c).cw ∧
  (t.core c).pc = (s.core c).pc + 8 ∧ (∀ d, d ≠ c → t.core d = s.core d) ∧ s.SameMem t

/-- The same of f[rd]. -/
def State.LoadedF (s t : State) (c : CoreId) (rd : Reg) (v : Word) : Prop :=
  (t.core c).fGet rd = v ∧ t.marked c (.f rd) = false ∧
  (∀ r, r ≠ rd → (t.core c).fGet r = (s.core c).fGet r) ∧ (t.core c).g = (s.core c).g ∧ (t.core c).cw = (s.core c).cw ∧
  (t.core c).pc = (s.core c).pc + 8 ∧ (∀ d, d ≠ c → t.core d = s.core d) ∧ s.SameMem t

/-! ### Units -/

/-- The instruction stands at the end of the queue of every unit in `us` that does not discard, with its issue number, core and
pc; the core has gone on; nothing else has changed (R107, R108, R117). -/
def State.Queued (s t : State) (c : CoreId) (us : List UnitId) (op : UnitId → UnitOp) : Prop :=
  (∀ u ∈ us, t.issue c.isl u = if (s.issue c.isl u).discard then s.issue c.isl u else
    { s.issue c.isl u with queue := (s.issue c.isl u).queue ++ [⟨(s.core c).issueNo, c.sc, (s.core c).pc, op u⟩] }) ∧
  (∀ u, u ∉ us → t.issue c.isl u = s.issue c.isl u) ∧ (∀ (i : Fin 16) (u : UnitId), i ≠ c.isl → t.issue i u = s.issue i u) ∧
  (∀ (i : Fin 16) (j : Fin 64), t.arr i j = { s.arr i j with iss := (t.arr i j).iss }) ∧
  (∀ (i : Fin 16) (j : Fin 32), t.vc i j = { s.vc i j with iss := (t.vc i j).iss }) ∧
  t.core c = { s.core c with pc := (s.core c).pc + 8, issueNo := (s.core c).issueNo + 1 } ∧
  t = { s with cores := t.cores, arrays := t.arrays, vcores := t.vcores } ∧ ∀ d, d ≠ c → t.core d = s.core d

/-- The vector cores an instruction names. -/
def vecUnits (c : CoreId) (a : VArgs) : List UnitId := (groupVecs c.sc a.cores.toNat).map .vec

/-- A vector instruction issues: the core issues it, it is legal, its operands are allowed, no named queue is full, and cw.seed is
sound where V.CG captures it (R108, R110, R127, R128). -/
def State.VecReady (s : State) (c : CoreId) (op : VOp) (a : VArgs) : Prop :=
  s.Issues c (vSrcs op a) ∧ vLegal op a = true ∧
  vOperandOk op a (vCapture op a (s.core c)).1 (vCapture op a (s.core c)).2 = true ∧
  (∀ u ∈ vecUnits c a, (s.issue c.isl u).queue.length < 16) ∧ (op = .vcg → s.Sound c (.cw cwSeed))

/-- Each vector core named has the instruction with the operands captured at issue: the scalar values of vs1 and vs2, cw.seed,
cw.step, and its position in the group (R132, R139, R145). -/
def State.QueuedVec (s t : State) (c : CoreId) (op : VOp) (a : VArgs) : Prop :=
  s.Queued t c (vecUnits c a) (fun u => .vec op a (vCapture op a (s.core c)).1 (vCapture op a (s.core c)).2
    ((s.core c).cwGet cwSeed) (s.stepWord c.isl) (match u with | .vec j => j.val % 4 | .array _ => 0) false)

/-- No named array's queue is full (R108). -/
def State.ArrRoom (s : State) (c : CoreId) (m : BitVec 8) : Prop := ∀ u ∈ arrUnits c m, (s.issue c.isl u).queue.length < 16

/-- Only scalar core `c` has changed, to `x`. -/
def State.CoreStep (s t : State) (c : CoreId) (x : Core) : Prop :=
  t.core c = x ∧ (∀ d, d ≠ c → t.core d = s.core d) ∧ t = { s with cores := t.cores }

/-! ### Registers and events -/

/-- What a read of the register at `off` shows (R4, R6): the word of a window, or the fields as they stand, write-only ones as zero. -/
def State.shown (s : State) (off : Nat) : Nat :=
  match s.windowWord off with
  | some x => x
  | none => (s.refresh off).fieldsWord ((s.fieldsAt off).filter Fld.shows)

/-- Every register field but those of `l` reads as before. -/
def State.RegsBut (s t : State) (l : List Fld) : Prop := ∀ f : Fld, (∀ g ∈ l, g.key ≠ f.key) → t.fld f = s.fld f

/-- A saturating counter has advanced by `n`; every other register reads as before. -/
def State.Counted (s t : State) (f : Fld) (n : Nat) : Prop := t.fld f = min (s.fld f + n) (2 ^ f.w - 1) ∧ s.RegsBut t [f]

/-- A read has cleared the RC fields of `l` that lie in bits [lo, hi) of the register (R6); nothing else of the module has
changed but what left it, the read latch, the alert line and the count of free values. -/
def State.ClearedRc (s t : State) (l : List Fld) (lo hi : Nat) : Prop :=
  (∀ f ∈ l, f.acc = .rc → lo ≤ f.lo → f.lo + f.w ≤ hi → t.fld f = 0) ∧
  s.RegsBut t (l.filter (fun f => f.acc == .rc)) ∧
  ((l.map Fld.key).Nodup → ∀ f ∈ l, f.lo + f.w ≤ lo ∨ hi ≤ f.lo → s.fld f < 2 ^ f.w → t.fld f = s.fld f) ∧
  t = { s with regs := t.regs, out := t.out, latch := t.latch, alertN := t.alertN, freeCtr := t.freeCtr }

/-- The fields of a register of a block above the tenancies': they lie apart, inside 64 bits. -/
def Apart (l : List Fld) : Prop :=
  (l.map Fld.key).Nodup ∧ ∀ f ∈ l, 0 < f.w ∧ f.lo + f.w ≤ 64 ∧ 0x400000 ≤ f.off

/-- An event of this code, island, source and detail has arisen since. -/
def State.Arose (s t : State) (code isl src detail : Nat) : Prop :=
  t.arisen = addEv { code := code, isl := isl, src := src, detail := detail } s.arisen

/-! ### DMA channels -/

/-- Channel `ch` fetches its next instruction: it may, the index is inside its program, and the program's line reads well. -/
def State.Fetches (s : State) (ch : Nat) (ok : Bool) (z : State) : Prop :=
  s.dmaReady ch = true ∧ (s.ch ch).fetch < s.chLength ch ∧ s.dmaFetch ch ok = (0, z)

/-- The instruction fetched joins those under way, and the channel goes on at `next` with `loops` open. -/
def State.dmaTook (s : State) (ch next : Nat) (loops : List DLoop) (op : DOp) : State :=
  let c := s.ch ch
  s.setCh ch { c with acts := c.acts ++ [⟨c.actNo, c.fetch, next, op⟩], actNo := c.actNo + 1, fetch := next, loops := loops }

/-! ### Host commands -/

/-- A row of the host command set brings command `c` to its queue, where it stands alone: the module takes commands, the queue
is open, SEQ is new. `w`: the command taken; `z`: it begins, its checks passed (R428 to R432, R436). -/
def State.Begins (s : State) (op : Nat) (src : CmdSrc) (seq : BitVec 64) (ten : Fin 16) (flags : BitVec 8) (ops : BitVec 384)
    (w z : State) (c : HCmd) : Prop :=
  let key := match src with | .ten t => t.val | .port p => 16 + p.val | .mgmt => mgmtKey op ten
  let mgmt := match src with | .mgmt => true | _ => false
  let r := s.ring key
  let last := match src with | .mgmt => s.mgmtSeq | _ => s.lastSeq key
  c = { key := key, mgmt := mgmt, cnt := if mgmt then s.mgmtCnt else r.cons, op := op, flags := flags.toNat, ten := ten,
        seq := seq.toNat, ops := ops.toNat } ∧
  s.takes = true ∧ r.cur = none ∧ r.q = [] ∧ last < seq.toNat ∧
  (match src with
    | .ten t => s.tn t ≠ tnFree
    | .port p => s.fld (HP_PORT_RING_ENABLE p) = 1
    | .mgmt => True) ∧
  w = (match src with
    | .mgmt => { s with mgmtCnt := s.mgmtCnt + 1 }.accept c
    | _ => ((s.setRing key { r with cons := (r.cons + 1) % 2 ^ 64 }).accept c).ringPut key 0x10 8 ((r.cons + 1) % 2 ^ 64)) ∧
  w.takes = true ∧ w.asleep = false ∧ (w.ring key).cur = none ∧ (w.ring key).q = [c] ∧ w.cmdCheck c = 0 ∧ w.capWaits c = false ∧
  z = w.setRing key { w.ring key with q := [], cur := some c } ∧ z.cmdCheck c = 0

/-- After the command the queue goes on, unless the command waits (R430). -/
def State.goesOn (s : State) (key : Nat) (img : Option (List Byte × Bool)) : State :=
  if (s.ring key).cur.isNone then State.ringGo key img 2 s else s

end Sys2Proof.Machine
end

