-- ==== Sys2Proof/Certificates/Slice0/Obligations.lean ====
section
/-!
DEFINITION. The statements for the provers.
-/
open Sys2Proof Sys2Proof.Machine

/-! ### Scalar cores: integer and control (R133 to R135, R175) -/

/-- R133: ADD, SUB, AND, OR, XOR, SLT, SLTU, MIN, MAX, MINU, MAXU write their result to g[rd] and change nothing else. -/
def Obligations.ScalarAluResult : Prop :=
  ∀ (c : CoreId) (rd rs1 : Reg) (b : Opd) (s : State), s.Issues c (.g rs1 :: opdSrcs b) →
    let x := (s.core c).gGet rs1
    let y := opdVal (s.core c) b
    let pc := (s.core c).pc + 8
    Gives (exec (.add c rd rs1 b) s) (fun t => s.WroteG t c rd (x + y) pc) ∧
    Gives (exec (.sub c rd rs1 b) s) (fun t => s.WroteG t c rd (x - y) pc) ∧
    Gives (exec (.and c rd rs1 b) s) (fun t => s.WroteG t c rd (x &&& y) pc) ∧
    Gives (exec (.or c rd rs1 b) s) (fun t => s.WroteG t c rd (x ||| y) pc) ∧
    Gives (exec (.xor c rd rs1 b) s) (fun t => s.WroteG t c rd (x ^^^ y) pc) ∧
    Gives (exec (.slt c rd rs1 b) s) (fun t => s.WroteG t c rd (if x.toInt < y.toInt then 1 else 0) pc) ∧
    Gives (exec (.sltu c rd rs1 b) s) (fun t => s.WroteG t c rd (if x.toNat < y.toNat then 1 else 0) pc) ∧
    Gives (exec (.min c rd rs1 b) s) (fun t => s.WroteG t c rd (if x.toInt ≤ y.toInt then x else y) pc) ∧
    Gives (exec (.max c rd rs1 b) s) (fun t => s.WroteG t c rd (if y.toInt ≤ x.toInt then x else y) pc) ∧
    Gives (exec (.minu c rd rs1 b) s) (fun t => s.WroteG t c rd (if x.toNat ≤ y.toNat then x else y) pc) ∧
    Gives (exec (.maxu c rd rs1 b) s) (fun t => s.WroteG t c rd (if y.toNat ≤ x.toNat then x else y) pc)

/-- R133, R134: the multiplications and divisions, with division by zero and −2^63 by −1. -/
def Obligations.ScalarMulDivResult : Prop :=
  ∀ (c : CoreId) (rd rs1 rs2 : Reg) (s : State), s.Issues c [.g rs1, .g rs2] →
    let x := (s.core c).gGet rs1
    let y := (s.core c).gGet rs2
    let pc := (s.core c).pc + 8
    Gives (exec (.mul c rd rs1 rs2) s) (fun t => s.WroteG t c rd (x * y) pc) ∧
    Gives (exec (.mulh c rd rs1 rs2) s) (fun t => s.WroteG t c rd ((x.signExtend 128 * y.signExtend 128).extractLsb' 64 64) pc) ∧
    Gives (exec (.mulhu c rd rs1 rs2) s) (fun t => s.WroteG t c rd ((x.setWidth 128 * y.setWidth 128).extractLsb' 64 64) pc) ∧
    Gives (exec (.div c rd rs1 rs2) s) (fun t => s.WroteG t c rd (if y = 0 then BitVec.allOnes 64 else x.sdiv y) pc) ∧
    Gives (exec (.divu c rd rs1 rs2) s) (fun t => s.WroteG t c rd (if y = 0 then BitVec.allOnes 64 else x / y) pc) ∧
    Gives (exec (.rem c rd rs1 rs2) s) (fun t => s.WroteG t c rd (if y = 0 then x else x.srem y) pc) ∧
    Gives (exec (.remu c rd rs1 rs2) s) (fun t => s.WroteG t c rd (if y = 0 then x else x % y) pc)

/-- R133: shifts take the low six bits of the second operand; an immediate amount of 64 or more is ILLEGAL. -/
def Obligations.ScalarShiftResult : Prop :=
  (∀ (c : CoreId) (rd rs1 : Reg) (b : Opd) (s : State), s.Issues c (.g rs1 :: opdSrcs b) →
    (∀ v, b = .imm v → v.toNat < 64) →
    let x := (s.core c).gGet rs1
    let n := opdVal (s.core c) b &&& 63#64
    let pc := (s.core c).pc + 8
    Gives (exec (.sll c rd rs1 b) s) (fun t => s.WroteG t c rd (x <<< n) pc) ∧
    Gives (exec (.srl c rd rs1 b) s) (fun t => s.WroteG t c rd (x >>> n) pc) ∧
    Gives (exec (.sra c rd rs1 b) s) (fun t => s.WroteG t c rd (x.sshiftRight n.toNat) pc)) ∧
  (∀ (c : CoreId) (rd rs1 : Reg) (v : BitVec 40) (s : State), s.Issues c [] → 64 ≤ v.toNat →
    Gives (exec (.sll c rd rs1 (.imm v)) s) (fun t => s.Trapped t c trIllegal (s.core c).pc 0 false) ∧
    Gives (exec (.srl c rd rs1 (.imm v)) s) (fun t => s.Trapped t c trIllegal (s.core c).pc 0 false) ∧
    Gives (exec (.sra c rd rs1 (.imm v)) s) (fun t => s.Trapped t c trIllegal (s.core c).pc 0 false))

/-- R133, R135: CLZ, CTZ, POPC, SEL, LI and LIH, the counts by what they say of the operand's bits. -/
def Obligations.ScalarCountMoveResult : Prop :=
  (∀ (c : CoreId) (rd rs1 : Reg) (s : State), s.Issues c [.g rs1] →
    let x := (s.core c).gGet rs1
    let pc := (s.core c).pc + 8
    (∃ n : Nat, (n = 64 ∧ x = 0 ∨ n < 64 ∧ x.getLsbD (63 - n) = true ∧ ∀ j, 63 - n < j → x.getLsbD j = false) ∧
      Gives (exec (.clz c rd rs1) s) (fun t => s.WroteG t c rd (BitVec.ofNat 64 n) pc)) ∧
    (∃ n : Nat, (n = 64 ∧ x = 0 ∨ n < 64 ∧ x.getLsbD n = true ∧ ∀ j, j < n → x.getLsbD j = false) ∧
      Gives (exec (.ctz c rd rs1) s) (fun t => s.WroteG t c rd (BitVec.ofNat 64 n) pc)) ∧
    Gives (exec (.popc c rd rs1) s)
      (fun t => s.WroteG t c rd (BitVec.ofNat 64 ((List.range 64).countP (fun j => x.getLsbD j))) pc) ∧
    (∀ v : BitVec 24, Gives (exec (.lih c rd rs1 v) s)
      (fun t => s.WroteG t c rd (v.setWidth 64 <<< 40 ||| x &&& 0xFF_FFFF_FFFF#64) pc))) ∧
  (∀ (c : CoreId) (rd rs1 rs2 rs3 : Reg) (s : State), s.Issues c [.g rs1, .g rs2, .g rs3] →
    Gives (exec (.sel c rd rs1 rs2 rs3) s) (fun t => s.WroteG t c rd
      (if (s.core c).gGet rs3 ≠ 0 then (s.core c).gGet rs1 else (s.core c).gGet rs2) ((s.core c).pc + 8))) ∧
  (∀ (c : CoreId) (rd : Reg) (v : BitVec 40) (s : State), s.Issues c [] →
    Gives (exec (.li c rd v) s) (fun t => s.WroteG t c rd (v.signExtend 64) ((s.core c).pc + 8)))

/-- R135: a branch whose comparison holds continues at pc + offset, else at pc + 8, and changes nothing else; JAL and JALR
also write pc + 8 to g[rd]; an offset that is no multiple of 8 in a branch or JAL is ILLEGAL. -/
def Obligations.ScalarBranchResult : Prop :=
  (∀ (c : CoreId) (rs1 rs2 : Reg) (off : BitVec 40) (s : State), s.Issues c [.g rs1, .g rs2] → off.toNat % 8 = 0 →
    let x := (s.core c).gGet rs1
    let y := (s.core c).gGet rs2
    let pc := (s.core c).pc
    let goes := fun (p : Prop) [Decidable p] (t : State) => s.WroteG t c 0 0 (if p then pc + off.signExtend 64 else pc + 8)
    Gives (exec (.beq c rs1 rs2 off) s) (goes (x = y)) ∧ Gives (exec (.bne c rs1 rs2 off) s) (goes (x ≠ y)) ∧
    Gives (exec (.blt c rs1 rs2 off) s) (goes (x.toInt < y.toInt)) ∧ Gives (exec (.bge c rs1 rs2 off) s) (goes (y.toInt ≤ x.toInt)) ∧
    Gives (exec (.bltu c rs1 rs2 off) s) (goes (x.toNat < y.toNat)) ∧ Gives (exec (.bgeu c rs1 rs2 off) s) (goes (y.toNat ≤ x.toNat)) ∧
    (∀ rd, Gives (exec (.jal c rd off) s) (fun t => s.WroteG t c rd (pc + 8) (pc + off.signExtend 64)))) ∧
  (∀ (c : CoreId) (rd rs1 : Reg) (off : BitVec 40) (s : State), s.Issues c [.g rs1] →
    Gives (exec (.jalr c rd rs1 off) s) (fun t =>
      s.WroteG t c rd ((s.core c).pc + 8) (((s.core c).gGet rs1 + off.signExtend 64) &&& ~~~7#64))) ∧
  (∀ (c : CoreId) (rd rs1 rs2 : Reg) (off : BitVec 40) (s : State), s.Issues c [.g rs1, .g rs2] → off.toNat % 8 ≠ 0 →
    Gives (exec (.beq c rs1 rs2 off) s) (fun t => s.Trapped t c trIllegal (s.core c).pc 0 false) ∧
    Gives (exec (.jal c rd off) s) (fun t => s.Trapped t c trIllegal (s.core c).pc 0 false))

/-- R130, R131, R175: CWR reads, CWW, CWRC and CKMARK write a control word; what is no word of theirs is ILLEGAL. -/
def Obligations.ControlWordResult : Prop :=
  (∀ (c : CoreId) (rd : Reg) (n : BitVec 12) (s : State), s.Issues c (if cwWidth n.toNat ≠ 0 then [.cw n.toNat] else []) →
    (∀ v, s.cwRead c n.toNat = some v → Gives (exec (.cwr c rd n) s) (fun t => s.WroteG t c rd v ((s.core c).pc + 8))) ∧
    (s.cwRead c n.toNat = none → Gives (exec (.cwr c rd n) s) (fun t => s.Trapped t c trIllegal (s.core c).pc 0 false))) ∧
  (∀ (c : CoreId) (rs1 : Reg) (n : BitVec 12) (s : State), s.Issues c [.g rs1] →
    let x := (s.core c).gGet rs1
    (cwWritable n.toNat = true → Gives (exec (.cww c rs1 n) s) (fun t => s.WroteCw t c n.toNat x ((s.core c).pc + 8))) ∧
    (cwWritable n.toNat = false → Gives (exec (.cww c rs1 n) s) (fun t => s.Trapped t c trIllegal (s.core c).pc 0 false)) ∧
    Gives (exec (.ckmark c rs1) s) (fun t => s.WroteCw t c cwCkmark x ((s.core c).pc + 8))) ∧
  (∀ (c : CoreId) (rd : Reg) (n : BitVec 12) (s : State), s.Issues c [] → n.toNat ≠ cwFflags →
    Gives (exec (.cwrc c rd n) s) (fun t => s.Trapped t c trIllegal (s.core c).pc 0 false)) ∧
  (∀ (c : CoreId) (rd : Reg) (s : State), s.Issues c [.cw cwFflags] →
    Gives (exec (.cwrc c rd 0x002) s) (fun t =>
      (t.core c).cwGet cwFflags = 0 ∧ (t.core c).gGet rd = (if rd = 0 then 0 else (s.core c).cwGet cwFflags) ∧
      (∀ r, r ≠ rd → (t.core c).gGet r = (s.core c).gGet r) ∧ (t.core c).f = (s.core c).f ∧
      (∀ k, k ≠ cwFflags → (t.core c).cwGet k = (s.core c).cwGet k) ∧ (t.core c).pc = (s.core c).pc + 8 ∧ s.CoreOnly t c))

/-- R135, R138: MOVGF, MOVFG, FLI and FLIH move bits unchanged and raise no flag. -/
def Obligations.RegisterMoveResult : Prop :=
  ∀ (c : CoreId) (rd rs1 : Reg) (v : BitVec 32) (s : State),
    let pc := (s.core c).pc + 8
    (s.Issues c [.g rs1] → Gives (exec (.movgf c rd rs1) s) (fun t => s.WroteF t c rd ((s.core c).gGet rs1) 0 pc)) ∧
    (s.Issues c [.f rs1] → Gives (exec (.movfg c rd rs1) s) (fun t => s.WroteG t c rd ((s.core c).fGet rs1) pc)) ∧
    (s.Issues c [] → Gives (exec (.fli c rd v) s) (fun t => s.WroteF t c rd (v.setWidth 64) 0 pc)) ∧
    (s.Issues c [.f rs1] → Gives (exec (.flih c rd rs1 v) s)
      (fun t => s.WroteF t c rd (v.setWidth 64 <<< 32 ||| (s.core c).fGet rs1 &&& 0xFFFF_FFFF#64) 0 pc))

/-- R115, R116, R118, R127, R175: TRAP and an undefined instruction word take a precise trap, BREAK and ILLEGAL; TRET in a
handler clears cw.tstat and continues at cw.tpc, outside one it is ILLEGAL (cw.tstat and cw.tpc, which the hardware reads through
the checker, being sound: R110). -/
def Obligations.TrapEntryAndReturn : Prop :=
  ∀ (c : CoreId) (s : State), s.Issues c [] →
    Gives (exec (.trap c) s) (fun t => s.Trapped t c trBreak (s.core c).pc 0 false) ∧
    (∀ w : BitVec 64, decodeWord c w.toNat = none →
      Gives (exec (.illegalWord c w) s) (fun t => s.Trapped t c trIllegal (s.core c).pc 0 false)) ∧
    (s.Sound c (.cw cwTstat) → (s.core c).inTrap = false → Gives (exec (.tret c) s) (fun t => s.Trapped t c trIllegal (s.core c).pc 0 false)) ∧
    (s.Sound c (.cw cwTstat) → s.Sound c (.cw cwTpc) → (s.core c).inTrap = true → Gives (exec (.tret c) s) (fun t =>
      (t.core c).cwGet cwTstat = 0 ∧ t.scState c = stRunning ∧
      (t.core c).pc = (s.core c).cwGet cwTpc &&& ~~~7#64 ∧
      (t.core c).g = (s.core c).g ∧ (t.core c).f = (s.core c).f ∧
      (∀ n, n ≠ cwTstat → (t.core c).cwGet n = (s.core c).cwGet n) ∧
      (∀ d, d ≠ c → t.core d = s.core d) ∧ t.mem = s.mem))

/-- R22, R33, R44, R108, R110, R112, R118, R165: a core that may not issue leaves the commands below without effect; one whose pc has left its
program section, or whose instruction line is not cached and lies on a retired page, traps ADDRESS; one that reads a poisoned register traps
POISON and writes nothing. -/
def Obligations.IssueGate : Prop :=
  ∀ (c : CoreId) (rd rs1 : Reg) (b : Opd) (s : State),
    (s.canIssue c = false → exec (.add c rd rs1 b) s = .next s ∧ exec (.tret c) s = .next s ∧ exec (.trap c) s = .next s) ∧
    (s.canIssue c = true → (s.core c).sect < (s.core c).pc.toNat + 8 →
      Gives (exec (.add c rd rs1 b) s) (fun t => s.Trapped t c trAddress (s.core c).pc (s.core c).pc false) ∧
      Gives (exec (.trap c) s) (fun t => s.Trapped t c trAddress (s.core c).pc (s.core c).pc false)) ∧
    (s.canIssue c = true → (s.core c).pc.toNat + 8 ≤ (s.core c).sect →
      (s.core c).icache.any (fun e => e.1 == lineOf (s.core c).pc) = false → s.fetchRefused c (lineOf (s.core c).pc) = true →
      Gives (exec (.add c rd rs1 b) s) (fun t => s.Trapped t c trAddress (s.core c).pc (s.core c).pc false) ∧
      Gives (exec (.trap c) s) (fun t => s.Trapped t c trAddress (s.core c).pc (s.core c).pc false)) ∧
    (s.Issues c (opdSrcs b) → s.check (SReg.at c (.g rs1)) false = .good → (s.core c).waitsFor (.g rs1) = false →
      s.marked c (.g rs1) = true →
      Gives (exec (.add c rd rs1 b) s) (fun t => s.Trapped t c trPoison (s.core c).pc 0 false) ∧
      Gives (exec (.sub c rd rs1 b) s) (fun t => s.Trapped t c trPoison (s.core c).pc 0 false) ∧
      Gives (exec (.movgf c rd rs1) s) (fun t => s.Trapped t c trPoison (s.core c).pc 0 false))

/-! ### Scalar cores: floating point (R92 to R94, R109, R129, R138) -/

/-- R92, R94, R129, R138: a floating-point instruction with an f result, conversions among them, writes the rounded value of its precision, an FP32
result with bits [63:32] zero, adds its exceptions to cw.fflags and changes nothing else (cw.fflags, which the hardware reads to change
it, being sound: R110). -/
def Obligations.ScalarFpToFResult : Prop :=
  (∀ (c : CoreId) (a : FpArgs) (s : State), fpLegal a 2 true = true → s.Issues c [.f a.rs1, .f a.rs2] →
    s.Sound c (.cw cwFflags) → (a.rmEn = false → s.Sound c (.cw cwFrnd)) →
    let f := precFmt a.dbl
    let rm := fpRm (s.core c) a
    let x := fpBits a.dbl ((s.core c).fGet a.rs1)
    let y := fpBits a.dbl ((s.core c).fGet a.rs2)
    let gives := fun (r : Nat × Nat) (t : State) => s.WroteF t c a.rd (BitVec.ofNat 64 r.1) r.2 ((s.core c).pc + 8)
    Gives (exec (.fadd c a) s) (gives (fAdd f rm x y)) ∧ Gives (exec (.fsub c a) s) (gives (fSub f rm x y)) ∧
    Gives (exec (.fmul c a) s) (gives (fMul f rm x y)) ∧ Gives (exec (.fdiv c a) s) (gives (fDiv f rm x y)) ∧
    (fpLegal a 2 false = true →
      Gives (exec (.fmin c a) s) (gives (fMin f x y)) ∧ Gives (exec (.fmax c a) s) (gives (fMax f x y)) ∧
      Gives (exec (.fcpys c a) s) (gives (fCpys f x y, 0)))) ∧
  (∀ (c : CoreId) (a : FpArgs) (s : State), s.Issues c [.f a.rs1, .f a.rs2, .f a.rs3] →
    s.Sound c (.cw cwFflags) → (a.rmEn = false → s.Sound c (.cw cwFrnd)) →
    let f := precFmt a.dbl
    let rm := fpRm (s.core c) a
    let x := fpBits a.dbl ((s.core c).fGet a.rs1)
    let y := fpBits a.dbl ((s.core c).fGet a.rs2)
    let z := fpBits a.dbl ((s.core c).fGet a.rs3)
    let gives := fun (r : Nat × Nat) (t : State) => s.WroteF t c a.rd (BitVec.ofNat 64 r.1) r.2 ((s.core c).pc + 8)
    Gives (exec (.fma c a) s) (gives (fFma f rm x y z)) ∧ Gives (exec (.fms c a) s) (gives (fFms f rm x y z)) ∧
    Gives (exec (.fnma c a) s) (gives (fFnma f rm x y z))) ∧
  (∀ (c : CoreId) (a : FpArgs) (s : State), fpLegal a 1 true = true → s.Issues c [.f a.rs1] →
    s.Sound c (.cw cwFflags) → (a.rmEn = false → s.Sound c (.cw cwFrnd)) →
    let f := precFmt a.dbl
    let rm := fpRm (s.core c) a
    let w := (s.core c).fGet a.rs1
    let x := fpBits a.dbl w
    let gives := fun (r : Nat × Nat) (t : State) => s.WroteF t c a.rd (BitVec.ofNat 64 r.1) r.2 ((s.core c).pc + 8)
    Gives (exec (.fsqrt c a) s) (gives (fSqrt f rm x)) ∧
    (fpLegal a 1 false = true →
      Gives (exec (.fabs c a) s) (gives (fAbs f x, 0)) ∧ Gives (exec (.fneg c a) s) (gives (fNeg f x, 0))) ∧
    (a.dbl = false → Gives (exec (.fcvtsd c a) s) (gives (fCvt fp64 fp32 rm w.toNat)) ∧
      (fpLegal a 1 false = true → Gives (exec (.fcvtds c a) s) (gives (fCvt fp32 fp64 rm (w.toNat % 2 ^ 32)))))) ∧
  (∀ (c : CoreId) (a : FpArgs) (s : State), fpLegal a 1 true = true → s.Issues c [.g a.rs1] →
    s.Sound c (.cw cwFflags) → (a.rmEn = false → s.Sound c (.cw cwFrnd)) →
    let f := precFmt a.dbl
    let rm := fpRm (s.core c) a
    let v := (s.core c).gGet a.rs1
    let gives := fun (r : Nat × Nat) (t : State) => s.WroteF t c a.rd (BitVec.ofNat 64 r.1) r.2 ((s.core c).pc + 8)
    Gives (exec (.fcvtfi c a) s) (gives (fOfInt f rm v.toInt)) ∧ Gives (exec (.fcvtfu c a) s) (gives (fOfInt f rm v.toNat)))

/-- R94, R138: comparisons, FCLASS and the conversions to integers write g[rd] and add their exceptions to cw.fflags. -/
def Obligations.ScalarFpToGResult : Prop :=
  ∀ (c : CoreId) (a : FpArgs) (s : State), s.Sound c (.cw cwFflags) →
    let f := precFmt a.dbl
    let rm := fpRm (s.core c) a
    let x := fpBits a.dbl ((s.core c).fGet a.rs1)
    let y := fpBits a.dbl ((s.core c).fGet a.rs2)
    let gives := fun (r : Nat × Nat) (t : State) =>
      (t.core c).gGet a.rd = (if a.rd = 0 then 0 else BitVec.ofNat 64 r.1) ∧
      (∀ q, q ≠ a.rd → (t.core c).gGet q = (s.core c).gGet q) ∧ (t.core c).f = (s.core c).f ∧
      (∀ k, k < 5 → ((t.core c).cwGet cwFflags).getLsbD k = (((s.core c).cwGet cwFflags).getLsbD k || r.2.testBit k)) ∧
      (∀ n, n ≠ cwFflags → (t.core c).cwGet n = (s.core c).cwGet n) ∧ (t.core c).pc = (s.core c).pc + 8 ∧ s.CoreOnly t c
    (fpLegal a 2 false = true → s.Issues c [.f a.rs1, .f a.rs2] →
      Gives (exec (.feq c a) s) (gives (fEq f x y)) ∧ Gives (exec (.flt c a) s) (gives (fLt f x y)) ∧
      Gives (exec (.fle c a) s) (gives (fLe f x y))) ∧
    (fpLegal a 1 false = true → s.Issues c [.f a.rs1] → Gives (exec (.fclass c a) s) (gives (fClass f x, 0))) ∧
    (fpLegal a 1 true = true → s.Issues c [.f a.rs1] → (a.rmEn = false → s.Sound c (.cw cwFrnd)) →
      Gives (exec (.fcvti c a) s) (gives (fToInt f rm true 64 x)) ∧ Gives (exec (.fcvtu c a) s) (gives (fToInt f rm false 64 x)))

/-- R92, R94: in every rounding mode addition and multiplication of either precision commute, flags included, and with a NaN
operand give the canonical quiet NaN of the precision. -/
def Obligations.FloatCommutesAndNan : Prop :=
  ∀ (d : Bool) (rm : Rm) (x y : Nat),
    let f := precFmt d
    let nan := if d then 0x7FF8000000000000 else 0x7FC00000
    fAdd f rm x y = fAdd f rm y x ∧ fMul f rm x y = fMul f rm y x ∧
    ((decodeF f x).isNan = true ∨ (decodeF f y).isNan = true →
      (fAdd f rm x y).1 = nan ∧ (fSub f rm x y).1 = nan ∧ (fMul f rm x y).1 = nan ∧ (fDiv f rm x y).1 = nan ∧
      (fMin f x y).1 = nan ∧ (fMax f x y).1 = nan ∧ (fEq f x y).1 = 0 ∧ (fLt f x y).1 = 0 ∧ (fLe f x y).1 = 0)

/-! ### Scalar cores: loads and stores (R135 to R138) -/

/-- R135, R136, R138: an aligned load from a mapped address whose line is sound reads its bytes, little-endian, extended; other
registers and memory stand. A line that goes out of the memory-side cache for it takes nothing wrong with it (`CalmCache`). -/
def Obligations.LoadResult : Prop :=
  ∀ (c : CoreId) (rd rs1 : Reg) (imm : BitVec 40) (p : Nat) (s : State), s.Issues c [.g rs1] →
    let a := ((s.core c).gGet rs1 + imm.signExtend 64).toNat
    s.localPhys c.isl a = some p → s.CleanLine (p / 128 * 128) → s.CalmCache →
    let loaded := fun (v : Word) (t : State) => s.LoadedG t c rd v
    (Gives (exec (.ld8s c rd rs1 imm) s) (loaded ((BitVec.ofNat 8 (s.peek p 1)).signExtend 64)) ∧
      Gives (exec (.ld8u c rd rs1 imm) s) (loaded (BitVec.ofNat 64 (s.peek p 1)))) ∧
    (a % 2 = 0 → Gives (exec (.ld16s c rd rs1 imm) s) (loaded ((BitVec.ofNat 16 (s.peek p 2)).signExtend 64)) ∧
      Gives (exec (.ld16u c rd rs1 imm) s) (loaded (BitVec.ofNat 64 (s.peek p 2)))) ∧
    (a % 4 = 0 → Gives (exec (.ld32s c rd rs1 imm) s) (loaded ((BitVec.ofNat 32 (s.peek p 4)).signExtend 64)) ∧
      Gives (exec (.ld32u c rd rs1 imm) s) (loaded (BitVec.ofNat 64 (s.peek p 4))) ∧
      Gives (exec (.fld32 c rd rs1 imm) s) (s.LoadedF · c rd (BitVec.ofNat 64 (s.peek p 4)))) ∧
    (a % 8 = 0 → Gives (exec (.ld64 c rd rs1 imm) s) (loaded (BitVec.ofNat 64 (s.peek p 8))) ∧
      Gives (exec (.fld64 c rd rs1 imm) s) (s.LoadedF · c rd (BitVec.ofNat 64 (s.peek p 8))))

/-- R135, R136, R138: an aligned store to a mapped address writes the low bytes of the register there, and the core's registers
stand; every other byte of memory reads as before, where the line's other words are sound, so that merging into it corrects nothing. A
line that goes out of the memory-side cache for it takes nothing wrong with it (`CalmCache`). -/
def Obligations.StoreResult : Prop :=
  ∀ (c : CoreId) (rt rs1 : Reg) (imm : BitVec 40) (p : Nat) (s : State),
    let a := ((s.core c).gGet rs1 + imm.signExtend 64).toNat
    s.localPhys c.isl a = some p → s.CalmCache →
    let stored := fun (n : Nat) (v : Word) (t : State) => (∀ j, j < n → t.byte (p + j) = BitVec.ofNat 8 (v.toNat / 256 ^ j)) ∧
      (s.CleanLine (p / 128 * 128) → s.SameMemBut t p n) ∧ (t.core c).g = (s.core c).g ∧ (t.core c).f = (s.core c).f ∧ (t.core c).cw = (s.core c).cw ∧
      (t.core c).pc = (s.core c).pc + 8 ∧ ∀ d, d ≠ c → t.core d = s.core d
    (s.Issues c [.g rs1, .g rt] →
      let v := (s.core c).gGet rt
      Gives (exec (.st8 c rt rs1 imm) s) (stored 1 v) ∧
      (a % 2 = 0 → Gives (exec (.st16 c rt rs1 imm) s) (stored 2 v)) ∧
      (a % 4 = 0 → Gives (exec (.st32 c rt rs1 imm) s) (stored 4 v)) ∧
      (a % 8 = 0 → Gives (exec (.st64 c rt rs1 imm) s) (stored 8 v))) ∧
    (s.Issues c [.g rs1, .f rt] →
      let v := (s.core c).fGet rt
      (a % 4 = 0 → Gives (exec (.fst32 c rt rs1 imm) s) (stored 4 v)) ∧
      (a % 8 = 0 → Gives (exec (.fst64 c rt rs1 imm) s) (stored 8 v)))

/-- R22, R115, R136: an access outside the reachable view traps ADDRESS, one not naturally aligned traps ALIGN, with the
address in cw.tval. -/
def Obligations.LoadStoreTraps : Prop :=
  ∀ (c : CoreId) (r rs1 : Reg) (imm : BitVec 40) (s : State), s.Issues c [.g rs1, .g r, .f r] →
    let a := (s.core c).gGet rs1 + imm.signExtend 64
    let rows : List (Instr × Nat) := [(.ld8s c r rs1 imm, 1), (.ld8u c r rs1 imm, 1), (.ld16s c r rs1 imm, 2), (.ld16u c r rs1 imm, 2),
      (.ld32s c r rs1 imm, 4), (.ld32u c r rs1 imm, 4), (.ld64 c r rs1 imm, 8), (.fld32 c r rs1 imm, 4), (.fld64 c r rs1 imm, 8),
      (.st8 c r rs1 imm, 1), (.st16 c r rs1 imm, 2), (.st32 c r rs1 imm, 4), (.st64 c r rs1 imm, 8), (.fst32 c r rs1 imm, 4),
      (.fst64 c r rs1 imm, 8)]
    ∀ row ∈ rows,
      (s.localPhys c.isl a.toNat = none → Gives (exec row.1 s) (s.Trapped · c trAddress (s.core c).pc a false)) ∧
      (s.localPhys c.isl a.toNat ≠ none → a.toNat % row.2 ≠ 0 →
        Gives (exec row.1 s) (s.Trapped · c trAlign (s.core c).pc a false))

/-! ### Vector cores (R89 to R106, R107, R108, R132, R139 to R146) -/

/-- R107, R108, R132, R139 to R146: a legal vector instruction whose operands are allowed goes, with what it captured at issue, to the
queue of every vector core its mask names, and the core goes on. -/
def Obligations.VectorIssue : Prop :=
  ∀ (c : CoreId) (a : VArgs) (s : State),
    let rows : List (Instr × VOp) := [(.vadd c a, .vadd), (.vsub c a, .vsub), (.vmul c a, .vmul), (.vdiv c a, .vdiv),
      (.vsqrt c a, .vsqrt), (.vmin c a, .vmin), (.vmax c a, .vmax), (.vfma c a, .vfma), (.vfms c a, .vfms),
      (.vfnma c a, .vfnma), (.vabs c a, .vabs), (.vneg c a, .vneg), (.vcvt c a, .vcvt), (.vexp2 c a, .vexp2),
      (.vlog2 c a, .vlog2), (.vrcp c a, .vrcp), (.vrsq c a, .vrsq), (.vsin c a, .vsin), (.vcos c a, .vcos),
      (.vrsum c a, .vrsum), (.vrmax c a, .vrmax), (.vrmin c a, .vrmin), (.viadd c a, .viadd), (.visub c a, .visub),
      (.vimul c a, .vimul), (.vimulh c a, .vimulh), (.vand c a, .vand), (.vor c a, .vor), (.vxor c a, .vxor),
      (.vsll c a, .vsll), (.vsrl c a, .vsrl), (.vsra c a, .vsra), (.vimin c a, .vimin), (.vimax c a, .vimax),
      (.vcmp c a, .vcmp), (.mand c a, .mand), (.mor c a, .mor), (.mxor c a, .mxor), (.mandn c a, .mandn),
      (.vmov c a, .vmov), (.vsel c a, .vsel), (.vbcast c a, .vbcast), (.vperm c a, .vperm), (.vrot c a, .vrot),
      (.vSmxInit c a, .smxInit), (.vSmxStep c a, .smxStep), (.vSmxMerge c a, .smxMerge), (.vSmxRead c a, .smxRead),
      (.vSmxWrite c a, .smxWrite), (.vld c a, .vld), (.vst c a, .vst), (.vCg c a, .vcg), (.vCww c a, .vcww)]
    ∀ row ∈ rows, s.VecReady c row.2 a → Gives (exec row.1 s) (s.QueuedVec · c row.2 a)

/-- R127, R128: a vector instruction with an unused field set traps ILLEGAL, one with an operand its rule forbids traps
OPERAND; either way no vector core gets it. -/
def Obligations.VectorIssueTraps : Prop :=
  ∀ (c : CoreId) (a : VArgs) (s : State),
    let rows : List (Instr × VOp) := [(.vadd c a, .vadd), (.viadd c a, .viadd), (.vcmp c a, .vcmp), (.vcvt c a, .vcvt),
      (.vrsum c a, .vrsum), (.vSmxStep c a, .smxStep), (.vld c a, .vld), (.vCww c a, .vcww)]
    ∀ row ∈ rows, s.Issues c (vSrcs row.2 a) →
      (vLegal row.2 a = false → Gives (exec row.1 s) (fun t =>
        s.Trapped t c trIllegal (s.core c).pc 0 false ∧ t.vcores = s.vcores)) ∧
      (vLegal row.2 a = true →
        vOperandOk row.2 a (vCapture row.2 a (s.core c)).1 (vCapture row.2 a (s.core c)).2 = false →
        Gives (exec row.1 s) (fun t => s.Trapped t c trOperand (s.core c).pc 0 false ∧ t.vcores = s.vcores))

/-- R90, R91, R92, R139: an elementwise instruction at the head of its queue writes each active element of vd from the
elements of its sources, leaves the others and every other register, and adds the flags of the active elements. -/
def Obligations.VectorElementResult : Prop :=
  ∀ (isl : Fin 16) (j : Fin 32) (h : QOp) (r : List QOp) (op : VOp) (a : VArgs) (x y seed step : Word) (pos : Nat) (bad : Bool)
    (s : State), s.avail isl = true → (s.issue isl (.vec j)).queue = h :: r → h.op = .vec op a x y seed step pos bad →
    op ∈ [VOp.vadd, .vsub, .vmul, .vdiv, .vsqrt, .vmin, .vmax, .vfma, .vfms, .vfnma, .vabs, .vneg, .viadd, .visub, .vimul, .vimulh,
      .vand, .vor, .vxor, .vsll, .vsrl, .vsra, .vimin, .vimax, .vexp2, .vlog2, .vrcp, .vrsq, .vsin, .vcos] →
    (∀ q ∈ vReads op a, ∀ p, p < 64 → s.check (.vec isl j q p) false = .good) →
    let v := s.vc isl j
    let fmt := a.fmt.toNat
    let e := fun k => elemOp op fmt (v.rmOf a) (elemOf fmt (v.reg a.vs1) k)
      (if a.s2 then y.toNat % 2 ^ fmtWidth fmt else elemOf fmt (v.reg a.vs2) k) (elemOf fmt (v.reg a.vs3) k)
    let act := fun k => (v.mask a.mask).getLsbD (fmtLane fmt k)
    Gives (exec (.unitOpExecute isl (.vec j)) s) (fun t =>
      (∀ k, k < fmtCount fmt → elemOf fmt ((t.vc isl j).reg a.vd) k =
        if act k then (e k).1 % 2 ^ fmtWidth fmt else elemOf fmt (v.reg a.vd) k) ∧
      (∀ q : Reg, q ≠ a.vd → (t.vc isl j).reg q = v.reg q) ∧ (t.vc isl j).m = v.m ∧
      (t.vc isl j).vflags = v.vflags ||| BitVec.ofNat 5 (orFlags act (fun k => (e k).2) (fmtCount fmt)) ∧
      (t.issue isl (.vec j)).queue = r ∧ (∀ d : Fin 32, d ≠ j → t.vc isl d = s.vc isl d) ∧ t.mem = s.mem ∧ t.cores = s.cores)

/-- R90, R97, R101, R140, R143, R146: what mask instructions, V.SMX.INIT and V.CWW leave when they execute; m0 keeps
reading all ones. -/
def Obligations.VectorMaskAndSlotResult : Prop :=
  ∀ (isl : Fin 16) (j : Fin 32) (h : QOp) (r : List QOp) (a : VArgs) (x y seed step : Word) (pos : Nat) (bad : Bool) (s : State),
    s.avail isl = true → (s.issue isl (.vec j)).queue = h :: r →
    let v := s.vc isl j
    let gives := fun (op : VOp) (p : VecCore → Prop) => h.op = .vec op a x y seed step pos bad →
      Gives (exec (.unitOpExecute isl (.vec j)) s) (fun t => p (t.vc isl j) ∧ (t.vc isl j).v = v.v ∧
        (t.vc isl j).mask 0 = BitVec.allOnes 128 ∧ (t.issue isl (.vec j)).queue = r ∧
        (∀ d : Fin 32, d ≠ j → t.vc isl d = s.vc isl d) ∧ t.mem = s.mem ∧ t.cores = s.cores)
    gives .mand (fun w => ∀ k : Fin 8, w.mask k = if k = 0 then BitVec.allOnes 128 else
      if k.val = a.vd.val then v.mask a.vs1 &&& v.mask a.vs2 else v.mask k) ∧
    gives .mor (fun w => ∀ k : Fin 8, w.mask k = if k = 0 then BitVec.allOnes 128 else
      if k.val = a.vd.val then v.mask a.vs1 ||| v.mask a.vs2 else v.mask k) ∧
    gives .mxor (fun w => ∀ k : Fin 8, w.mask k = if k = 0 then BitVec.allOnes 128 else
      if k.val = a.vd.val then v.mask a.vs1 ^^^ v.mask a.vs2 else v.mask k) ∧
    gives .mandn (fun w => ∀ k : Fin 8, w.mask k = if k = 0 then BitVec.allOnes 128 else
      if k.val = a.vd.val then v.mask a.vs1 &&& ~~~(v.mask a.vs2) else v.mask k) ∧
    gives .vcww (fun w => w.mask = v.mask ∧
      w.vrnd = (if a.imm = 0x030 then BitVec.ofNat 2 x.toNat else v.vrnd) ∧
      w.vflags = (if a.imm = 0x030 then v.vflags else BitVec.ofNat 5 x.toNat)) ∧
    (a.fmt = 0 → gives .smxInit (fun w => w.mask = v.mask ∧ ∀ l, l < 128 →
      lane (w.smxMx.get 0 (smxA a)) l = (if (v.mask a.mask).getLsbD l then 0xFF800000 else lane (v.smxMx.get 0 (smxA a)) l) ∧
      lane (w.smxSm.get 0 (smxA a)) l = (if (v.mask a.mask).getLsbD l then 0 else lane (v.smxSm.get 0 (smxA a)) l)))

/-- R135, R137, R146: GETV and V.CWR read into a g register, PUTV writes one lane and V.CWRC clears cw.vflags, once the vector
core's queue has drained; until then they wait without effect. -/
def Obligations.VectorReadBackResult : Prop :=
  (∀ (c : CoreId) (rd rs1 : Reg) (pos : Fin 4) (l : Fin 128) (s : State),
    let j := c.sc.val * 4 + pos.val
    (s.vc c.isl j).iss.queue = [] →
    (s.Issues c [] → (∀ p, p < 64 → s.check (.vec c.isl j rs1 p) false = .good) → ((s.vc c.isl j).poi rs1).getLsbD l = false →
      Gives (exec (.getv c rd rs1 pos l) s)
        (fun t => s.WroteG t c rd ((((s.vc c.isl j).reg rs1).extractLsb' (32 * l.val) 32).setWidth 64) ((s.core c).pc + 8))) ∧
    (s.Issues c [.g rs1] → (∀ p, p < 64 → s.check (.vec c.isl j rd p) false = .good) →
      Gives (exec (.putv c rd rs1 pos l) s) (fun t =>
        (∀ k : Fin 128, lane ((t.vc c.isl j).reg rd) k =
          if k = l then ((s.core c).gGet rs1).toNat % 2 ^ 32 else lane ((s.vc c.isl j).reg rd) k) ∧
        (∀ q : Reg, q ≠ rd → (t.vc c.isl j).reg q = (s.vc c.isl j).reg q) ∧
        t.core c = { s.core c with pc := (s.core c).pc + 8 } ∧ (∀ d, d ≠ c → t.core d = s.core d) ∧ t.mem = s.mem))) ∧
  (∀ (c : CoreId) (rd rs1 : Reg) (pos : Fin 4) (l : Fin 128) (a : VArgs) (s : State), a.cores.toNat = 2 ^ pos.val →
    (s.vc c.isl (c.sc.val * 4 + pos.val)).iss.queue ≠ [] →
    (s.Issues c [] → exec (.getv c rd rs1 pos l) s = .next s ∧ (vLegal .vcwr a = true → exec (.vCwr c a) s = .next s) ∧
      (vLegal .vcwrc a = true → exec (.vCwrc c a) s = .next s)) ∧
    (s.Issues c [.g rs1] → exec (.putv c rd rs1 pos l) s = .next s)) ∧
  (∀ (c : CoreId) (a : VArgs) (pos : Fin 4) (s : State), s.Issues c [] → a.cores.toNat = 2 ^ pos.val →
    let j := c.sc.val * 4 + pos.val
    let v := s.vc c.isl j
    v.iss.queue = [] →
    (vLegal .vcwr a = true → Gives (exec (.vCwr c a) s) (fun t =>
      s.WroteG t c a.vd (if a.imm = 0x030 then v.vrnd.setWidth 64 else v.vflags.setWidth 64) ((s.core c).pc + 8))) ∧
    (vLegal .vcwrc a = true → Gives (exec (.vCwrc c a) s) (fun t =>
      (t.core c).gGet a.vd = (if a.vd = 0 then 0 else v.vflags.setWidth 64) ∧ (t.vc c.isl j).vflags = 0 ∧
      (t.vc c.isl j).v = v.v ∧ (∀ q, q ≠ a.vd → (t.core c).gGet q = (s.core c).gGet q) ∧ (t.core c).pc = (s.core c).pc + 8 ∧
      (∀ d, d ≠ c → t.core d = s.core d) ∧ t.mem = s.mem)))

/-! ### Matrix arrays, the mesh and the units (R58 to R88, R113 to R117, R149 to R154, R196 to R202) -/

/-- R107, R108, R149 to R154: MA.WLOAD, MA.MAC, MA.SCAN, MA.ANCHOR, MA.ZERO and MA.DRAIN whose operands their rules allow go to the
queue of every array the mask names, with the base of its position. -/
def Obligations.ArrayIssue : Prop :=
  (∀ (c : CoreId) (a : WloadArgs) (s : State), s.Issues c [.g a.rs1, .g a.rs2] →
    let x := (s.core c).gGet a.rs1
    let y := (s.core c).gGet a.rs2
    a.arrays ≠ 0 → inFmtOk a.fmtW = true → (a.sp = true → sparseOk (fmtCode a.fmtW) = true) →
    (∀ p ∈ arrPos a.arrays, (arrAddr x y p).toNat % 64 = 0) → s.ArrRoom c a.arrays →
    Gives (exec (.maWload c a) s)
      (s.Queued · c (arrUnits c a.arrays) (fun u => .wload a.buf a.fmtW a.sp (arrAddr x y (unitPos u))))) ∧
  (∀ (c : CoreId) (a : MacArgs) (s : State), s.Issues c [.g a.rs1, .g a.rs2, .g a.rs3] →
    let x := (s.core c).gGet a.rs1
    let y := (s.core c).gGet a.rs2
    let stride := (s.core c).gGet a.rs3
    let prescan := if a.amEn then a.am else s.mode c 2 2 == 1
    a.arrays ≠ 0 → inFmtOk a.fmtA = true → a.r0.toNat + a.m1.toNat + 1 ≤ 128 → stride.toNat % 64 = 0 →
    (∀ u ∈ s.arrsOf c a.arrays, ∃ fw sp, u.bufAhead a.buf = some (fw, sp) ∧ macK a.fmtA fw sp ≠ 0 ∧
      rowBytes a.fmtA (macK a.fmtA fw sp) ≤ stride.toNat) →
    (∀ p ∈ arrPos a.arrays, (arrAddr x y p).toNat % 64 = 0) →
    (prescan = true ∨ ∀ u ∈ s.arrsOf c a.arrays, (u.bankAhead a.bank).anchored = true) → s.ArrRoom c a.arrays →
    Gives (exec (.maMac c a) s) (s.Queued · c (arrUnits c a.arrays) (fun u =>
      .mac a.bank a.buf a.fmtA (a.m1.toNat + 1) a.r0.toNat (arrAddr x y (unitPos u)) stride prescan))) ∧
  (∀ (c : CoreId) (a : ScanArgs) (s : State),
    s.Issues c ([.g a.rs1, .g a.rs2, .g a.rs3] ++ (if a.ewsrc then [.g a.re] else [])) → (a.ewsrc = false → a.re = 0) →
    let x := (s.core c).gGet a.rs1
    let y := (s.core c).gGet a.rs2
    let stride := (s.core c).gGet a.rs3
    a.arrays ≠ 0 → inFmtOk a.fmtA = true → stride.toNat % 64 = 0 →
    (∀ u ∈ s.arrsOf c a.arrays,
      (∃ fw sp, u.bufAhead a.buf = some (fw, sp) ∧ macK a.fmtA fw sp ≠ 0 ∧ rowBytes a.fmtA (macK a.fmtA fw sp) ≤ stride.toNat) ∨
      (u.bufAhead a.buf = none ∧ a.ewsrc = true ∧ rowBytes a.fmtA (classK (fmtCode a.fmtA)) ≤ stride.toNat)) →
    (∀ p ∈ arrPos a.arrays, (arrAddr x y p).toNat % 64 = 0) →
    (∀ u ∈ s.arrsOf c a.arrays, (u.bankAhead a.bank).opened = false) → s.ArrRoom c a.arrays →
    Gives (exec (.maScan c a) s) (s.Queued · c (arrUnits c a.arrays) (fun u =>
      .scan a.bank a.buf a.fmtA (a.m1.toNat + 1) (arrAddr x y (unitPos u)) stride
        (if a.ewsrc then some (((s.core c).gGet a.re).setWidth 12 : BitVec 12).toInt else none)))) ∧
  (∀ (c : CoreId) (m : BitVec 8) (b : Fin 4) (rs1 : Reg) (s : State), m ≠ 0 → s.ArrRoom c m →
    (s.Issues c [.g rs1] → (∀ u ∈ s.arrsOf c m, (u.bankAhead b).opened = false) →
      Gives (exec (.maAnchor c m b rs1) s) (s.Queued · c (arrUnits c m) (fun _ => .anchor b ((s.core c).gGet rs1)))) ∧
    (s.Issues c [] → Gives (exec (.maZero c m b) s) (s.Queued · c (arrUnits c m) (fun _ => .zero b)))) ∧
  (∀ (c : CoreId) (a : DrainArgs) (s : State), s.Issues c [.g a.rs1, .g a.rs2, .g a.rs3] →
    let x := (s.core c).gGet a.rs1
    let y := (s.core c).gGet a.rs2
    let stride := (s.core c).gGet a.rs3
    let stoch := if a.rndEn then a.rnd else s.mode c 0 2 == 1
    a.arrays ≠ 0 → outFmtOk a.ofmt = true → a.first.toNat + a.count1.toNat + 1 ≤ 128 → stride.toNat % 64 = 0 →
    outRowBytes a.ofmt ≤ stride.toNat → (∀ p ∈ arrPos a.arrays, (arrAddr x y p).toNat % 64 = 0) →
    (stoch = true → s.Sound c (.cw cwSeed) ∧ s.Sound c (.cw cwStream) ∧ s.Sound c (.cw cwBase)) → s.ArrRoom c a.arrays →
    Gives (exec (.maDrain c a) s) (s.Queued · c (arrUnits c a.arrays) (fun u =>
      .drain a.bank a.ofmt a.first.toNat (a.count1.toNat + 1) (arrAddr x y (unitPos u)) stride a.clr stoch
        (if a.scEn then a.sc else s.mode c 4 2 == 1) ((s.core c).cwGet cwSeed) (s.stepWord c.isl) ((s.core c).cwGet cwStream)
        ((s.core c).cwGet cwBase) false)))

/-- R67, R68, R73, R152: MA.FLAGS reads the flags of one bank into g[rd] and clears them on request, elements and anchor standing;
MA.ZERO at the head of its queue makes every element of the bank zero, the bank closed and its anchor unset, and keeps its flags;
MA.ANCHOR sets the anchor to the 12-bit value, or unsets it for −2048. Other banks stand. -/
def Obligations.ArrayBankResult : Prop :=
  (∀ (c : CoreId) (m : BitVec 8) (p : Fin 8) (b : Fin 4) (rd : Reg) (clr : Bool) (s : State), s.Issues c [] → m.toNat = 2 ^ p.val →
    let j := c.sc.val * 8 + p.val
    (∀ o ∈ (s.arr c.isl j).iss.queue, o.op.onBank b = false) →
    let k := (s.arr c.isl j).bank b
    Gives (exec (.maFlags c m b rd clr) s) (fun t =>
      (t.core c).gGet rd = (if rd = 0 then 0 else k.flags.setWidth 64) ∧
      (∀ q, q ≠ rd → (t.core c).gGet q = (s.core c).gGet q) ∧ (t.core c).pc = (s.core c).pc + 8 ∧
      (t.arr c.isl j).bank b = { k with flags := if clr then 0 else k.flags } ∧
      (∀ d : Fin 4, d ≠ b → (t.arr c.isl j).bank d = (s.arr c.isl j).bank d) ∧ (∀ d, d ≠ c → t.core d = s.core d) ∧ t.mem = s.mem)) ∧
  (∀ (isl : Fin 16) (j : Fin 64) (h : QOp) (r : List QOp) (b : Fin 4) (v : Word) (s : State),
    s.avail isl = true → (s.issue isl (.array j)).queue = h :: r →
    let k := (s.arr isl j).bank b
    (h.op = .zero b → Gives (exec (.unitOpExecute isl (.array j)) s) (fun t =>
      (∀ row col, ((t.arr isl j).bank b).at row col = {}) ∧ ((t.arr isl j).bank b).anchor = none ∧
      ((t.arr isl j).bank b).opened = false ∧ ((t.arr isl j).bank b).flags = k.flags ∧
      (∀ d : Fin 4, d ≠ b → (t.arr isl j).bank d = (s.arr isl j).bank d) ∧ (t.issue isl (.array j)).queue = r ∧ t.mem = s.mem)) ∧
    (h.op = .anchor b v → Gives (exec (.unitOpExecute isl (.array j)) s) (fun t =>
      (t.arr isl j).bank b = { k with anchor := if v.toNat % 4096 = 2048 then none else some (v.setWidth 12 : BitVec 12).toInt } ∧
      (∀ d : Fin 4, d ≠ b → (t.arr isl j).bank d = (s.arr isl j).bank d) ∧ (t.issue isl (.array j)).queue = r ∧ t.mem = s.mem)))

/-- R199 to R201: a window that no earlier one waits for, whose units all hold its instruction, and whose instructions its groups can carry,
starts: it is done, and each of its units may execute the head of its queue. -/
def Obligations.MeshWindowResult : Prop :=
  ∀ (isl : Fin 16) (w held t : Nat) (s : State), s.tenOf isl = some t → s.fld (TN_STATE_STATE t) = 3 →
    let m := s.mesh isl
    let win := winAt m w
    let us := winUnits m win
    w < m.wins.length → m.done.get false w = false → s.fld (TN_SLOT_PLAN_SLOT t) = win.start / 800 →
    (∀ k, k < m.wins.length → win.start ≤ (winAt m k).start ∨ m.done.get false k = true) → s.winDead isl w = false →
    (∀ u ∈ us, (s.issue isl u).wpos ≤ w ∧ s.holds isl w u = true) →
    (∀ σ, σ < 16 → sectorBytes ((us.map (fun u => match (s.issue isl u).queue.head? with
      | some h => s.rangesOf isl u h
      | none => [])).flatten) σ ≤ win.len * (meshRoute m win).groups * 32) →
    Gives (exec (.meshWindowStart isl w held) s) (fun z =>
      (z.mesh isl).done.get false w = true ∧ (z.mesh isl).wins = m.wins ∧ m.t ≤ (z.mesh isl).t ∧
      (∀ u ∈ us, (z.issue isl u).granted = true ∧ (z.issue isl u).wpos = w + 1 ∧ (z.issue isl u).queue = (s.issue isl u).queue) ∧
      z.mem = s.mem ∧ z.cores = s.cores)

/-- R22, R113, R117: a sound program line enters the instruction cache of its core, not marked bad; where its page is retired the
fetch is refused and logged KIND 5 as a scalar core's; a cached line's single flip is corrected and counted, an uncorrectable one
refetches the line; the report of a unit's deferred trap makes its core take the trap, with cw.tpc at the instruction it has not yet
issued. -/
def Obligations.FetchAndDeferredTrap : Prop :=
  (∀ (c : CoreId) (line : Nat) (d : BitVec 64) (k : BitVec 8) (s : State), 128 * line < (s.core c).sect →
    let o := s.progAddr c + 128 * line
    let filled := fun (t : State) => (t.core c).icache.get true line = false ∧
      (t.core c).pc = (s.core c).pc ∧ (t.core c).g = (s.core c).g ∧ (t.core c).f = (s.core c).f ∧ (t.core c).cw = (s.core c).cw ∧
      (∀ d, d ≠ c → t.core d = s.core d) ∧ s.SameMem t
    (s.fetchRefused c line = true → Gives (exec (.ifetchLineFill c line none) s) (fun t =>
      t = s.logLine c.isl 5 (o % 0x6000000000 / 128 * 128) reqCore 0 0 0 ∧ t.cores = s.cores)) ∧
    (s.fetchRefused c line = false → s.CleanLine (o / 128 * 128) → s.CalmCache →
      Gives (exec (.ifetchLineFill c line none) s) filled) ∧
    ((s.core c).icache.any (fun e => e.1 == line) = true →
      (Flip.report ⟨d, k⟩ false = .corrected → Gives (exec (.ifetchLineFill c line (some (d, k))) s)
        (fun t => s.Counted t (IS_SC_ICACHE_CORRECTED c.isl c.sc) 1 ∧ t.cores = s.cores)) ∧
      (Flip.report ⟨d, k⟩ false = .uncorrectable → s.fetchRefused c line = false → s.CleanLine (o / 128 * 128) → s.CalmCache →
        Gives (exec (.ifetchLineFill c line (some (d, k))) s) (fun t => filled t ∧
          t.fld (IS_SC_ICACHE_REFETCHED c.isl c.sc) = min (s.fld (IS_SC_ICACHE_REFETCHED c.isl c.sc) + 1)
            (2 ^ (IS_SC_ICACHE_REFETCHED c.isl c.sc).w - 1))))) ∧
  (∀ (isl : Fin 16) (u : UnitId) (d : DTrap) (s : State), (s.issue isl u).fault = some d →
    let c : CoreId := ⟨isl, Fin.ofNat 8 d.sc⟩
    (s.scState c = stRunning ∨ s.scState c = stHandler) → (∀ a n b, (s.core c).wait ≠ .barrier a n b true) →
    Gives (exec (.deferredTrap isl u) s) (fun t =>
      s.Trapped t c d.cause (s.core c).pc d.tval true ∧ (t.issue isl u).fault = none ∧
      (t.issue isl u).queue = (s.issue isl u).queue))

/-! ### Transfers, synchronisation and frame control (R155 to R174) -/

/-- R157, R158, R160, R163: XF.MOVE, ST.SEND and ST.RECV with allowed operands and room in the queue of 32 transfers enter it and the
core goes on, an ST.SEND as its own island's of the transfer's senders; FY.RD and FY.WR of 1 to 64 lines of another island of the
tenancy send one ferry request a line, each with its own tag, FY.WR with the shoal lines as they stand at issue, where the base tile has
the tags and the room (R255). -/
def Obligations.TransferIssue : Prop :=
  (∀ (c : CoreId) (rd rs1 rs2 : Reg) (cnt : Fin 16) (s : State), s.Issues c [.g rd, .g rs1, .g rs2] →
    let d := ((s.core c).gGet rd).toNat
    let a := ((s.core c).gGet rs1).toNat
    let n := ((s.core c).gGet rs2).toNat
    d % 128 = 0 → a % 128 = 0 → n ≠ 0 → n % 128 = 0 → n < 2 ^ 32 → s.localSpanOk c.isl a n = true → s.localSpanOk c.isl d n = true →
    (s.core c).xfers.length < 32 →
    Gives (exec (.xfMove c rd rs1 rs2 cnt) s) (fun t => s.CoreStep t c { s.core c with
      pc := (s.core c).pc + 8
      issueNo := (s.core c).issueNo + 1
      xfers := (s.core c).xfers ++ [{ no := (s.core c).issueNo, pc := (s.core c).pc, kind := .xfMove d a n, cnt := cnt, left := 0 }] })) ∧
  (∀ (c : CoreId) (rs1 : Reg) (x : BitVec 12) (cnt : Fin 16) (s : State), s.Issues c [.g rs1] →
    let t := (s.tenOf c.isl).getD 0
    let p := s.plan t
    let a := ((s.core c).gGet rs1).toNat
    let j := s.logicalOf t c.isl
    let r := s.xrun t x.toNat
    a % 128 = 0 → (s.core c).xfers.length < 32 →
    (p.sends x.toNat j = true → (p.xfer x.toNat).src ≠ 1 → (∀ e ∈ r.send, e.1 ≠ j) → a + (p.xfer x.toNat).bytes ≤ shoalSize →
      Gives (exec (.stSend c rs1 x cnt) s) (fun z =>
        (z.xrun t x.toNat).send.get ⟨0, 0, 0⟩ j = ⟨coreKey c, (s.core c).issueNo, a⟩ ∧
        (∀ k, k ≠ j → (z.xrun t x.toNat).send.get ⟨0, 0, 0⟩ k = r.send.get ⟨0, 0, 0⟩ k) ∧ (z.core c).pc = (s.core c).pc + 8 ∧
        (z.core c).xfers = (s.core c).xfers ++
          [{ no := (s.core c).issueNo, pc := (s.core c).pc, kind := .stSend a x.toNat, cnt := cnt, left := 1 }] ∧
        (z.core c).g = (s.core c).g ∧ (∀ d, d ≠ c → z.core d = s.core d) ∧ z.mem = s.mem)) ∧
    (p.receives x.toNat j = true → (∀ e ∈ r.recv, e.1 ≠ j) → s.localSpanOk c.isl a (s.recvBytes t x.toNat j) = true →
      Gives (exec (.stRecv c rs1 x cnt) s) (fun z =>
        (z.xrun t x.toNat).recv.get ⟨0, 0, 0⟩ j = ⟨coreKey c, (s.core c).issueNo, a⟩ ∧ (z.core c).pc = (s.core c).pc + 8 ∧
        (z.core c).xfers = (s.core c).xfers ++
          [{ no := (s.core c).issueNo, pc := (s.core c).pc, kind := .stRecv a x.toNat, cnt := cnt, left := 1 }] ∧
        (z.core c).g = (s.core c).g ∧ (∀ d, d ≠ c → z.core d = s.core d) ∧ z.mem = s.mem))) ∧
  (∀ (c : CoreId) (rd rs1 rs2 : Reg) (cnt : Fin 16) (s : State), s.Issues c [.g rd, .g rs1, .g rs2] →
    let sh := ((s.core c).gGet rd).toNat
    let a := ((s.core c).gGet rs1).toNat
    let n := ((s.core c).gGet rs2).toNat
    let no := (s.core c).issueNo
    let pc := (s.core c).pc + 8
    s.fyCheck c sh a n = 0 → (s.core c).xfers.length < 32 → s.ferryBusy c.isl (islOfLine a) n = false →
    exec (.fyRd c rd rs1 rs2 cnt) s = .next (((s.addXfer c (.fyRd sh a n) cnt n).request c.isl ((List.range n).map (fun k =>
      ({ typ := ptRdReq, vc := 0, src := c.isl, dst := islOfLine a, tile := false, addr := a + 128 * k }, .xfer (coreKey c) no k)))).advance
        c pc) ∧
    ∃ (ls : List (Nat × Nat × Nat)) (bad : List Nat) (z : State), s.fyLines c.isl sh a n 0 = (ls, bad, z) ∧
      exec (.fyWr c rd rs1 rs2 cnt) s = .next (((z.addXfer c (.fyWr sh a n) cnt n (if bad.isEmpty then 0 else 1)
        (shoalBase c.isl + bad.headD 0)).request c.isl ((List.range n).map (fun k =>
          ({ typ := ptWrReq, vc := 0, src := c.isl, dst := islOfLine a, tile := false, addr := (ls.getD k (0, 0, 0)).1,
             mask := 2 ^ 128 - 1, data := (ls.getD k (0, 0, 0)).2.1, poison := (ls.getD k (0, 0, 0)).2.2 }, .xfer (coreKey c) no k)))).advance c pc))

/-- R161, R162: FB.RD, FB.WR and FB.ATOM of another node whose request the fabric engine sends enter the queue of transfers with
that request outstanding. -/
def Obligations.FabricOpIssue : Prop :=
  ∀ (c : CoreId) (rd rs1 rs2 rs3 rs4 : Reg) (cnt : Fin 16) (aop : BitVec 3) (z : State) (s : State),
    let x := s.core c
    let line := (x.gGet rd).toNat
    let node := (x.gGet rs1).toNat % 65536
    let off := (x.gGet rs2).toNat % 2 ^ 48
    let ten := (s.tenOf c.isl).getD 0
    node ≠ s.node → x.xfers.length < 32 →
    (s.Issues c [.g rd, .g rs1, .g rs2] → line % 128 = 0 → off % 128 = 0 → line + 128 ≤ shoalSize →
      s.originate
        { unit := c.isl, tbl := ten, node := node, off := off, typ := ftRdReq, vc := 0,
          who := .xfer (coreKey c) x.issueNo 0 } = .sent z →
      exec (.fbRd c rd rs1 rs2 cnt) s = .next ((z.addXfer c (.fbRd line node off) cnt 1).advance c (x.pc + 8))) ∧
    (s.Issues c [.g rd, .g rs1, .g rs2, .g rs3, .g (Fin.ofNat 32 (rs3.val + 1))] → rs3.val % 2 = 0 → line % 128 = 0 → off % 128 = 0 →
      line + 128 ≤ shoalSize → s.CleanLine (shoalBase c.isl + line) →
      let mask := (x.gGet rs3).toNat + (x.gGet (Fin.ofNat 32 (rs3.val + 1))).toNat * 2 ^ 64
      s.originate
        { unit := c.isl, tbl := ten, node := node, off := off, typ := ftWrReq, vc := 0, mask := mask,
          data := s.peek (shoalBase c.isl + line) 128, who := .xfer (coreKey c) x.issueNo 0 } = .sent z →
      exec (.fbWr c rd rs1 rs2 rs3 cnt) s = .next ((z.addXfer c (.fbWr line node off (BitVec.ofNat 128 mask)) cnt 1 0
        (shoalBase c.isl)).advance c (x.pc + 8))) ∧
    (s.Issues c [.g rs1, .g rs2, .g rs3, .g rs4] → off % 8 = 0 → aop.toNat ≤ 5 →
      s.originate
        { unit := c.isl, tbl := ten, node := node, off := off, typ := ftAtomReq, vc := 0, aop := aop.toNat,
          data := (x.gGet rs3).toNat + (x.gGet rs4).toNat * 2 ^ 64, who := .xfer (coreKey c) x.issueNo 0 } = .sent z →
      Gives (exec (.fbAtom c rd rs1 rs2 rs3 rs4 aop) s) (fun t => (t.core c).pc = x.pc + 8 ∧ (t.core c).g = x.g ∧
        (t.core c).xfers = (x.overtake rd).xfers ++ [
          { no := x.issueNo, pc := x.pc, cnt := 0, left := 1,
            kind := .fbAtom rd node off aop.toNat (x.gGet rs3) (x.gGet rs4) }] ∧
        (∀ d, d ≠ c → t.core d = s.core d) ∧ t.freqs = z.freqs))

/-- R155, R164: a transfer with no line outstanding and no failure leaves the queue and counts one in its completion counter, whose word
is sound (R110); an FB.ATOM writes the old value to g[rd] instead. -/
def Obligations.TransferCompletes : Prop :=
  ∀ (c : CoreId) (no : Nat) (x : Xfer) (s : State), (s.core c).xfers.find? (fun y => y.no == no) = some x → x.left = 0 → x.status = 0 →
    (∀ d a n, x.kind ≠ .xfMove d a n) →
    (match x.kind with
     | .fbAtom .. => True
     | _ => s.Sound c (.cw (0x040 + x.cnt))) →
    Gives (exec (.transferComplete c no) s) (fun t =>
      (t.core c).xfers = (s.core c).xfers.filter (fun y => y.no != no) ∧ (t.core c).pc = (s.core c).pc ∧
      (t.core c).f = (s.core c).f ∧ (∀ d, d ≠ c → t.core d = s.core d) ∧ t.mem = s.mem ∧ t.arisen = s.arisen ∧
      (match x.kind with
       | .fbAtom rd .. => (t.core c).gGet rd = (if rd = 0 then 0 else x.val) ∧ t.marked c (.g rd) = false ∧
          (∀ q, q ≠ rd → (t.core c).gGet q = (s.core c).gGet q) ∧ (t.core c).cw = (s.core c).cw
       | _ => (t.core c).g = (s.core c).g ∧
          (x.cnt < 16 → (t.core c).cwGet (0x040 + x.cnt) =
            BitVec.ofNat 64 (((s.core c).cwGet (0x040 + x.cnt)).toNat + 1) &&& 0xFFFF_FFFF#64) ∧
          ∀ k, k ≠ 0x040 + x.cnt → (t.core c).cwGet k = (s.core c).cwGet k))

/-- R157: an XF.MOVE between two disjoint, sound stretches of its own shoal copies every byte, leaves all other memory, and counts one in its completion
counter, where that word is sound (R110). -/
def Obligations.MoveCopiesShoal : Prop :=
  ∀ (c : CoreId) (no : Nat) (x : Xfer) (d a n : Nat) (s : State), (s.core c).xfers.find? (fun y => y.no == no) = some x →
    x.kind = .xfMove d a n → x.status = 0 → x.cnt < 16 → d % 128 = 0 → a % 128 = 0 → n % 128 = 0 →
    a + n ≤ shoalSize → d + n ≤ shoalSize → (a + n ≤ d ∨ d + n ≤ a) →
    (∀ k, k < n / 128 → s.CleanLine (shoalBase c.isl + a + 128 * k)) →
    Gives (exec (.transferComplete c no) s) (fun t =>
      (∀ j, j < n → t.byte (shoalBase c.isl + d + j) = s.byte (shoalBase c.isl + a + j)) ∧
      s.SameMemBut t (shoalBase c.isl + d) n ∧ (t.core c).xfers = (s.core c).xfers.filter (fun y => y.no != no) ∧
      (s.Sound c (.cw (0x040 + x.cnt)) → (t.core c).cwGet (0x040 + x.cnt) =
        BitVec.ofNat 64 (((s.core c).cwGet (0x040 + x.cnt)).toNat + 1) &&& 0xFFFF_FFFF#64) ∧
      (t.core c).g = (s.core c).g ∧ (∀ k, k ≠ c → t.core k = s.core k))

/-- R166 to R169, R171, R172, R174: SYNC, WAITC, FENCE, FLAG.WAIT, BARRIER and FEND with allowed operands make the core wait at
their own pc, and nothing else changes; a wait whose condition holds retires and the core goes on at the next instruction; one
whose condition does not hold stays, without effect; FEND leaves the core at FEND. The control words that the hardware reads for
WAITC and for a FENCE's limit are sound (R110). -/
def Obligations.WaitResult : Prop :=
  (∀ (c : CoreId) (s : State),
    let x := s.core c
    let waits := fun (w : Wait) (t : State) => s.CoreStep t c { x with wait := w, issueNo := x.issueNo + 1 }
    (s.Issues c [] → ∀ (m : BitVec 8) (v : BitVec 4) (xf fab fy : Bool),
      (m ≠ 0 ∨ v ≠ 0 ∨ xf = true → Gives (exec (.sync c m v xf) s) (waits (.sync m v xf x.issueNo))) ∧
      (fab = true ∨ fy = true → Gives (exec (.fence c fab fy) s) (waits (.fence fab fy x.issueNo s.now))) ∧
      Gives (exec (.fend c) s) (waits (.fend x.issueNo))) ∧
    (∀ (rs1 : Reg) (k : Fin 16) (n : BitVec 8), s.Issues c [.g rs1] →
      Gives (exec (.waitc c k rs1) s) (waits (.waitc k ((x.gGet rs1).setWidth 32))) ∧
      (s.flagCheck c (x.gGet rs1).toNat false = 0 → n ≠ 0 → n.toNat ≤ 128 →
        Gives (exec (.barrier c rs1 n) s) (waits (.barrier (x.gGet rs1).toNat n.toNat x.issueNo false)))) ∧
    (∀ (rs1 rs2 : Reg) (rel : BitVec 2), s.Issues c [.g rs1, .g rs2] → s.flagCheck c (x.gGet rs1).toNat true = 0 → rel ≠ 3 →
      Gives (exec (.flagWait c rs1 rs2 rel) s) (waits (.flagWait (x.gGet rs1).toNat (x.gGet rs2) rel.toNat
        (let w := s.peek (x.gGet rs1).toNat 8
         if rel = 0 then w == (x.gGet rs2).toNat else if rel = 1 then decide ((x.gGet rs2).toNat ≤ w) else w != (x.gGet rs2).toNat))))) ∧
  (∀ (c : CoreId) (s : State),
    let x := s.core c
    let goes := fun (t : State) => s.CoreStep t c { x with wait := .none, pc := x.pc + 8 }
    (∀ m v xf b, x.wait = .sync m v xf b →
      let ok := s.unitsClear c m.toNat v.toNat b = true ∧ (xf = true → x.xfersClear XKind.inSync b = true)
      (ok → Gives (exec (.syncRetire c) s) goes) ∧ (¬ ok → exec (.syncRetire c) s = .next s)) ∧
    (∀ k v, x.wait = .waitc k v → s.Sound c (.cw (0x040 + k)) →
      let d := (((x.cwGet (0x040 + k)).setWidth 32 : BitVec 32) - v).toNat
      (d < 2 ^ 31 → Gives (exec (.waitcRetire c) s) goes) ∧ (2 ^ 31 ≤ d → exec (.waitcRetire c) s = .next s)) ∧
    (∀ fab fy b since, x.wait = .fence fab fy b since →
      ((∀ y ∈ x.xfers, b ≤ y.no ∨ y.left = 0 ∨
          ¬ ((fy = true ∧ y.kind.onFerry s.node = true) ∨ (fab = true ∧ y.kind.onFabric s.node = true))) →
        Gives (exec (.fenceComplete c) s) goes) ∧
      (s.Sound c (.cw cwFenceLimit) →
        (since + fenceTicks (x.cwGet cwFenceLimit) ≤ s.now → Gives (exec (.fenceTimeout c) s) (s.Trapped · c trFence x.pc 0 false)) ∧
        (s.now < since + fenceTicks (x.cwGet cwFenceLimit) → exec (.fenceTimeout c) s = .next s))) ∧
    (∀ a v rel, (x.wait = .flagWait a v rel true → Gives (exec (.flagWaitRetire c) s) goes) ∧
      (x.wait = .flagWait a v rel false → exec (.flagWaitRetire c) s = .next s)) ∧
    (∀ b, x.wait = .fend b → s.unitsClear c 255 15 b = true → x.xfersClear XKind.inFend b = true →
      Gives (exec (.fendRetire c) s) (fun t => t.scState c = stFend ∧ t.core c = { x with wait := .none, pc := x.pc + 8 } ∧
        (∀ d, d ≠ c → t.core d = s.core d) ∧ t.mem = s.mem)))

/-- R170, R173, R255: FLAG.SET and FLAG.ADD keep their signal; it goes, on VC2, once everything the core issued before has completed, no
earlier signal waits and the base tile has room for it; until then RELEASE_SIGNAL_SEND has no effect. -/
def Obligations.FlagSignals : Prop :=
  (∀ (c : CoreId) (rs1 rs2 : Reg) (s : State), s.Issues c [.g rs1, .g rs2] →
    let x := s.core c
    let a := (x.gGet rs1).toNat
    s.flagCheck c a false = 0 →
    let keeps := fun (kind : Nat) (t : State) => s.CoreStep t c
      { x with pc := x.pc + 8, issueNo := x.issueNo + 1,
               rels := x.rels ++ [⟨x.issueNo, kind, a, x.gGet rs2⟩] }
    Gives (exec (.flagSet c rs1 rs2) s) (keeps 0) ∧ Gives (exec (.flagAdd c rs1 rs2) s) (keeps 1)) ∧
  (∀ (c : CoreId) (no : Nat) (s : State),
    (s.mayRelease c no = false → exec (.releaseSignalSend c no) s = .next s) ∧
    (∀ r, (s.core c).rels.find? (fun y => y.no == no) = some r → s.ferryBusy c.isl (flagTile r.addr) 0 = true →
      exec (.releaseSignalSend c no) s = .next s) ∧
    (∀ r, s.mayRelease c no = true → (s.core c).rels.find? (fun y => y.no == no) = some r →
      s.ferryBusy c.isl (flagTile r.addr) 0 = false →
      Gives (exec (.releaseSignalSend c no) s) (fun t =>
        t.core c = { s.core c with rels := (s.core c).rels.filter (fun y => y.no != no) } ∧
        (∀ d, d ≠ c → t.core d = s.core d) ∧ t.mem = s.mem ∧
        t.tiles = ((s.setCore c { s.core c with rels := (s.core c).rels.filter (fun y => y.no != no) }).postPkts c.isl
          [{ typ := if r.kind = 0 then ptFlagSet else ptFlagAdd, vc := 2, src := c.isl, dst := flagTile r.addr,
             tile := false, addr := r.addr, data := r.val.toNat }]).tiles)))

/-! ### Control registers (R4 to R10, R340 to R342, R410 to R419, R437) -/

/-- R4, R6, R9, R10, R423, R435, R464: a read that the register space takes completes: a host that may see the register, or asks before
READY for one that is shown then, gets what it shows; RC fields lose their bits, a read of the lower half acting on both halves and latching
the upper, which the read of the upper half takes, and one of an upper half not latched acting on that half; a host turned away reads zero, and counts; one that R10 refuses reads nothing; the configuration space
answers its entry (R414). -/
def Obligations.RegisterReadResult : Prop :=
  ∀ (src : RegSrc) (off : BitVec 32) (s : State),
    let o := off.toNat / 8 * 8
    let l := s.fieldsAt o
    let w := s.shown o
    let reg := s.windowWord o = none
    let who := whoKey src
    let sees := fun (a : Nat) => match src with
      | .host p => (s.fld LH_START_PHASE = 9 ∧ s.mayRead p a = true) ∨ (s.fld LH_START_PHASE ≠ 9 ∧ earlyRead a = true)
      | .mgmt => True
      | .config _ _ => False
    let answer := fun (a size v : Nat) => s.out ++ [.regData who a size v] ++ (if src = .mgmt then [.mgmtStatus a 0] else [])
    -- the register is shown
    (off.toNat < 0x4000000 →
      (off.toNat % 8 = 0 → sees off.toNat → Gives (exec (.rcRead src off 8) s) (fun t =>
        t.out = answer off.toNat 8 w ∧ (reg → s.ClearedRc t l 0 64))) ∧
      (sees o → Gives (exec (.lowerHalfRead src off) s) (fun t =>
        t.out = answer o 4 (w % 2 ^ 32) ∧ (reg → s.ClearedRc t l 0 64 ∧ t.latch.get (0, 0) who = (o, w / 2 ^ 32)))) ∧
      (sees (o + 4) → Gives (exec (.upperHalfRead src off) s) (fun t =>
        (∀ e, s.latch.find? (fun x => x.1 == who && x.2.1 == o) = some e → reg →
          t.out = answer (o + 4) 4 e.2.2 ∧ t.latch = s.latch.erase who ∧ t.regs = s.regs) ∧
        (s.latch.find? (fun x => x.1 == who && x.2.1 == o) = none → reg →
          t.out = answer (o + 4) 4 (w / 2 ^ 32) ∧ s.ClearedRc t l 32 64) ∧
        (¬ reg → t.out = answer (o + 4) 4 (w / 2 ^ 32))))) ∧
    (off.toNat < 0x4000000 → off.toNat % 8 = 0 → Gives (exec (.mgmtRegRead off 8) s) (fun t =>
      t.out = s.out ++ [.regData 4 off.toNat 8 w, .mgmtStatus off.toNat 0] ∧
      (reg → s.ClearedRc t l 0 64 ∧ (o = 0x180 → t.alertN = false)))) ∧
    -- it is not
    (∀ p : Fin 4, off.toNat < 0x4000000 → off.toNat % 8 = 0 →
      (s.fld LH_START_PHASE = 9 → s.mayRead p off.toNat = false → Gives (exec (.rcRead (.host p) off 8) s) (fun t =>
        t.out = s.out ++ [.regData p off.toNat 8 0] ∧ s.Counted t (HP_FILTERED_READS p) 1)) ∧
      (s.fld LH_START_PHASE ≠ 9 → earlyRead off.toNat = false →
        exec (.rcRead (.host p) off 8) s = .next { s with out := s.out ++ [.regData p off.toNat 8 0] })) ∧
    (off.toNat % 8 ≠ 0 ∨ 0x4000000 ≤ off.toNat →
      exec (.mgmtRegRead off 8) s = .next { s with out := s.out ++ [.mgmtStatus off.toNat badAccess] } ∧
      ∀ p : Fin 4, exec (.rcRead (.host p) off 8) s = .next { s with out := s.out ++ [.regRefused p off.toNat] }) ∧
    (∀ (p : Fin 4) (item : CfgItem) (size : BitVec 8), exec (.rcRead (.config p item) off size) s =
      .next { s with out := s.out ++ [.regData p off.toNat size.toNat (s.cfgWord p item)] })

/-- R4, R5, R7, R8, R423, R435: a write of an island's register sets its RW fields, clears the written ones of RW1C fields and
leaves read-only fields; a host write that is not allowed only counts; a write of the configuration space turns message signalling on
and off, and leaves what is read only as it was (R414). -/
def Obligations.RegisterWriteResult : Prop :=
  ∀ (off : BitVec 32) (v : BitVec 64) (s : State),
    let l := s.fieldsAt off.toNat
    let done := fun (t : State) =>
      (∀ f ∈ l, t.fld f = match f.acc with
        | .rw => bits v.toNat f.lo f.w
        | .rwl => if s.fld SEC_LOCK_CLOSED = 1 then s.fld f else bits v.toNat f.lo f.w
        | .rw1c => clearBits (s.fld f) (bits v.toNat f.lo f.w) % 2 ^ f.w
        | _ => s.fld f) ∧
      s.RegsBut t l ∧ t.mem = s.mem ∧ t.cores = s.cores
    (∀ (p : Fin 4) (size : BitVec 8), Gives (exec (.registerWrite (.config p .msixEnable) off size v) s) (fun t =>
        t.msixOn.get false p = bitOf v.toNat 0 ∧ t.regs = s.regs ∧ t.pcie = s.pcie) ∧
      ∀ item ∈ [CfgItem.ids, .classRev, .msixVectors, .serial], exec (.registerWrite (.config p item) off size v) s = .next s) ∧
    (0x2000000 ≤ off.toNat → off.toNat < 0x3000000 → off.toNat % 8 = 0 → off.toNat % 0x100000 ≠ 0x908 → Apart l →
    (∀ p : Fin 4, s.fld LH_START_PHASE = 9 →
      (s.mayWrite p off.toNat = true → Gives (exec (.registerWrite (.host p) off 8 v) s) (fun t => done t ∧ t.out = s.out)) ∧
      (s.mayWrite p off.toNat = false → Gives (exec (.registerWrite (.host p) off 8 v) s) (fun t =>
        s.Counted t (HP_FILTERED_WRITES p) 1 ∧ t.out = s.out))) ∧
    Gives (exec (.mgmtRegWrite off 8 v) s) (fun t => done t ∧ t.out = s.out ++ [.mgmtStatus off.toNat 0]))

/-- R410, R411, R437, R340, R341, R342: the owner's writes of HP_PORT_RING, TN_RUNREC_STAT.TAIL, TN_STOP_AT and LK_CTL. -/
def Obligations.OwnerWriteResult : Prop :=
  ∀ (p : Fin 4) (s : State), s.fld LH_START_PHASE = 9 →
    (∀ v : BitVec 64, Gives (exec (.portRingWrite (.host p) p v) s) (fun t =>
      s.RegsBut t [HP_PORT_RING_LOG2 p, HP_PORT_RING_ENABLE p, HP_PORT_RING_BASE p] ∧
      t.fld (HP_PORT_RING_ENABLE p) = bits v.toNat 4 1 ∧
      (if s.fld (HP_PORT_RING_ENABLE p) = 1 then
        t.fld (HP_PORT_RING_LOG2 p) = s.fld (HP_PORT_RING_LOG2 p) ∧ t.fld (HP_PORT_RING_BASE p) = s.fld (HP_PORT_RING_BASE p)
      else t.fld (HP_PORT_RING_LOG2 p) = bits v.toNat 0 4 ∧ t.fld (HP_PORT_RING_BASE p) = bits v.toNat 12 52))) ∧
    (∀ (t : Fin 16) (tail : BitVec 32) (v : BitVec 64), s.ownsTen p t = true →
      exec (.runrecTailWrite (.host p) t tail) s = .next ((s.setFld (TN_RUNREC_STAT_TAIL t) tail.toNat).runrecGo t) ∧
      Gives (exec (.stopAtWrite (.host p) t v) s) (fun z => z.fld (TN_STOP_AT_STOP t) = bits v.toNat 0 48 ∧
        z.fld (TN_STOP_AT_ENABLE t) = bits v.toNat 48 1 ∧ s.RegsBut z [TN_STOP_AT_STOP t, TN_STOP_AT_ENABLE t] ∧ z.mem = s.mem)) ∧
    (∀ (k : Fin 32), s.ownsLink p k = true →
      (∀ g : BitVec 2, Gives (exec (.linkTargetWrite (.host p) k g) s) (fun t => t.fld (LK_CTL_TARGET k) = g.toNat ∧
        (g = 0 → t.lkState k = lsDown) ∧ (g = 1 → s.lkState k = lsUp → (t.lk k).quieting = true ∧ t.lkState k = lsUp) ∧
        (2 ≤ g.toNat → t.lk k = s.lk k ∧ t.lkState k = s.lkState k))) ∧
      (s.fld (LK_CTL_TARGET k) < 4 →
        (s.lkState k = lsUp → Gives (exec (.linkRetrainWrite (.host p) k) s) (fun t => t.lkState k = lsRetrain ∧
          t.fld (LK_CTL_TARGET k) = s.fld (LK_CTL_TARGET k) ∧ (t.lk k).kept = (s.lk k).kept ∧
          t.arisen = addEv { code := 0x4010, isl := 16, src := lkSrc k, detail := 0 } s.arisen)) ∧
        Gives (exec (.linkReset (.host p) k) s) (fun t =>
          t.lkState k = (if 2 ≤ s.fld (LK_CTL_TARGET k) then 1 else lsDown) ∧ t.fld (LK_CTL_TARGET k) = s.fld (LK_CTL_TARGET k))))

/-- R413, R414, R416 to R419, R437: a port's reset, its training, and the tenancy memory window, where its base tile has the tag and the
room (R163, R255). -/
def Obligations.HostPortResult : Prop :=
  ∀ (p : Fin 4) (s : State),
    (∀ kind, Gives (exec (.portReset p kind) s) (fun t => t.fld (HP_PORT_RING_ENABLE p) = 0 ∧ t.msixOn.get false p = false ∧
      t.pcie.get {} p = {} ∧ (∀ e ∈ t.msixNext, e / 2048 ≠ p.val) ∧ (∀ e ∈ t.msixTbl, e.1 / 8192 ≠ p.val) ∧ (∀ e ∈ t.msixPba, e.1 / 2048 ≠ p.val) ∧
      t.fld (HP_PORT_SEQ_LAST_SEQ p) = s.fld (HP_PORT_SEQ_LAST_SEQ p))) ∧
    (∀ speed (width : BitVec 4) flit clk, Gives (exec (.perstRelease p speed width flit clk) s) (fun t =>
      t.fld (HP_STAT_SPEED p) = speed.val ∧ t.fld (HP_STAT_WIDTH p) = width.toNat % 2 ^ (HP_STAT_WIDTH p).w ∧
      t.fld (HP_STAT_FLIT p) = (if flit then 1 else 0) ∧ t.fld (HP_STAT_SRIS p) = (if 2 ≤ clk.val then 1 else 0) ∧
      s.RegsBut t [HP_STAT_SPEED p, HP_STAT_WIDTH p, HP_STAT_FLIT p, HP_STAT_SRIS p])) ∧
    (∀ (x : BitVec 64) (len : Fin 4097) (req : BitVec 32),
      (s.fld LH_START_PHASE ≠ 9 → exec (.bar2Read p x len req) s = .next { s with out := s.out ++ [.barRefused p req.toNat] }) ∧
      (s.fld LH_START_PHASE = 9 → spanLines x.toNat (max len.val 1) = 1 →
        (s.barTarget p (x.toNat / 128 * 128) = none → s.ferryBusy (portTile p) (portTile p) 1 = false →
          exec (.bar2Read p x len req) s = .next { s with out := s.out ++ [.barRefused p req.toNat] }) ∧
        (∀ i a, s.barTarget p (x.toNat / 128 * 128) = some (i, a) → s.ferryBusy (portTile p) i 1 = true →
          exec (.bar2Read p x len req) s = .next s) ∧
        (∀ i a, s.barTarget p (x.toNat / 128 * 128) = some (i, a) → s.ferryBusy (portTile p) i 1 = false →
          exec (.bar2Read p x len req) s =
            .next (s.request (portTile p) [(barPkt p i a ptRdReq 0 0 0, .host p req.toNat 0)])))) ∧
    (∀ (x : BitVec 64) (data : BitVec 1024) (mask : BitVec 128) (poison : Bool) (i a : Nat), s.fld LH_START_PHASE = 9 →
      s.barTarget p (x.toNat / 128 * 128) = some (i, a) → s.ferryBusy (portTile p) i 1 = false →
      let sent := s.request (portTile p) [(barPkt p i a ptWrReq data.toNat mask.toNat (if poison then 0xFFFF else 0), .hostWrite p)]
      exec (.bar2Write p x data mask poison) s = .next (if poison then { sent with out := sent.out ++ [.aerPoisoned p] } else sent))

/-! ### The memory fabric and the links (R326 to R374) -/

/-- R350, R356, R359, R369, R371, R374: the node number is set once; RT_INVAL drops cached routes; the Haldula table switches banks;
the mailbox sends; idle contexts and windows are freed. -/
def Obligations.FabricControlResult : Prop :=
  ∀ s : State,
    (∀ n : BitVec 16,
      (s.fld FB_NODE_VALID ≠ 1 → Gives (exec (.nodeWrite n) s) (fun t =>
        t.fld FB_NODE_NODE = n.toNat ∧ t.fld FB_NODE_VALID = 1 ∧ s.RegsBut t [FB_NODE_NODE, FB_NODE_VALID] ∧
        (∀ k, (t.lk k).since = if k < 32 ∧ s.lkState k = 4 then s.now else (s.lk k).since) ∧ t = { s with regs := t.regs, lks := t.lks })) ∧
      (s.fld FB_NODE_VALID = 1 → exec (.nodeWrite n) s = .next s)) ∧
    (∀ v : BitVec 64, Gives (exec (.rtInval v) s) (fun t =>
      (∀ e, e ∈ t.rtCache ↔ e ∈ s.rtCache ∧ ¬ (e.1 / 65536 = (if bitOf v.toNat 21 then 16 else bits v.toNat 16 4) ∧
        (bitOf v.toNat 20 = true ∨ e.1 % 65536 = bits v.toNat 0 16))) ∧ t = { s with rtCache := t.rtCache })) ∧
    (s.fld FB_HT_CTL_DRAINING ≠ 1 → Gives (exec .htSwitch s) (fun t =>
      t.fld FB_HT_CTL_ACTIVE = 1 - s.fld FB_HT_CTL_ACTIVE ∧ t.fld FB_HT_CTL_DRAINING = 1 ∧ t.htSwitchAt = s.now ∧
      s.RegsBut t [FB_HT_CTL_ACTIVE, FB_HT_CTL_DRAINING])) ∧
    (s.fld FB_HT_CTL_DRAINING = 1 → Gives (exec .htSwitch s) (fun t => s.Counted t FB_HT_CTL_REFUSED 1)) ∧
    (s.fld FB_HT_CTL_DRAINING = 1 → us 50 ≤ s.now - s.htSwitchAt → Gives (exec .htDrainEnd s) (fun t =>
      t.fld FB_HT_CTL_DRAINING = 0 ∧ s.RegsBut t [FB_HT_CTL_DRAINING] ∧ t = { s with regs := t.regs })) ∧
    (∀ write wide : Bool, s.fld FB_MBOX_CTL_BUSY ≠ 1 → s.fld FB_MBOX_ADDR_NODE = s.node →
      Gives (exec (.mboxGo write wide) s) (fun t => t.fld FB_MBOX_CTL_BUSY = 1 ∧ t.fld FB_MBOX_CTL_STATUS = 0 ∧
        t.fld FB_MBOX_CTL_WRITE = write.toNat ∧ t.fld FB_MBOX_CTL_WIDE = wide.toNat ∧
        (if s.ferryBusy 0 0 1 then t.tile 0 = s.tile 0 ∧ ∃ q, t.mbox = some q ∧ q.held = true
         else ∃ p, (t.tile 0).here = (s.tile 0).here ++ [p] ∧ p.typ = (if write then ptWrReq else ptRdReq) ∧ p.vc = 3 ∧
          p.addr = s.fld FB_MBOX_ADDR_OFFSET / 8 * 8 ∧ (p.tag, Waiter.mbox) ∈ (t.tile 0).tags))) ∧
    (∀ (unit dunit : Fin 17) (node : BitVec 16) (vc : Fin 4),
      Gives (exec (.sourceContextFree unit node dunit vc) s) (fun t =>
        (∀ c, c ∈ t.sctxs ↔ c ∈ s.sctxs ∧ ¬ (c.is unit node.toNat dunit vc = true ∧ ms 5 ≤ s.now - c.lastAt ∧
          ∀ r ∈ s.live, r.inStream unit node.toNat dunit vc = false)) ∧ t = { s with sctxs := t.sctxs }) ∧
      Gives (exec (.destContextFree node unit dunit vc) s) (fun t =>
        (∀ c, c ∈ t.dctxs ↔ c ∈ s.dctxs ∧ ¬ (c.node = node.toNat ∧ c.unit = unit.val ∧ c.dunit = dunit.val ∧ c.vc = vc.val ∧
          c.held = [] ∧ ms 10 ≤ s.now - c.lastAt)) ∧ t = { s with dctxs := t.dctxs }) ∧
      Gives (exec (.sendWindowReset unit node) s) (fun t =>
        (∀ w, w ∈ t.swins ↔ w ∈ s.swins ∧ ¬ (w.unit = unit.val ∧ w.node = node.toNat ∧ ms 5 ≤ s.now - w.lastAt ∧
          ∀ r ∈ s.live, ¬ (r.unit = unit.val ∧ r.pkt.dstNode = node.toNat))) ∧ t = { s with swins := t.swins }))

/-- R357 to R365: a packet goes on along its path; a response ends the request it answers; the expected request is
applied and answered; retries, resends, exhaustion and the query of an atomic held UNKNOWN. -/
def Obligations.FabricTrafficResult : Prop :=
  (∀ (k : Fin 32) (f : FIn) (z s : State), s.lostPkts.find? (fun e => e.1 == k.val) = none →
    s.takeIn k (fun p => match s.hop p with | .deliver => false | _ => true) = some (f, z) →
    f.pkt.haldula = false → f.pkt.hop < f.pkt.hops → 5 * (z.now - f.at_) < f.pkt.life →
    z.lkState (pathAt f.pkt.path f.pkt.hop) = lsUp →
    exec (.fabricForward k) s = .next (z.toLink .transit (linkTile k) (pathAt f.pkt.path f.pkt.hop)
      { f.pkt with life := f.pkt.life - 5 * (z.now - f.at_), path := putBits f.pkt.path (5 * f.pkt.hop) 5 k, hop := f.pkt.hop + 1 })) ∧
  (∀ (k : Fin 32) (f : FIn) (tag : Nat) (r : FReq) (z s : State),
    s.takeIn k (fun p => !p.isRequest && (match s.hop p with | .deliver => true | _ => false)) = some (f, z) →
    z.freqs.find? (fun e => e.1 == f.pkt.tag && e.2.pkt.eseq == f.pkt.eseq && e.2.pkt.dstNode == f.pkt.dstNode) = some (tag, r) →
    f.pkt.life ≠ 0 →
    (r.unit < 16 → exec (.fabricResponse k) s =
      .next (z.crossBase (linkTile k) r.unit { kind := .answer, link := k, pkt := f.pkt, at_ := z.now })) ∧
    (16 ≤ r.unit → r.unknown = false → f.pkt.typ ≠ ftNack → exec (.fabricResponse k) s =
      .next ((((if f.pkt.echo then z.bump FB_STAT2_ECHO_RX 1 else z).dropReq tag r).winResponse r.unit r.pkt.dstNode f.pkt.echo).fabricEnd
        r.who (if f.pkt.poison then .poison else .ok) tag f.pkt.data))) ∧
  (let inOrder (z : State) (k : Nat) (p : FPkt) (o : Host.Outcome State Fault Refusal) : Prop := ∀ (c : DCtx) (a : FAns) (y : State),
      p.typ ≠ ftAstatReq → p.typ ≠ ftAtomReq → z.dctxs.find? (fun d => d.is p) = some c → c.incarn = p.incarn → p.syn = false →
      p.eseq = c.expect → c.held = [] → z.captured p.offset = none → z.applyFabric p = (a, y) →
      o = .next ((y.setDctx { c with lastAt := z.now, expect := (c.expect + 1) % seqMod }).sendAns p k a)
   (∀ (k : Fin 32) (f : FIn) (z s : State),
      s.takeIn k (fun p => p.isRequest && (match s.hop p with | .deliver => true | _ => false)) = some (f, z) →
      f.pkt.life ≠ 0 → z.asleep = false → f.pkt.malformed = false →
      (dunitOf f.pkt.offset < 16 → exec (.fabricRequestArrive k) s = .next (z.crossBase (linkTile k) (dunitOf f.pkt.offset)
        { kind := .request, link := k, pkt := f.pkt, at_ := z.now })) ∧
      (16 ≤ dunitOf f.pkt.offset → inOrder z k f.pkt (exec (.fabricRequestArrive k) s))) ∧
   (∀ (b : Fin 16) (q : Pkt) (key : Nat) (x : Cross) (s : State), s.nextHere (s.tile b).here [] = some q →
      s.crossing.find? (fun e => e.1 == crossKey q) = some (key, x) →
      let z := { s.setTile b { s.tile b with here := (s.tile b).here.erase q } with crossing := s.crossing.erase key }
      (x.kind = .out → s.lkState x.link = lsUp → exec (.sameTileServe b) s = .next (z.sendLink x.link x.pkt)) ∧
      (x.kind = .request → inOrder z x.link x.pkt (exec (.sameTileServe b) s)))) ∧
  (∀ (tag : BitVec 16) (r q : FReq) (z s : State), s.freqs.find? (fun e => e.1 == tag.toNat) = some (tag.toNat, r) →
    r.unknown = false → r.spent s.now = false →
    (r.busy = none → us (if s.fld FB_CFG_TIMEOUT = 0 then 1000 else s.fld FB_CFG_TIMEOUT) ≤ s.now - r.lastTx → r.retries < 3 →
      (s.bump FB_STAT_RETRIES 1).resend tag.toNat { r with retries := r.retries + 1 } false = (some q, z) →
      exec (.fabricRetryTimeout tag) s = .next z) ∧
    (∀ at_, r.busy = some at_ → us 10 ≤ s.now - at_ → (s.bump FB_STAT_RESENDS 1).resend tag.toNat r false = (some q, z) →
      exec (.fabricBusyResend tag) s = .next z)) ∧
  (∀ (tag : BitVec 16) (r : FReq) (core no line : Nat) (s : State),
    s.freqs.find? (fun e => e.1 == tag.toNat) = some (tag.toNat, r) → r.unknown = false → r.spent s.now = true →
    r.pkt.typ = ftAtomReq → r.who = .xfer core no line →
    Gives (exec (.fabricRetryTimeout tag) s) (fun t => t.freqs = s.freqs.set tag.toNat { r with unknown := true, busy := none } ∧
      ∀ c ∈ t.sctxs, c.is r.unit r.pkt.dstNode r.dunit r.pkt.vc = true → c.blocked = true)) ∧
  (∀ (tag : BitVec 16) (r : FReq) (s : State), s.freqs.find? (fun e => e.1 == tag.toNat) = some (tag.toNat, r) → r.unknown = true →
    (ms 16 ≤ s.now - r.first → r.query = [] → exec (.atomicUnknownExpire tag) s = .next (s.dropReq tag.toNat r)) ∧
    (r.query ≠ [] → r.queryAt = none → us 50 ≤ s.now - r.lastTx → exec (.astatQuerySend tag) s = .next (s.sendQuery tag.toNat r)) ∧
    (∀ at_, r.queryAt = some at_ → ms 1 ≤ s.now - at_ → s.now - r.first < ms 16 →
      exec (.astatQueryRetry tag) s = .next (s.sendQuery tag.toNat r)))

/-- R339 to R343: training steps, failures and retries, quiet and waking, retraining and its limit. -/
def Obligations.LinkStateResult : Prop :=
  ∀ (k : Fin 32) (s : State),
    (∀ i : TrainInfo, i.ok = true →
      (s.lkState k = lsDown → s.lkTarget k = 2 → (s.lk k).failedAt = none → 3 ≤ s.fld LH_START_PHASE → s.fld LH_START_PHASE ≤ 9 →
        Gives (exec (.linkTrainStep k i) s) (fun t => t.lkState k = 1 ∧ t.fld (LK_MAP_TX_MAP k) = 0x76543210 ∧
          t.fld (LK_MAP_RX_MAP k) = 0x76543210 ∧ (t.lk k).trainAt = s.now)) ∧
      (1 ≤ s.lkState k → s.lkState k < 4 → Gives (exec (.linkTrainStep k i) s) (fun t => t.lkState k = s.lkState k + 1 ∧
        (s.lkState k = 3 → (t.lk k).rxAt = i.count.toNat ∧ (t.lk k).rxWait = []))) ∧
      (s.lkState k = 4 → s.fld FB_NODE_VALID ≠ 0 → 4 ≤ (mapLanes (dropLanes (s.fld (LK_MAP_TX_MAP k)) i.txLanes.toNat)).length →
        4 ≤ (mapLanes (dropLanes (s.fld (LK_MAP_RX_MAP k)) i.rxLanes.toNat)).length →
        dropLanes (s.fld (LK_MAP_TX_MAP k)) i.txLanes.toNat < 2 ^ 32 → dropLanes (s.fld (LK_MAP_RX_MAP k)) i.rxLanes.toNat < 2 ^ 32 →
        Gives (exec (.linkTrainStep k i) s) (fun t => t.lkState k = lsUp ∧ t.fld (LK_STAT_PEER_NODE k) = i.node.toNat ∧
          t.fld (LK_STAT_PEER_LINK k) = i.link.val ∧ t.fldBit LH_LINKS_LINKS_UP k = true))) ∧
    ((1 ≤ s.lkState k ∧ s.lkState k ≤ 3 ∨ s.lkState k = 4 ∧ s.fld FB_NODE_VALID = 1) →
      (s.lk k).since + stepLimit (s.lkState k) (s.flash.calRec 9 k).isNone < s.now →
      Gives (exec (.linkTrainTimeout k) s) (fun t => t.lkState k = lsDown ∧ (t.lk k).failedAt = some s.now ∧
        s.Arose t 0x400F 16 (lkSrc k) (s.lkState k))) ∧
    (∀ f, (s.lk k).failedAt = some f → s.lkState k = lsDown → f + ms 10000 ≤ s.now → s.lkTarget k = 2 →
      3 ≤ s.fld LH_START_PHASE → s.fld LH_START_PHASE ≤ 9 →
      Gives (exec (.linkTrainRetry k) s) (fun t => t.lkState k = 1 ∧ (t.lk k).failedAt = none)) ∧
    (s.lkState k = lsUp →
      (∀ sent, (s.lk k).quietSent = some sent → sent + ms 1 ≤ s.now →
        Gives (exec (.linkQuietTimeout k) s) (fun t => t.lkState k = lsQuiet ∧ t.fldBit LH_LINKS_LINKS_UP k = false ∧ t.arisen = s.arisen)) ∧
      ((s.lk k).lastRx + us 10 ≤ s.now → Gives (exec (.linkRxTimeout k) s) (fun t => t.lkState k = lsRetrain ∧
        (t.lk k).kept = (s.lk k).kept ∧ s.Arose t 0x4010 16 (lkSrc k) 0))) ∧
    (∀ peer : Bool, s.lkState k = lsQuiet → peer = true ∨ s.lkTarget k = 2 →
      Gives (exec (.linkWake k peer) s) (fun t => t.lkState k = lsUp ∧ t.fldBit LH_LINKS_LINKS_UP k = true)) ∧
    (s.lkState k = lsRetrain → (s.lk k).since + ms 50 < s.now → Gives (exec (.linkRetrainTimeout k) s) (fun t =>
      t.lkState k = lsDown ∧ s.Arose t 0x4011 16 (lkSrc k) lsRetrain ∧ (t.lk k).kept = [])) ∧
    ((s.lk k).nakFirst ≠ none → (s.lk k).nakLast + us 8 ≤ s.now →
      exec (.linkNakRepeat k) s = .next (s.setLk k { s.lk k with nak := true, nakLast := s.now }))

/-- R331, R333 to R337, R344, R345: a round of flits leaves on the present lanes; a received codeword waits for its round, and a complete
round is taken, its flits in ascending lane order, each acknowledged and its body taken; lane maps switch, a failing laser's lane moves to the
spare, an unheld re-lock names its lane. -/
def Obligations.LinkLaneResult : Prop :=
  ∀ (k : Fin 32) (s : State),
    let x := s.lk k
    let m := s.fld (LK_MAP_TX_MAP k)
    ((s.lkState k < 3 ∨ s.lkState k = lsQuiet) → exec (.linkFlitTx k) s = .next s) ∧
    (3 ≤ s.lkState k → s.lkState k ≠ lsQuiet → x.swTx = none → Gives (exec (.linkFlitTx k) s) (fun t => (t.lk k).round = x.round + 1 ∧
      ∃ lanes, t.out = s.out ++ [.light k x.round lanes] ∧ lanes.map (·.1) = (mapLanes m).map (fun j => m / 16 ^ j % 16))) ∧
    (∀ (pos : Fin 9) (cw : BitVec 5440) (sy : List Nat) (fixed : Nat), 4 ≤ s.lkState k → s.lkState k ≠ lsQuiet →
      gf10.decode 30 ((List.range 544).map (fun j => bits cw.toNat (10 * j) 10)) = some (sy, fixed) →
      let msg := (List.range 514).foldl (fun n j => n + sy.getD j 0 * 2 ^ (10 * j)) 0
      bits msg 5120 4 = pos.val →
      let z := s.countLane k pos fixed false
      let z1 := (z.setLk k { z.lk k with relock := (z.lk k).relock.erase pos }).setFld (LK_LANE_RING_LOCKED k pos) 1
      let y := z1.rxHold k ⟨bits msg 5128 12, pos, some (msg % 2 ^ 5120)⟩
      let w := y.lk k
      let ps := (mapLanes (y.fld (LK_MAP_RX_MAP k))).map (fun j => y.fld (LK_MAP_RX_MAP k) / 16 ^ j % 16)
      let at_ := fun p => w.rxWait.find? (fun e => e.count == w.rxAt && e.pos == p)
      w.swRx = none →
      ((∃ p ∈ ps, at_ p = none) → exec (.linkFlitRx k pos cw) s = .next y) ∧
      (ps ≠ [] → (∀ p ∈ ps, at_ p ≠ none) → exec (.linkFlitRx k pos cw) s = .next (State.roundsIn k 2047
        (ps.foldl (fun s p => match (at_ p).bind (·.flit) with | some f => s.flitIn k f | none => s.askNak k)
          (y.setLk k { w with rxAt := (w.rxAt + 1) % 4096, rxWait := w.rxWait.filter (fun e => e.count != w.rxAt) }))))) ∧
    (∀ msg : Nat, 4 ≤ s.lkState k → s.lkState k ≠ lsQuiet →
      let d := leBytes 640 msg
      let h := fieldAt d 0 16
      fieldAt d 636 4 = crc32c (0xC3000000 + s.fld (LK_STAT_PEER_LINK k) * 2 ^ 16 + s.fld (LK_STAT_PEER_NODE k) % 256 * 2 ^ 8) (d.take 636) →
      flitFieldsOk d = true →
      let y := if bits h 0 4 = 1 ∧ bits h 8 16 ≠ (s.lk k).expect then s
        else s.takeAck k (bits h 24 16) (bitOf h 40) ((List.range 4).map (fun v => fieldAt d (624 + 2 * v) 2))
      s.flitIn k msg = (match bits h 0 4 with
        | 1 => y.takeData k (bits h 8 16) ((List.range (bits h 48 6)).map (fun j => fieldAt d (16 + 16 * j) 16))
        | 3 => y.takeMarker k (fieldAt d 16 16)
        | _ => y)) ∧
    (∀ w at_,
      (x.swTx = some (w, at_) → at_ ≤ x.round → x.waiting = [] →
        ((mapLanes w).length < 4 → exec (.linkMapSwitch k true) s = .next (s.linkDown k)) ∧
        (4 ≤ (mapLanes w).length → Gives (exec (.linkMapSwitch k true) s) (fun t =>
          t.fld (LK_MAP_TX_MAP k) = w % 2 ^ 32 ∧ (t.lk k).swTx = none ∧
          t.fld (LK_STAT_WIDTH k) = min (mapLanes w).length (mapLanes (s.fld (LK_MAP_RX_MAP k))).length))) ∧
      (x.swRx = some (w, at_) → (x.rxAt + 4096 - at_) % 4096 < 2048 →
        ((mapLanes w).length < 4 → exec (.linkMapSwitch k false) s = .next (s.linkDown k)) ∧
        (4 ≤ (mapLanes w).length → Gives (exec (.linkMapSwitch k false) s) (fun t =>
          t.fld (LK_MAP_RX_MAP k) = w % 2 ^ 32 ∧ (t.lk k).swRx = none ∧
          t.fld (LK_STAT_WIDTH k) = min (mapLanes (s.fld (LK_MAP_TX_MAP k))).length (mapLanes w).length)))) ∧
    (∀ lane : Fin 8, x.swTx = none → m / 16 ^ lane.val % 16 ≠ 15 → Gives (exec (.linkLaserLow k lane) s) (fun t =>
      t.fld (LK_LANE_LASER_OK k (m / 16 ^ lane.val % 16)) = 0 ∧
      t.lk k = { x with
        swTx := some (putBits m (4 * lane.val) 4 (if (List.range 8).any (fun j => m / 16 ^ j % 16 == 8) then 15 else 8), x.round + 1024)
        marker := some (x.marker.getD 2) })) ∧
    (∀ (pos : Fin 9) (since j : Nat), x.relock.find? (fun e => e.1 == pos.val) = some (pos.val, since) →
      (List.range 8).find? (fun j => s.fld (LK_MAP_RX_MAP k) / 16 ^ j % 16 == pos.val) = some j → since + ms 1 ≤ s.now →
      exec (.linkRelockTimeout k pos) s = .next (s.setLk k { x with relock := x.relock.erase pos, req := j, marker := some (x.marker.getD 2) }))

/-! ### HBM, its scrubber and its error log (R278, R286 to R301); the walker (R379 to R386) -/

/-- R189, R286 to R290, R292, R293, R297 to R299: line and page reads and writes at a controller, by the line's CRC and the page code, a
stack's recovery and rebuild, the scrubber's lap, the write-back of a corrected shoal word, the error log's TAIL and an armed flip. -/
def Obligations.HbmResult : Prop :=
  ∀ (i : Fin 16) (s : State),
    (∀ (off : BitVec 48) (req : Fin 10) (e : PageErr),
      let o := off.toNat / 128 * 128
      let a := hbmBase i + o
      let n := stackOf o
      let hit := s.strike i o e
      let own := req.val = reqScrub ∨ req.val = reqCache ∨ req.val = reqSelfTest
      let z := if own then hit else hit.bump (BT_MSC_STAT_MISSES i) 1
      let kept := fun (y : State) => Host.Outcome.next (if own then y else y.mscAlloc i a false)
      let failing := hit.linesThat i o .uncorrectable
      let marked := hit.linesThat i o .poisoned
      let read := exec (.hbmRead i off req e) s
      s.hbmReach i o req false = true → s.retired i o = false → s.mscHas a = false →
      (s.detectOnly i o = false →
        (hit.lineCheck a = .good → read = kept z) ∧
        (hit.lineCheck a = .poisoned → read = kept ((z.logLine i 3 o req 0 0 (2 ^ lineIx a)).bump (BT_MC_STK_ECC_POISON_READS i n) 1)) ∧
        (∀ cw syms eras, hit.lineCheck a = .uncorrectable → hit.pageDecode i o = .ok cw syms eras →
          read = kept ((((z.settle i o cw false).logPage i 1 o req failing marked syms eras).bump (BT_MC_STK_ECC_CORRECTED i n) 1).raise
            evMemCorrected i (stkSrc n) (pageOf a))) ∧
        (hit.lineCheck a = .uncorrectable → hit.pageDecode i o = .failed →
          read = .next (((z.logMem i (elogRec 2 n (stackAddr o) req (pageOf a) 0 0 (ofBitList (failing ++ marked)) (s.fld LH_SLOT_COUNT_COUNT))).bump
            (BT_MC_STK_ECC_UNCORRECTABLE i n) failing.length).raise evMemUncorrectable i (stkSrc n) (pageOf a)))) ∧
      (s.detectOnly i o = true → hit.lineCheck a = .uncorrectable →
        (e.refetch = 0 → read = .next (((z.logLine i 2 o req 0 0 (2 ^ lineIx a)).bump (BT_MC_STK_ECC_UNCORRECTABLE i n) 1).raise
          evMemUncorrectable i (stkSrc n) (pageOf a))) ∧
        (e.refetch ≠ 0 → s.lineCheck a = .good →
          read = kept (if own then s.refetched i o req else (s.refetched i o req).bump (BT_MSC_STAT_MISSES i) 1)))) ∧
    (∀ (off : BitVec 48) (req : Fin 10),
      let o := off.toNat / 128 * 128
      let a := hbmBase i + o
      s.hbmReach i o req true = true → s.retired i o = false →
      (∀ (data : BitVec 1024) (mask : BitVec 128) (pz : BitVec 16), s.mscHas a = false → s.lineCheck a ≠ .uncorrectable →
        Gives (exec (.hbmWrite i off req (.line data mask pz)) s) (fun t => s.SameMemBut t a 128 ∧
          (∀ j, j < 128 → t.byte (a + j) = if mask.getLsbD j then BitVec.ofNat 8 (data.toNat / 256 ^ j) else s.byte (a + j)) ∧
          (t.linePoisoned a = true ↔ pz ≠ 0 ∨ mask ≠ BitVec.allOnes 128 ∧ s.lineCheck a = .poisoned))) ∧
      (∀ (data : BitVec 32768) (pz : BitVec 32), Gives (exec (.hbmWrite i off req (.page data pz)) s) (fun t =>
        s.SameMemBut t (pageOf a) 4096 ∧ (t.pageDamage a).syms = [] ∧ (∀ j, j < 32 → (t.pageDamage a).crcs.get 0 j = 0) ∧
        (∀ j, j < 4096 → t.byte (pageOf a + j) = BitVec.ofNat 8 (data.toNat / 256 ^ j)) ∧
        ∀ j : Fin 32, t.linePoisoned (pageOf a + 128 * j) = pz.getLsbD j))) ∧
    (∀ (n : Fin 8) (failed : BitVec 32), Gives (exec (.stackRecovery i n failed) s) (fun t => t.fld (BT_MC_STK_STAT_RECOVERY i n) = 1 ∧
      t.fld (BT_MC_STK_STAT_REBUILD_PTR i n) = 0 ∧ t.fld (BT_MC_STK_ERASE_FAILED i n) = (s.fld (BT_MC_STK_ERASE_FAILED i n) ||| failed.toNat) % 2 ^ 32 ∧
      s.Arose t 0x400E i (stkSrc n) 0 ∧
      s.RegsBut t [BT_MC_STK_STAT_RECOVERY i n, BT_MC_STK_STAT_REBUILD_PTR i n, BT_MC_STK_ERASE_FAILED i n] ∧ t.mem = s.mem)) ∧
    (∀ (n : Fin 8) (e : PageErr), s.fld (BT_MC_STK_STAT_RECOVERY i n) ≠ 0 →
      let q := s.fld (BT_MC_STK_STAT_REBUILD_PTR i n)
      let hit := s.strike i (pageOff n q) e
      let f := hit.linesThat i (pageOff n q) .uncorrectable
      let y := if f = [] then hit.poisonFailing i (pageOff n q) [] else
        ((hit.poisonFailing i (pageOff n q) f).bump (BT_MC_STK_ECC_UNCORRECTABLE i (stackOf (pageOff n q))) f.length).raise evMemUncorrectable i
          (stkSrc (stackOf (pageOff n q))) (hbmBase i + pageOff n q / 4096 * 4096)
      exec (.rebuildPage i n e) s = .next (if q + 1 < s.stackPages i then y.setFld (BT_MC_STK_STAT_REBUILD_PTR i n) (q + 1)
        else (y.setFld (BT_MC_STK_STAT_REBUILD_PTR i n) 0).setFld (BT_MC_STK_STAT_RECOVERY i n) 0)) ∧
    (∀ (n : Fin 8) (e : PageErr), s.scrubs i n = true →
      let q := s.fld (BT_MC_STK_SCRUB_PROGRESS i n)
      let o := pageOff n q
      let hit := s.strike i o e
      let f := hit.linesThat i o .uncorrectable
      let marked := hit.linesThat i o .poisoned
      let broken := f ≠ [] ∨ ∃ y ∈ (hit.pageDamage (hbmBase i + o)).syms, 2048 ≤ y.1
      (q + 1 < s.stackPages i →
        (s.retired i o = true → exec (.scrubPage i n e) s = .next (s.setFld (BT_MC_STK_SCRUB_PROGRESS i n) (q + 1))) ∧
        (s.retired i o = false → s.detectOnly i o = false → ¬ broken →
          exec (.scrubPage i n e) s = .next (hit.setFld (BT_MC_STK_SCRUB_PROGRESS i n) (q + 1)))) ∧
      (s.retired i o = false → s.detectOnly i o = false → broken →
        (∀ cw syms eras, hit.pageDecode i o = .ok cw syms eras →
          exec (.scrubPage i n e) s = .next (((((hit.settle i o cw true).logPage i 6 o reqScrub f marked syms eras).bump (BT_MC_STK_ECC_CORRECTED i n) 1).raise
            evMemCorrected i (stkSrc n) (hbmBase i + o)).scrubNext i n)) ∧
        (hit.pageDecode i o = .failed → exec (.scrubPage i n e) s = .next ((hit.lostLines i o f).scrubNext i n)))) ∧
    (∀ n : Fin 8, s.fld (BT_MC_SCRUB_CFG_SLOW_THRESHOLD i) ≠ 0 → (s.lap i n).part = false → (s.lap i n).slow = false →
      s.fld (BT_MC_SCRUB_CFG_SLOW_THRESHOLD i) ≤ s.lapElapsed i n →
      Gives (exec (.scrubLapSlow i n) s) (fun t => s.Arose t 0x7004 i (stkSrc n) (s.lapElapsed i n % 2 ^ 32) ∧ (t.lap i n).slow = true ∧
        t.regs = s.regs ∧ t.mem = s.mem)) ∧
    (∀ w : Fin 268435456,
      let a := shoalBase i + 8 * w.val
      Gives (exec (.shoalEccWriteback i w) s) (fun t => match s.check (.mem a) true with
        | .corrected => t.check (.mem a) true = .good ∧ t.mem = s.mem ∧ t = { s with flips := t.flips }
        | .wrong x => t.check (.mem a) true = .good ∧ t.peek a 8 = x.toNat ∧ s.SameMemBut t a 8
        | _ => t = s)) ∧
    (∀ tail : BitVec 10, Gives (exec (.elogTailWrite i tail) s) (fun t => t.fld (BT_MC_ELOG_TAIL i) = tail.toNat ∧
      t.elogOvf.get false i = false ∧ s.RegsBut t [BT_MC_ELOG_TAIL i])) ∧
    (∀ v : BitVec 64, Gives (exec (.flipArm i false v) s) (fun t =>
        t.fld (IS_FLIP_CTL_CHECK i) = v.toNat % 2 ^ (IS_FLIP_CTL_CHECK i).w ∧ t.fld (IS_FLIP_CTL_ARM i) = v.toNat / 2 ^ 31 % 2 ∧
        t.fld (IS_FLIP_CTL_MEM i) = v.toNat / 2 ^ 8 % 2 ^ (IS_FLIP_CTL_MEM i).w ∧
        t.fld (IS_FLIP_CTL_UNIT i) = v.toNat / 2 ^ 12 % 2 ^ (IS_FLIP_CTL_UNIT i).w ∧
        t.fld (IS_FLIP_CTL_DONE i) = (if bitOf v.toNat 30 then 0 else s.fld (IS_FLIP_CTL_DONE i)) ∧ t.flips = s.flips) ∧
      Gives (exec (.flipArm i true v) s) (fun t =>
        t.fld (BT_MSC_FLIP_CTL_CHECK i) = v.toNat % 2 ^ (BT_MSC_FLIP_CTL_CHECK i).w ∧ t.fld (BT_MSC_FLIP_CTL_ARM i) = v.toNat / 2 ^ 31 % 2 ∧
        t.fld (BT_MSC_FLIP_CTL_MEM i) = v.toNat / 2 ^ 8 % 2 ^ (BT_MSC_FLIP_CTL_MEM i).w ∧
        t.fld (BT_MSC_FLIP_CTL_UNIT i) = v.toNat / 2 ^ 12 % 2 ^ (BT_MSC_FLIP_CTL_UNIT i).w ∧
        t.fld (BT_MSC_FLIP_CTL_DONE i) = (if bitOf v.toNat 30 then 0 else s.fld (BT_MSC_FLIP_CTL_DONE i)) ∧ t.flips = s.flips))

/-- R379 to R385: a walker's configuration is held while its tenancy runs and else takes force, CONSUMED taking the producer word; the
next descriptor is taken up; a finished one counts one in the done word. -/
def Obligations.WalkerResult : Prop :=
  ∀ (i : Fin 16) (s : State),
    let k := s.kv i
    (∀ v : BitVec 64,
      ((∃ t, s.tenOf i = some t ∧ s.tn t = tnRunning) → Gives (exec (.kvCfgWrite i false v) s) (fun z =>
        (z.kv i).cfg = some v.toNat ∧ z.regs = s.regs ∧ z.mem = s.mem)) ∧
      (s.tenOf i = none → k.done = none → Gives (exec (.kvCfgWrite i false v) s) (fun z =>
        (z.kv i).cfg = none ∧ z.fld (BT_DM_KV_CFG_ENABLE i) = bits v.toNat 31 1 ∧ z.fld (BT_DM_KV_CFG_PROD_WORD i) = bits v.toNat 36 17 ∧
        (z.kv i).consumed = z.kvProd i ∧ z.mem = s.mem))) ∧
    (∀ (t v : Nat) (z : State), s.tenOf i = some t → s.tn t = tnRunning → s.fld (BT_DM_KV_CFG_ENABLE i) ≠ 0 → s.fld (BT_DM_KV_STAT_BUSY i) ≠ 1 →
      s.fld (BT_DM_KV_STAT_FAULTED i) ≠ 1 → k.flight = [] → k.quiet = false →
      let diff := (s.kvProd i + 2 ^ 64 - k.consumed) % 2 ^ 64
      let slot := k.consumed % s.kvRing i
      let at_ := s.fld (BT_DM_KV_CFG_RING i) + 32 * slot
      diff ≠ 0 → diff ≤ s.kvRing i → at_ + 32 ≤ shoalSize → (s.setConsumed i (k.consumed + 1)).shoalRead i at_ 32 = (v, [], z) →
      ((KvDesc.of v).check = 0 → ∀ todo ends y, z.kvLines i t (KvDesc.of v) (KvDesc.of v).count (KvDesc.of v).first none = (todo, ends, y) →
        exec (.kvDescriptorTake i) s = .next (((y.setKv i { y.kv i with slot := slot, todo := todo, ends := ends }).setFld
          (BT_DM_KV_STAT_BUSY i) 1).kvGo i)) ∧
      ((KvDesc.of v).check ≠ 0 → exec (.kvDescriptorTake i) s =
        .next (z.kvFault i (KvDesc.of v).check (KvDesc.of v).first slot))) ∧
    (s.fld (BT_DM_KV_STAT_BUSY i) ≠ 0 → k.todo = [] → k.flight = [] → k.ends = none →
      let a := flagBase i + 8 * s.fld (BT_DM_KV_DONE_DONE_WORD i)
      Gives (exec (.kvWalkComplete i) s) (fun t => t.fld (BT_DM_KV_STAT_BUSY i) = 0 ∧ t.peek a 8 = (s.peek a 8 + 1) % 2 ^ 64 ∧
        s.SameMemBut t a 8 ∧ t.kvs = s.kvs ∧ t.arisen = s.arisen))

/-! ### DMA channels (R304 to R325) -/

/-- R309, R310, R314: MOVE, GATHER and SCATTER of well-formed words join the channel's work: their sides, offsets with the strides of
the open loops, and the entries of the list. -/
def Obligations.DmaStreamBegins : Prop :=
  ∀ (ch : Fin 544) (w : BitVec 128) (ok : Bool) (z s : State), s.Fetches ch ok z →
    let v := w.toNat
    let c := z.ch ch
    let d := z.dmaFrom ch
    let src := strided c.loops (bits v 16 40) (·.sstride)
    (v % 16 = 1 → bits v 120 8 = 0 → bits v 96 24 ≠ 0 → tgtOk ch (bits v 4 6) = true → tgtOk ch (bits v 10 6) = true →
      exec (.dmaMove ch w ok) s = .next ((z.dmaTook ch (c.fetch + 1) c.loops (.move
        { kind := 1, src := [⟨0, bits v 96 24, bits v 4 6, src⟩],
          dst := [⟨0, bits v 96 24, bits v 10 6, strided c.loops (bits v 56 40) (·.dstride)⟩],
          known := bits v 96 24, final := true, rd := d, wr := d, win := z.dmaWins ch })).dmaGo ch)) ∧
    (v % 16 = 2 → bits v 112 16 = 0 → listOk ch (bits v 4 6) src (bits v 96 16) = true → tgtOk ch (bits v 10 6) = true →
      exec (.dmaGather ch w ok) s = .next ((z.dmaTook ch (c.fetch + 1) c.loops (.move
        { kind := 2, src := [], dst := [⟨0, 0, bits v 10 6, strided c.loops (bits v 56 40) (·.dstride)⟩], known := 0, final := false,
          rd := d, wr := d, win := z.dmaWins ch, listTgt := bits v 4 6, listOff := src, count := bits v 96 16 })).dmaGo ch)) ∧
    (v % 16 = 3 → bits v 112 16 = 0 →
      listOk ch (bits v 4 6) (strided c.loops (bits v 16 40) (·.dstride)) (bits v 96 16) = true → tgtOk ch (bits v 10 6) = true →
      exec (.dmaScatter ch w ok) s = .next ((z.dmaTook ch (c.fetch + 1) c.loops (.move
        { kind := 3, src := [⟨0, 0, bits v 10 6, strided c.loops (bits v 56 40) (·.sstride)⟩], dst := [], known := 0, final := false,
          rd := d, wr := d, win := z.dmaWins ch, listTgt := bits v 4 6,
          listOff := strided c.loops (bits v 16 40) (·.dstride), count := bits v 96 16 })).dmaGo ch))

/-- R314 to R317: LOOP opens a level, ENDLOOP goes round or leaves it, WAIT holds the channel WAITING, SIGNAL, FENCE and STOP join
its work. -/
def Obligations.DmaControlBegins : Prop :=
  ∀ (ch : Fin 544) (w : BitVec 128) (ok : Bool) (z s : State), s.Fetches ch ok z →
    let v := w.toNat
    let c := z.ch ch
    (v % 16 = 4 → bits v 108 20 = 0 → c.loops.length < 4 →
      let f : DLoop := { start := c.fetch + 1, count := bits v 4 24, iter := 0, sstride := bits v 28 40, dstride := bits v 68 40 }
      exec (.dmaLoop ch w ok) s = .next ((z.dmaTook ch (c.fetch + 1) (c.loops ++ [f]) (.loop f)).dmaGo ch)) ∧
    (v % 16 = 5 → bits v 4 124 = 0 → ∀ f, c.loops.getLast? = some f →
      ((f.count = 0 ∨ f.iter + 1 < f.count) →
        exec (.dmaEndloop ch w ok) s = .next ((z.dmaTook ch f.start (again c.loops) (.endloop true)).dmaGo ch)) ∧
      (f.count ≠ 0 → f.count ≤ f.iter + 1 →
        exec (.dmaEndloop ch w ok) s = .next ((z.dmaTook ch (c.fetch + 1) c.loops.dropLast (.endloop false)).dmaGo ch))) ∧
    (v % 16 = 6 → bits v 29 35 = 0 → bits v 6 2 ≠ 3 →
      (bits v 4 2 = 0 → ∀ a, z.dmaFlag ch (bits v 8 4) (bits v 12 17) = some a →
        (hostCh ch = true ∨ (a - flagBase 0) / 0x100000 = ch.val / 32) →
        exec (.dmaWait ch w ok) s = .next (((z.dmaTook ch (c.fetch + 1) c.loops
          (.wait 0 (bits v 6 2) a (bits v 64 64) 0 (flagHolds (bits v 6 2) (z.peek a 8) (bits v 64 64)))).setFld (dmState ch) dsWaiting).dmaGo ch)) ∧
      (bits v 4 2 = 1 → bits v 64 64 < z.fld (TN_FRAME_CFG_FRAME_SLOTS (z.chTen ch)) →
        exec (.dmaWait ch w ok) s = .next (((z.dmaTook ch (c.fetch + 1) c.loops
          (.wait 1 (bits v 6 2) 0 (bits v 64 64) 0 false)).setFld (dmState ch) dsWaiting).dmaGo ch)) ∧
      (bits v 4 2 = 2 → 1 ≤ bits v 64 64 → bits v 64 64 ≤ 65535 →
        exec (.dmaWait ch w ok) s = .next (((z.dmaTook ch (c.fetch + 1) c.loops
          (.wait 2 (bits v 6 2) 0 (bits v 64 64) (z.dmaFrom ch) (decide (bits v 64 64 ≤ z.dmaFrom ch)))).setFld (dmState ch) dsWaiting).dmaGo ch))) ∧
    (v % 16 = 7 → bits v 6 2 = 0 → bits v 29 35 = 0 →
      (bits v 4 2 < 2 → ∀ a, z.dmaFlag ch (bits v 8 4) (bits v 12 17) = some a →
        exec (.dmaSignal ch w ok) s = .next ((z.dmaTook ch (c.fetch + 1) c.loops
          (.signal (bits v 4 2) a (bits v 64 64) false false)).dmaGo ch)) ∧
      (bits v 4 2 = 2 → bits v 80 48 = 0 → exec (.dmaSignal ch w ok) s = .next ((z.dmaTook ch (c.fetch + 1) c.loops
        (.signal 2 0 (bits v 64 64) false false)).dmaGo ch))) ∧
    (v % 16 = 8 → bits v 4 124 = 0 →
      exec (.dmaFence ch w ok) s = .next ((z.dmaTook ch (c.fetch + 1) c.loops .fence).dmaGo ch)) ∧
    (v % 16 = 9 → bits v 4 124 = 0 → c.loops = [] →
      exec (.dmaStop ch w ok) s = .next ((z.dmaTook ch (c.fetch + 1) [] .stop).dmaGo ch))

/-- R312, R315, R318 to R325: responses are taken up, a satisfied wait and a drained halt move on, and the CTL bits start, resume and
abort a host channel. -/
def Obligations.DmaChannelResult : Prop :=
  (∀ (ch : Fin 544) (b : DBack) (s : State),
    let c := s.ch ch
    let r := c.reqs.get { act := 0, kind := 0, pos := 0, len := 0, tgt := 0, off := 0 } b.no
    let c1 : DCh := { c with reqs := c.reqs.erase b.no, back := c.back.filter (fun x => x.no != b.no) }
    (c.back.find? (fun x => c.reqs.any (fun e => e.1 == x.no && e.2.kind != 1)) = some b → b.reason = 0 → r.kind = 0 →
      exec (.dmaLineReturn ch none) s = .next ((s.setCh ch (mapAct c1 r.act (fun o => match o with
        | .move m => .move { m with buf := m.buf ++ [⟨r.pos, r.len, b.data / 2 ^ (8 * r.skip) % 2 ^ (8 * r.len)⟩] }
        | o => o))).dmaGo ch)) ∧
    (c.back.find? (fun x => c.reqs.any (fun e => e.1 == x.no && e.2.kind == 1)) = some b → b.reason = 0 →
      exec (.dmaWriteAck ch) s = .next ((s.setCh ch c1).dmaGo ch))) ∧
  (∀ (ch : Fin 544) (a : DAct) (s : State),
    (s.ch ch).acts.find? (fun a => match a.op with | .wait _ _ _ _ _ true => true | _ => false) = some a →
    s.fld (dmState ch) = dsWaiting → (s.ch ch).stop = 0 → (s.ch ch).quiet = false →
    exec (.dmaWaitSatisfied ch) s =
      .next (((s.setCh ch (mapAct (s.ch ch) a.no (fun _ => .fence))).setFld (dmState ch) dsRunning).dmaGo ch)) ∧
  (∀ (ch : Fin 544) (s : State), s.fld (dmState ch) = dsDraining → (s.ch ch).reqs = [] → (s.ch ch).back = [] →
    Gives (exec (.dmaHalt ch) s) (fun t => t.fld (dmState ch) = dsHalted ∧ (t.ch ch).acts = [] ∧ (t.ch ch).stop = 0 ∧ (t.ch ch).fault = none ∧
      (t.ch ch).loops = (s.ch ch).at_ ∧ t.mem = s.mem ∧
      t.fld (dmReason ch) = (match (s.ch ch).fault with | some f => f.reason | none => (s.ch ch).stop) % 2 ^ (dmReason ch).w)) ∧
  (∀ (p : Fin 4) (c : Fin 8) (s : State),
    let key := hostKey p c
    let st := s.fld (dmState key)
    (st = dsIdle ∨ st = dsDone ∨ st = dsHalted →
      s.fld (TN_STATE_STATE (s.fld (HP_DM_CH_PROG_TENANCY p c))) ≠ tnFree →
      s.fld (TN_STATE_PORT (s.fld (HP_DM_CH_PROG_TENANCY p c))) = p.val →
      s.fld (HP_DM_CH_PROGLEN_COUNT p c) ≠ 0 → s.fld (HP_DM_CH_PROGLEN_COUNT p c) ≤ 65536 →
      Gives (exec (.dmaCtlStart p c) s) (fun t => t.fld (dmState key) = dsRunning ∧ t.fld (dmInstr key) = 0 ∧ t.fld (dmDone key) = 0 ∧
        (t.ch key).acts = [] ∧ (t.ch key).fetch = 0 ∧ (t.ch key).loops = [] ∧ (t.ch key).fault = none ∧ t.mem = s.mem)) ∧
    (st = dsHalted → Gives (exec (.dmaCtlResume p c) s) (fun t => t.fld (dmState key) = dsRunning ∧ s.RegsBut t [dmState key] ∧
      t = { s with regs := t.regs })) ∧
    (st = dsRunning ∨ st = dsWaiting → Gives (exec (.dmaCtlAbort p c) s) (fun t => t.fld (dmState key) = dsDraining ∧
      (t.ch key).stop = drSoftware ∧ (t.ch key).reqs = (s.ch key).reqs ∧ s.RegsBut t [dmState key])))

/-! ### Start-up, resets and clocks (R440 to R463, R498, R512, R513) -/

/-- R442, R449, R450, R459, R462, R463: power-up and resets run the start-up sequence, which ends with MODULE_READY; the soak takes the
coolant's temperature; calibration stores begin, at most one in 600 s and only when a value has moved, and end. -/
def Obligations.StartUpResult : Prop :=
  ∀ (plan : StartPlan) (s : State),
    let votes := fun (t : State) => t.fld LH_START_PHASE = 2 ∧ t.start = some plan ∧ t.now = 0 ∧ t.pending = s.pending ∧ t.out = s.out
    (plan.romFails = false → 2 ≤ popc 3 plan.keepers.toNat →
      (s.start = none → s.fld LH_START_PHASE = 0 → Gives (exec (.powerValid plan) s) votes) ∧
      (s.storing = false → Gives (exec (.coldReset plan) s) (fun t => votes t ∧ t.fld LH_START_WARM = 0))) ∧
    (2 ≤ popc 3 plan.keepers.toNat → s.storing = false → s.fld LH_RESET_STAT_WARM_RESETS < 2 ^ 32 → s.fld FB_NODE_NODE < 65536 →
      Gives (exec (.warmReset plan) s) (fun t => votes t ∧ t.fld LH_START_WARM = 1 ∧
        t.fld LH_RESET_STAT_WARM_RESETS = min (s.fld LH_RESET_STAT_WARM_RESETS + 1) (2 ^ 32 - 1) ∧
        t.fld FB_NODE_NODE = s.fld FB_NODE_NODE)) ∧
    (s.storing = true → exec (.warmReset plan) s = .next { s with resetHeld := some (s.resetHeld == some true) } ∧
      exec (.coldReset plan) s = .next { s with resetHeld := some true }) ∧
    (∀ c, s.resetHeld = some c → s.storing = false →
      exec (.resetWaitsForStore plan) s = .next (if c then s.coldReset plan else s.warmReset plan)) ∧
    (plan.romFails = true → s.start = none → s.fld LH_START_PHASE = 0 → Gives (exec (.powerValid plan) s) (fun t =>
      t.fld LH_START_PHASE = 15 ∧ t.fld LH_START_FAIL_REASON = 1)) ∧
    (s.start = some plan → s.fld LH_START_PHASE = 8 → ms (phaseEnd s.coldStart 8) ≤ s.now →
      let avail := 0xFFFF - (s.selfTest plan).leftOut % 65536
      avail ≠ 0 → Gives (exec .moduleReady s) (fun t => t.fld LH_CAP_ISLANDS_AVAIL = avail ∧ t.fld LH_START_PHASE = 9 ∧ t.start = none ∧
        (∀ p : Fin 4, t.fld (HP_STAT_MODULE_READY p) = 1) ∧ t.arisen.any (fun e => e.code == 0x7012) = true)) ∧
    (∀ v : BitVec 64, s.start = some plan → s.fld LH_START_PHASE = 2 → Gives (exec (.coolantWrite v) s) (fun t =>
      t.fld LH_COOLANT_TEMP = bits v.toNat 0 16 ∧ t.fld LH_COOLANT_VALID = bits v.toNat 16 1 ∧
      s.RegsBut t [LH_COOLANT_TEMP, LH_COOLANT_VALID] ∧ t = { s with regs := t.regs })) ∧
    (exec (.calStore false false) s = .next s) ∧
    (s.storing = false → s.fld LH_PWR_STAT_STATE ≠ 4 →
      let begins := fun (t : State) => t.storing = true ∧ t.storeTried = s.now ∧ t.storedAt = some s.now ∧
        (t.flash.copy s.flash.spare).good = false ∧ t.flash.sec = s.flash.sec ∧ t.regs = s.regs
      (s.lowSupply = false → (∀ a, s.storedAt = some a → a + 600 * second ≤ s.now) → Gives (exec (.calStore false true) s) begins) ∧
      (s.lowSupply = true → (∀ a, s.storedAt = some a → a + 600 * second ≤ s.now) → Gives (exec (.calStore false true) s) (fun t =>
        t.fld LH_CAL_STAT_STORE_PENDING = 1 ∧ t.storing = false ∧ t.storeTried = s.now ∧ t.flash = s.flash ∧ s.RegsBut t [LH_CAL_STAT_STORE_PENDING])) ∧
      (∀ a, s.storedAt = some a → s.now < a + 600 * second → ∀ moved, exec (.calStore false moved) s = .next s) ∧
      (s.lowSupply = false → s.fld LH_CAL_STAT_STORE_PENDING ≠ 0 → 600 * second ≤ s.now - s.storeTried → Gives (exec .calStoreRetry s) begins)) ∧
    (∀ moved, s.storing = true → Gives (exec (.calStore true moved) s) (fun t => t.storing = false ∧ (t.flash.copy s.flash.spare).good = true ∧
      t.fld LH_CAL_STAT_COPY = s.flash.spare ∧ t.fld LH_CAL_STAT_STORE_PENDING = 0))

/-- R440, R441, R445, R447, R449, R451, R453, R481, R498, R512, R513: losses of a reference or of an island's clock, drift and margin, an
island's reset, fence request and rejoin. -/
def Obligations.ClockAndRejoinResult : Prop :=
  (∀ s : State,
    (s.fld LH_CLK_STAT_HOLDOVER ≠ 1 → s.fld LH_CLK_STAT_REF_OK ≠ 0 → Gives (exec .refclkLost s) (fun t =>
      t.fld LH_CLK_STAT_HOLDOVER = 1 ∧ t.fld LH_CLK_STAT_REF_OK = 0 ∧
      t.fld LH_CLK_STAT_REF_LOSSES = min (s.fld LH_CLK_STAT_REF_LOSSES + 1) 65535 ∧
      t.arisen = addEv { code := 0x2005, isl := 16, src := srcIx 0 0, detail := 0, tens := s.runningTens } s.arisen)) ∧
    (s.fld LH_CLK_STAT_HOLDOVER ≠ 0 → Gives (exec .refclkRelock s) (fun t => t.fld LH_CLK_STAT_HOLDOVER = 0 ∧ t.fld LH_CLK_STAT_REF_OK = 1 ∧
      s.RegsBut t [LH_CLK_STAT_HOLDOVER, LH_CLK_STAT_REF_OK] ∧ t = { s with regs := t.regs })) ∧
    (s.fld LH_CLK_STAT_CALREF_OK ≠ 0 → Gives (exec .calrefLost s) (fun t => t.fld LH_CLK_STAT_CALREF_OK = 0 ∧ t.fld LH_CLK_STAT_REF_PPB = 0 ∧
      t.fld LH_CAL_STAT_FREQ_UNTRACED = 1 ∧ s.Arose t 0x700B 16 (srcIx 0 0) 0)) ∧
    (∀ mask : BitVec 16, Gives (exec (.fenceRequest mask) s) (fun t => t = { s with arisen := t.arisen } ∧
      ∀ i : Fin 16, mask.getLsbD i = true → t.arisen.any (fun e => e.code == 0x2003 && e.isl == i.val) = true)) ∧
    (∀ mask : BitVec 16, Gives (exec (.islandReset mask) s) (fun t => ∀ i : Fin 16, mask.getLsbD i = true →
      s.fldBit LH_FENCE_FENCED i = false → t.fldBit LH_RESET_STAT_DOWN i = true ∧ t.present i = false ∧
        t.rejoins.any (fun e => e.1 == i.val) = true ∧ (∀ n, t.core ⟨i, n⟩ = {}) ∧
        t.arisen.any (fun e => e.code == 0x2001 && e.isl == i.val) = true))) ∧
  (∀ (i : Fin 16) (s : State),
    (s.fldBit LH_FENCE_FENCED i = false → s.fldBit LH_RESET_STAT_DOWN i = false →
      let lost := fun (t : State) => t.fldBit LH_RESET_STAT_DOWN i = true ∧ t.present i = false ∧ (∀ n, t.core ⟨i, n⟩ = {}) ∧
        t.losses.get [] i = s.losses600 i ++ [s.now] ∧ t.arisen.any (fun e => e.code == 0x2002 && e.isl == i.val) = true ∧
        (2 ≤ (s.losses600 i).length → t.arisen.any (fun e => e.code == 0x2003 && e.isl == i.val) = true)
      Gives (exec (.islandClockLoss i) s) (fun t => lost t ∧ t.fld (IS_CLK_STAT_CLOCK_LOST i) = 1) ∧
      (∀ (r : Fin 16) (d : BitVec 8), 12 < d.toInt ∨ d.toInt < -12 →
        Gives (exec (.queueDrift i r d) s) (fun t => lost t ∧ t.fld (IS_CLK_STAT_DRIFTED i) = 1))) ∧
    (∀ (r : Fin 16) (d : BitVec 8), d.toInt ≤ 12 → -12 ≤ d.toInt →
      exec (.queueDrift i r d) s = .next (s.setFld (IS_CLK_REGION_DRIFT i r) d.toNat)) ∧
    (∀ (r : Fin 16) (m : BitVec 8),
      (20 ≤ m.toNat → Gives (exec (.marginLow i r m) s) (fun t => t.fld (IS_CLK_REGION_MARGIN i r) = m.toNat ∧
        s.RegsBut t [IS_CLK_REGION_MARGIN i r, IS_CLK_REGION_MIN_MARGIN i r] ∧ t.repairs = s.repairs)) ∧
      (10 ≤ m.toNat → m.toNat < 20 → s.fld (IS_CLK_REGION_VSTEPS i r) + (s.repairs.filter (fun x => x.kind == .vstep i r)).length < 6 →
        Gives (exec (.marginLow i r m) s) (fun t => t.repairs = s.repairs ++ [⟨.vstep i r, 2 ^ i.val, s.now⟩] ∧ t.arisen = s.arisen)) ∧
      (m.toNat < 10 → Gives (exec (.marginLow i r m) s) (fun t => s.Arose t 0x5006 i (srcIx 0 0) (r.val + m.toNat * 2 ^ 8) ∧
        t.repairs = s.repairs))) ∧
    (∀ r : Rejoin, s.rejoins.find? (fun e => e.1 == i.val) = some (i.val, r) →
      (r.thermal = false → r.retry = false →
        (ms 300 ≤ s.now - r.since → (∀ t, s.tenOf i = some t → s.running t = false) → Gives (exec (.islandRejoin i 0) s) (fun t =>
          t.present i = true ∧ t.fldBit LH_RESET_STAT_DOWN i = false ∧ t.fldBit LH_CAP_ISLANDS_AVAIL i = true ∧
          t.rejoins.any (fun e => e.1 == i.val) = false ∧ s.Arose t 0x700C i (srcIx 0 0) 0 ∧
          ∀ a, shoalBase i ≤ a → a < shoalBase i + shoalSize → t.byte a = 0)) ∧
        (∀ f : Fin 6, f ≠ 0 → r.tries = 0 → Gives (exec (.islandRejoin i f) s) (fun t =>
          s.Arose t 0x2004 i (srcIx 0 0) f ∧ t.fld (IS_FENCE_REJOIN_FAILED i) = 1 ∧
          t.rejoins.get { since := 0 } i = { r with since := s.now, tries := 1, retry := true }))) ∧
      (r.retry = true → ms 1000 ≤ s.now - r.since →
        exec (.rejoinRetry i) s = .next (s.setRejoin i { r with since := s.now, retry := false })) ∧
      (∀ c, r.thermal = true → r.cool = some c → ms 1000 ≤ s.now - c →
        exec (.thermalRejoinReady i) s = .next (s.setRejoin i { r with since := s.now, thermal := false }))))

/-! ### Supply, power states, temperature (R278, R468 to R489) -/

/-- R469, R470, R482, R485: supply measurements and their limits, the low-supply state, converter faults, the power cap. -/
def Obligations.SupplyResult : Prop :=
  ∀ s : State,
    (∀ bus : BitVec 16,
      let p : Supply := { s.supply with meas := (s.supply.meas ++ [bus.toNat]).drop (s.supply.meas.length + 1 - 8) }
      Gives (exec (.supplySample bus) s) (fun t => t.supply.meas = p.meas ∧ t.fld LH_PWR_STAT_BUS = p.mean % 65536 ∧ t.mem = s.mem ∧
        (p.mean < 4900 ∨ s.fld LH_PWR_STAT_MARGIN ≠ 1 → t.fld LH_PWR_STAT_LOW_SUPPLY = 1 ∧ t.supply.good = none) ∧
        (4900 ≤ p.mean → s.fld LH_PWR_STAT_MARGIN = 1 → t.fld LH_PWR_STAT_LOW_SUPPLY = s.fld LH_PWR_STAT_LOW_SUPPLY) ∧
        (5800 < p.mean → t.supply.above = some (s.supply.above.getD s.now)))) ∧
    (Gives (exec (.pwrMarginChange true) s) (fun t => t.fld LH_PWR_STAT_MARGIN = 1 ∧ s.RegsBut t [LH_PWR_STAT_MARGIN] ∧
      t.supply.good = if 4950 ≤ s.supply.mean then some s.now else none)) ∧
    Gives (exec (.pwrMarginChange false) s) (fun t => t.fld LH_PWR_STAT_MARGIN = 0 ∧ t.fld LH_PWR_STAT_LOW_SUPPLY = 1) ∧
    (∀ b, s.supply.good = some b → s.fld LH_PWR_STAT_LOW_SUPPLY = 1 → ms 10 ≤ s.now - b →
      exec .lowSupplyEnd s = .next (s.setFld LH_PWR_STAT_LOW_SUPPLY 0)) ∧
    (∀ b, s.supply.under = some b → us 100 ≤ s.now - b → s.fld LH_PWR_STAT_STATE ≠ 4 → Gives (exec .supplyUnder s) (fun t =>
      t.fld LH_PWR_STAT_STATE = 4 ∧ t.softStop = false ∧ s.Arose t 0x0003 16 (srcIx 0 0) s.supply.mean)) ∧
    (∀ b, s.supply.above = some b → us 10 ≤ s.now - b → exec .overvoltageStop s = .next s.powerOff) ∧
    (s.supply.meas ≠ [] → s.supply.mean < 4400 → exec .undervoltageStop s = .next s.powerOff) ∧
    (∀ n : Fin 16, bitOf s.convDown n = true → exec (.converterFault n) s = .next s) ∧
    (∀ n : Fin 16, bitOf s.convDown n = false →
      let k := popc 16 (s.convDown ||| 2 ^ n.val)
      Gives (exec (.converterFault n) s) (fun t => t.convDown = s.convDown ||| 2 ^ n.val ∧
        t.fld LH_PWR_STAT_CONV_FAILED = k ∧ s.Arose t 0x0004 16 (srcIx 2 n) k ∧ (4 < k → t.fld LH_PWR_STAT_STATE = 4) ∧
        (k ≤ 4 → t.fld LH_PWR_STAT_STATE = s.fld LH_PWR_STAT_STATE))) ∧
    (∀ v : BitVec 64, Gives (exec (.capWrite v) s) (fun t => t.fld LH_PWR_CFG_CAP = v.toNat % 65536 ∧ s.RegsBut t [LH_PWR_CFG_CAP] ∧
      t = { s with regs := t.regs })) ∧
    (∀ w : BitVec 32,
      let active := s.capNow < w.toNat ∨ s.fld LH_PWR_STAT_CAP_ACTIVE = 1 ∧ ¬ w.toNat * 100 ≤ s.capNow * 98
      Gives (exec (.capCheck w) s) (fun t => t.fld LH_PWR_STAT_INPUT_W = w.toNat ∧
        (active → t.fld LH_PWR_STAT_CAP_ACTIVE = 1 ∧ ∀ i : Fin 16, t.fld (BT_TH_ILIM_CAP i) = 1) ∧
        (¬ active → t.fld LH_PWR_STAT_CAP_ACTIVE = 0 ∧ ∀ i : Fin 16, t.fld (BT_TH_ILIM_CAP i) = 0) ∧
        (w.toNat ≤ s.capNow → ∀ i : Fin 16, t.fld (BT_TH_ILIM_LIMIT i) = s.fld (BT_TH_ILIM_LIMIT i))))

/-- R471 to R475: still is entered and reached, the module wakes, and SHUTDOWN stops it until its rails fall. -/
def Obligations.PowerStateResult : Prop :=
  ∀ s : State,
    (s.fld LH_PWR_STAT_STATE = 0 → s.fld LH_START_PHASE = 9 → Gives (exec .enterStill s) (fun t => t.fld LH_PWR_STAT_STATE = 1 ∧
      s.RegsBut t [LH_PWR_STAT_STATE] ∧
      ∀ u : Fin 16, s.running u = true → (t.run u).halts = (s.run u).halts ++ [⟨hkClean, 0⟩])) ∧
    (s.fld LH_PWR_STAT_STATE = 1 → s.runningTens = [] → s.noneOutstanding = true →
      (∀ n, n < 32 → s.fld (dmState (512 + n)) ≠ dsRunning ∧ s.fld (dmState (512 + n)) ≠ dsWaiting ∧ s.fld (dmState (512 + n)) ≠ dsDraining) →
      (∀ i : Fin 16, (s.kv i).todo = [] ∧ (s.kv i).flight = []) →
      (∀ k : Fin 32, s.lkState k ≠ lsUp ∧ s.lkState k ≠ lsRetrain) →
      Gives (exec .stillReached s) (fun t => t.fld LH_PWR_STAT_STATE = 2 ∧ (∀ c, t.core c = {}) ∧
        (∀ u : Fin 16, t.fld (TN_CKPT_STAT_CLEAN u) = 0) ∧ t.arisen.any (fun e => e.code == 0x7010) = true ∧
        ∀ (i : Fin 16) a, shoalBase i ≤ a → a < shoalBase i + shoalSize → t.byte a = 0)) ∧
    (s.fld LH_PWR_STAT_STATE = 2 → Gives (exec .wake s) (fun t => t.fld LH_PWR_STAT_STATE = 3 ∧ t.wakeAt = s.now + 1 ∧
      s.RegsBut t [LH_PWR_STAT_STATE] ∧ t.mem = s.mem)) ∧
    (∀ failed : BitVec 16, s.fld LH_PWR_STAT_STATE = 3 → s.wakeAt + 60000 ≤ s.now → Gives (exec (.wakeEnd failed) s) (fun t =>
      t.fld LH_PWR_STAT_STATE = 0 ∧ t.arisen.any (fun e => e.code == 0x7011) = true ∧ (∀ i : Fin 16, (t.kv i).quiet = false) ∧
      (∀ i : Fin 16, failed.getLsbD i = true → s.avail i = true → t.avail i = false ∧ t.rejoins.any (fun e => e.1 == i.val) = true) ∧
      ∀ k : Fin 32, s.lkState k = lsQuiet → s.lkTarget k = 2 → t.lkState k = lsUp)) ∧
    (s.fld LH_PWR_STAT_STATE ≠ 4 → Gives (exec .shutdown s) (fun t => t.fld LH_PWR_STAT_STATE = 4 ∧ t.softStop = true ∧
      ∀ u : Fin 16, s.running u = true → (t.run u).halts = (s.run u).halts ++ [⟨hkClean, 0⟩])) ∧
    (s.fld LH_PWR_STAT_STATE = 4 → s.runningTens = [] → s.storing = false → s.noneOutstanding = true →
      exec .stoppingRailsFall s = .next s.powerOff)

/-- R278, R477 to R482, R487, R488: sensor and stack readings, fast sampling, trips, distrust and the rise of a current limit. -/
def Obligations.ThermalResult : Prop :=
  ∀ (i : Fin 16) (s : State),
    (∀ (l : List (BitVec 16)) (shoalW : BitVec 16) (rise : BitVec 8), Gives (exec (.sensorSample i l shoalW rise) s) (fun t =>
      (∀ j, j < 28 → t.fld (BT_TH_SENSOR_TEMP i j) = wrap 16 (s.traced i l j) ∧ t.fld (BT_TH_SENSOR_VALID i j) = 1) ∧
      t.fld (BT_TH_TEMP_CD i) = tempByte (maxInt ((List.range 16).map (s.traced i l))) ∧
      t.fld (BT_TH_TEMP_BASE i) = tempByte (maxInt ((List.range 8).map (fun j => s.traced i l (20 + j)))) ∧ t.mem = s.mem)) ∧
    (s.fld (BT_TH_TEMP_FAST i) = 1 → ms 1 ≤ s.now - (s.therm i).fastAt →
      exec (.fastSamplingOff i) s = .next (s.setFld (BT_TH_TEMP_FAST i) 0)) ∧
    (∀ (j : Fin 16) (temp : BitVec 16), 1180 ≤ temp.toInt → s.fldBit LH_RESET_STAT_DOWN i = false →
      Gives (exec (.thermTrip i j temp) s) (fun t => t.fldBit LH_RESET_STAT_DOWN i = true ∧ t.present i = false ∧
        t.fld (BT_TH_STAT_STOP_CAUSE i) = 4 ∧ s.Arose t 0x1002 i (srcIx 9 j) temp.toNat ∧ (∀ n, t.core ⟨i, n⟩ = {}) ∧
        (t.rejoins.get { since := 0 } i).thermal = true)) ∧
    (∀ (j : Fin 4) (since : Nat), (s.therm i).offSince.find? (fun e => e.1 == j.val) = some (j.val, since) → ms 5 ≤ s.now - since →
      s.fldBit (BT_TH_STAT_DISTRUSTED i) j = false → Gives (exec (.sensorDistrust i j) s) (fun t =>
        t.fldBit (BT_TH_STAT_DISTRUSTED i) j = true ∧ t.fld (BT_TH_SENSOR_DISTRUSTED i (16 + j.val)) = 1 ∧
        s.Arose t 0x7009 i (srcIx 9 (16 + j.val)) 0)) ∧
    (s.sourceActive i = false → ms 1 ≤ s.now - (s.therm i).calmAt → s.fld (BT_TH_ILIM_LIMIT i) < s.limitTop i →
      Gives (exec (.ilimRise i) s) (fun t => t.fld (BT_TH_ILIM_LIMIT i) = min (s.limitTop i) (s.fld (BT_TH_ILIM_LIMIT i) + 25) ∧
        s.RegsBut t [BT_TH_ILIM_LIMIT i] ∧ (t.therm i).calmAt = s.now)) ∧
    (∀ (n : Fin 8) (deg : BitVec 8), Gives (exec (.hbmTempSample i n deg) s) (fun t => t.fld (BT_MC_STK_STAT_TEMP i n) = deg.toNat ∧
      (85 < deg.toNat → t.fld (BT_MC_STK_STAT_REFRESH_2X i n) = 1) ∧ (deg.toNat < 83 → t.fld (BT_MC_STK_STAT_REFRESH_2X i n) = 0) ∧
      (98 ≤ deg.toNat → s.fld (BT_MC_STK_STAT_THROTTLE i n) ≤ 4 → t.fld (BT_MC_STK_STAT_THROTTLE i n) = 4) ∧
      (105 ≤ deg.toNat → s.avail i = true → t.arisen.any (fun e => e.code == 0x1001 && e.isl == i.val) = true) ∧ t.mem = s.mem))

/-! ### Degradation and repair (R185 to R187, R500 to R511) -/

/-- R509 to R511: keepers compare their state, check their stores and withdraw; with one left the module stops. -/
def Obligations.KeeperResult : Prop :=
  ∀ s : State,
    (∀ a b c : BitVec 384, s.fld LH_SLOT_COUNT_COUNT % 256 = 0 → 3 ≤ s.keepers.length →
      Gives (exec (.keeperHashExchange a b c) s) (fun t => t = { s with keeperOut := t.keeperOut } ∧
        ∀ e, e ∈ t.keeperOut ↔ e ∈ s.keeperOut ∨ e = (0, 3) ∧ a ≠ b ∧ a ≠ c ∨ e = (1, 3) ∧ b ≠ a ∧ b ≠ c ∨ e = (2, 3) ∧ c ≠ a ∧ c ≠ b)) ∧
    (∀ k : Fin 3, s.fldBit LH_KEEPER_PRESENT k = true →
      exec (.keeperCrcCheck k true) s = .next s ∧
      exec (.keeperCrcCheck k false) s = .next { s with keeperOut := s.keeperOut ++ [(k.val, 2)] } ∧
      ∀ (cause : Fin 5) (n : BitVec 32),
        let c := ((s.keeperOut.find? (fun e => e.1 == k.val)).map (·.2)).getD cause.val
        Gives (exec (.keeperWithdraw k cause n) s) (fun t => t.fldBit LH_KEEPER_PRESENT k = false ∧ t.fld (keeperCause k) = c % 16 ∧
          (∀ j : Fin 3, j ≠ k → t.fldBit LH_KEEPER_PRESENT j = s.fldBit LH_KEEPER_PRESENT j) ∧
          t.fld LH_KEEPER_OUTVOTES = min (s.fld LH_KEEPER_OUTVOTES + n.toNat) (2 ^ 32 - 1) ∧ s.Arose t 0x0005 16 (srcIx 1 k) c ∧
          (∀ e ∈ t.keeperOut, e.1 ≠ k.val) ∧ t.mem = s.mem ∧
          (s.keepers.length = 3 → t.fld LH_PWR_STAT_STATE = s.fld LH_PWR_STAT_STATE) ∧
          (s.keepers.length < 3 → t.fld LH_PWR_STAT_STATE = 4))) ∧
    (s.keepers.length = 2 → Gives (exec .keeperDisagree s) (fun t => t.fld LH_PWR_STAT_STATE = 4 ∧
      s.Arose t 0x0006 16 (srcIx 1 (s.keepers.headD 0)) (s.fld LH_KEEPER_PRESENT) ∧ t.mem = s.mem ∧ s.RegsBut t [LH_PWR_STAT_STATE]))

/-- R185 to R187, R491, R496, R500 to R506: a flit over a group of bonds, a copy dropped; a lane, a ring, a plane's element or a comb
chiplet that fails, and the repair that is decided once the failure is sampled. -/
def Obligations.DegradationResult : Prop :=
  ∀ (i : Fin 16) (s : State),
    (∀ (g : Fin 3120) (sends : BondSrc) (noise : BitVec 320) (f : BondFlit) (b : Bond), s.bondSend i g sends = some (f, b) →
      bondCrc (f.wire ^^^ noise.toNat) = bits (f.wire ^^^ noise.toNat) 304 16 →
      let got : Bond := { b with again := none, run := 0, got := some (.ofWire (f.wire ^^^ noise.toNat)) }
      exec (.bondFlitRx i g sends noise) s = .next { s with bonds := s.bonds.set (i.val * 4096 + g.val) got }) ∧
    (∀ (g : Fin 3120) (w : BitVec 256) (p : BitVec 4), shoalSends g = false → (s.bonds.get {} (i.val * 4096 + g.val)).again = none →
      (s.bonds.get {} (i.val * 4096 + g.val)).next < 256 →
      Gives (exec (.bondFlitRx i g (.data w p) 0) s) (fun t =>
        (t.bonds.get {} (i.val * 4096 + g.val)).got = some ⟨(s.bonds.get {} (i.val * 4096 + g.val)).next, 1, w, p⟩ ∧ t.regs = s.regs ∧ t.mem = s.mem)) ∧
    (∀ (g : Fin 3120) (sends : BondSrc) (noise : BitVec 320) (f : BondFlit) (b : Bond), s.bondSend i g sends = some (f, b) →
      bondCrc (f.wire ^^^ noise.toNat) ≠ bits (f.wire ^^^ noise.toNat) 304 16 →
      let n := b.run + 1
      Gives (exec (.bondFlitRx i g sends noise) s) (fun t => (t.bonds.get {} (i.val * 4096 + g.val)).run = n ∧
        (t.bonds.get {} (i.val * 4096 + g.val)).again = some f.fseq ∧ (t.bonds.get {} (i.val * 4096 + g.val)).sent = b.sent ∧
        (t.bonds.get {} (i.val * 4096 + g.val)).got = b.got ∧
        t.fld (IS_BOND_GROUP_HEALTH i g) = min (s.fld (IS_BOND_GROUP_HEALTH i g) + 1) 63 ∧
        t.fld (IS_BOND_GROUP_CRC_ERRORS i g) = min (s.fld (IS_BOND_GROUP_CRC_ERRORS i g) + 1) (2 ^ 32 - 1) ∧
        t.fld (IS_BOND_STAT_REPLAYS i) = min (s.fld (IS_BOND_STAT_REPLAYS i) + 1) (2 ^ 32 - 1) ∧
        (4 ≤ n → s.fld (IS_BOND_GROUP_HALF i g) = 0 → t.fld (IS_BOND_GROUP_INTERIM i g) = 1 ∧ t.fld (IS_BOND_GROUP_HALF i g) = 1) ∧
        (n < 4 → t.fld (IS_BOND_GROUP_INTERIM i g) = s.fld (IS_BOND_GROUP_INTERIM i g)) ∧
        (n = 4 → s.bondDead.get 0 (i.val * 4096 + g.val) < 4 → s.repairs = [] →
          t.repairs = [⟨.bond i g, 2 ^ i.val, s.now + 1⟩] ∧ s.Arose t 0x7006 i (srcIx 8 g) (s.bondDead.get 0 (i.val * 4096 + g.val) + 1)) ∧
        t.mem = s.mem)) ∧
    (∀ (kind : Fin 3) (pair : BitVec 16), s.singles.contains (i.val, kind.val, pair.toNat) = false →
      Gives (exec (.bondCopyDrop i kind pair) s) (fun t => t.singles = s.singles ++ [(i.val, kind.val, pair.toNat)] ∧
        s.Counted t (IS_FENCE_SINGLE_COPY i) 1 ∧ s.Arose t 0x400D i (srcIx 0 0) kind)) ∧
    (∀ (kind : Fin 3) (pair : BitVec 16), s.singles.contains (i.val, kind.val, pair.toNat) = true →
      exec (.bondCopyDrop i kind pair) s = .next (s.raise 0x2003 i (srcIx 0 0) 3)) ∧
    (∀ (sender : Fin 16) (plane : Fin 68) (lane : Fin 16),
      let key := laneKey i plane lane
      let c := s.laneCnt.get {} key
      let fails := s.fld (BT_ST_SPARE_CFG_SPARE_SYM i) ≠ 0 ∧ s.fld (BT_ST_SPARE_CFG_SPARE_SYM i) < c.sym ∨
        s.fld (BT_ST_SPARE_CFG_SPARE_UNC i) ≠ 0 ∧ s.fld (BT_ST_SPARE_CFG_SPARE_UNC i) < c.unc
      (fails → exec (.laneFail i sender plane lane) s =
        .next { s with laneCnt := s.laneCnt.set key { since := s.now }, causes := s.causes ++ [.lane i sender plane lane] }) ∧
      (¬ fails → exec (.laneFail i sender plane lane) s = .next s) ∧
      (plane.val < 64 → s.physPlane plane = plane → s.spareUse.get 0 (plane.val * 2) = 0 → s.mending plane lane = false →
        s.causes = [.lane i sender plane lane] →
        let t := s.decideRepairs
        t.causes = [] ∧ t.repairs = s.repairs ++ [⟨.lane plane lane 16, 0xFFFF, s.now⟩] ∧ t.spareUse.get 0 (plane.val * 2) = lane.val + 1 ∧
          s.Arose t 0x4006 i (srcIx 6 plane) (lane.val + 16 * 2 ^ 8) ∧ t.regs = s.regs ∧ t.mem = s.mem)) ∧
    (∀ (plane : Fin 68) (lane : Fin 16),
      let key := laneKey i plane lane
      (s.mislocked.get false key = false → ∀ ok, exec (.ringSweep i plane lane ok) s = .next s) ∧
      (s.mislocked.get false key = true → s.trials.contains key = false →
        exec (.ringSweep i plane lane true) s = .next { s with trials := s.trials ++ [key] } ∧
        (s.sweeps.get 0 key < 2 → exec (.ringSweep i plane lane false) s =
          .next { s with trials := s.trials.filter (· != key), sweeps := s.sweeps.set key (s.sweeps.get 0 key + 1) }) ∧
        (2 ≤ s.sweeps.get 0 key → exec (.ringSweep i plane lane false) s =
          .next { s with trials := s.trials.filter (· != key), sweeps := s.sweeps.erase key, causes := s.causes ++ [.lane i i plane lane] })) ∧
      (s.trials.contains key = true →
        (let t := s.ringCheck i plane lane true
         t.mislocked.get false key = false ∧ t.sweeps.get 0 key = 0 ∧ t.trials.contains key = false ∧ t.mem = s.mem) ∧
        s.ringCheck i plane lane false = s.ringMissed i plane lane)) ∧
    (∀ phys : Fin 72, exec (.mzElementFail phys) s = .next { s with causes := s.causes ++ [.element phys] } ∧
      (phys.val < 64 → s.physPlane phys = phys.val → s.causes = [.element phys] →
        let t := s.decideRepairs
        (∀ n, s.freeSpare = some n → t.fldBit LH_PLANE_FAIL_FAILED phys = true ∧
          t.fld (subLplane n) = phys ∧ t.fld (subInUse n) = 1 ∧ t.repairs = s.repairs ++ [⟨.plane phys n, 0xFFFF, s.now⟩] ∧
          s.Arose t 0x4007 0 (srcIx 6 phys) (68 + n) ∧ t.mem = s.mem) ∧
        (s.freeSpare = none → (∀ r ∈ s.repairs, r.kind.onPlane phys = false ∧ r.isls ≠ 0) →
          t.fldBit LH_PLANE_FAIL_FAILED phys = true ∧
          t.repairs = s.repairs ++ (List.range 16).map (fun b => ⟨.withdraw phys b, 2 ^ b, s.now⟩) ∧ t.mem = s.mem))) ∧
    (∀ (chip : Fin 10) (lanes : List (Fin 64 × Fin 16)),
      let c : Cause := .comb i chip (lanes.map (fun x => (x.1.val, x.2.val)))
      exec (.combLineFail i chip lanes) s = .next { s with causes := s.causes ++ [c] } ∧
      (chip.val ≠ 9 → s.fldBit (BT_ST_COMB_FAILED i) chip = false → s.fldBit (BT_ST_COMB_FAILED i) 9 = false →
        s.fld (BT_ST_COMB_SPARE_FOR i) = 15 → s.repairs = [] → s.causes = [c] →
        let t := s.decideRepairs
        t.fldBit (BT_ST_COMB_FAILED i) chip = true ∧ t.repairs = [⟨.comb i chip, 2 ^ i.val, s.now⟩] ∧
        s.RegsBut t [BT_ST_COMB_FAILED i] ∧ s.Arose t 0x400A i (srcIx 0 0) chip ∧ t.mem = s.mem))

/-! ### Ferry and straits (R205 to R271) -/

/-- R240, R251 to R264, R566: a window begins at its half slot, an arbiter works, grant frames, flits, packets and a tile's own traffic. -/
def Obligations.FerryResult : Prop :=
  ∀ s : State,
    (2 * s.now < s.fwin → exec .ferryWindow s = .next s) ∧
    (s.fwin ≤ 2 * s.now → Gives (exec .ferryWindow s) (fun t => t.fwin = max (s.fwin + 1) (2 * s.now) ∧ t.mem = s.mem ∧
      (∀ b : Fin 16, (t.tile b).rx = [] ∧ (t.tile b).stat = [] ∧ (t.tile b).lost = []) ∧
      ((∀ b : Fin 16, (s.tile b).grants = [] ∧ (s.tile b).rx = []) → t.wires = []))) ∧
    (∀ (p : Fin 4) (noise : List (Fin 16 × BitVec 544 × BitVec 544)), (s.arb p).arbDone ≠ s.fwin + 1 →
      let failed (n : Nat) : Nat := ((List.range 16).filter (fun b => ((s.arb p).request noise b).2 == n)).length
      Gives (exec (.ferryArbitration p noise) s) (fun t =>
        (t.arb p).arbDone = s.fwin + 1 ∧ (t.arb p).inbox = [] ∧ (t.arb p).laneChanges = [] ∧ (t.arb p).due = (s.arb p).due ++ (s.arb p).laneChanges ∧
        (t.arb p).quiet = !(s.arb p).laneChanges.isEmpty ∧ (∀ q : Fin 4, q ≠ p → t.arb q = s.arb q) ∧
        t.fld (FY_WIRE_REQ_ONE p) = min (s.fld (FY_WIRE_REQ_ONE p) + failed 1) 65535 ∧
        t.fld (FY_WIRE_REQ_LOST p) = min (s.fld (FY_WIRE_REQ_LOST p) + failed 2) 65535 ∧
        t.fld (FY_STAT_GRANTS p) = min (s.fld (FY_STAT_GRANTS p) + (t.arb p).cur.length) (2 ^ 32 - 1) ∧ t.mem = s.mem)) ∧
    (∀ (b : Fin 16) (p : Fin 4) (n0 n1 : BitVec 544),
      let fr := (s.arb p).frames.get [] b
      let got := frameTake (frameBody (fr.flatMap GrantEntry.words) 0) n0 n1
      (got.1 = none → Gives (exec (.grantFrameRx b p n0 n1) s) (fun t => (t.tile b).lost.get false p = true ∧
        (t.arb p).frames.get [] b = [] ∧ s.Counted t (FY_WIRE_GNT_LOST p) 1 ∧ s.Arose t 0x7003 16 (srcIx 4 p) (1 + b.val * 16))) ∧
      (∀ v, got.1 = some v → fr ≠ [] ∨ n0 ≠ 0 ∨ n1 ≠ 0 →
        Gives (exec (.grantFrameRx b p n0 n1) s) (fun t =>
          t.tile b = (grantEntries b (frameWords v)).foldl (actGrant b p s.fwin) (s.tile b) ∧
          (t.arb p).frames.get [] b = [] ∧ (∀ d : Fin 16, d ≠ b → t.tile d = s.tile d) ∧
          (got.2 = 0 → t.regs = s.regs) ∧ (got.2 = 1 → s.Counted t (FY_WIRE_GNT_ONE p) 1) ∧ t.mem = s.mem))) ∧
    (∀ (p : Fin 4) (d lane : Fin 16) (noise : List (Nat × Byte)) (w : Wire),
      s.wires.find? (fun e => e.1 == p.val * 16 + d.val) = some (p.val * 16 + d.val, w) →
      let lanes := s.fyWidth p w.src d
      w.next < flitsOf lanes.length w.guarded →
      let own := lanes.getD (w.next % lanes.length) 0
      let pos := ((List.range lanes.length).find? (fun j => lanes.getD j 16 == lane.val)).getD (w.next % lanes.length)
      let good := (w.take (flitHeard w s.fwin p d w.next (w.next / lanes.length * lanes.length + pos) (s.lambdaOf (64 + p.val) own)
        (s.lambdaOf (64 + p.val) lane) noise)).isSome
      Gives (exec (.ferryFlitRx p d lane noise) s) (fun t => t.mem = s.mem ∧
        (∃ v, t.wires.find? (fun e => e.1 == p.val * 16 + d.val) = some (p.val * 16 + d.val, v) ∧ v.next = w.next + 1 ∧ v.cells = w.cells ∧
          v.bad = (if w.bad.isSome then w.bad else if good then none else some w.next)) ∧
        (good = false → t.fld (FY_RX_FLITS_FAILED p) = min (s.fld (FY_RX_FLITS_FAILED p) + 1) (2 ^ (FY_RX_FLITS_FAILED p).w - 1) ∧
          (t.tile d).hold = (s.tile d).hold))) ∧
    (∀ (b src : Fin 16) (tile : Bool) (vc : Fin 4) (h : Held),
      let key := streamKey { typ := 0, vc := vc, src := src, dst := b, tile := tile }
      (s.tile b).hold.find? (fun h => streamKey h.pkt == key && h.pkt.pseq == (s.tile b).expect.get 0 key) = some h →
      s.waits h.pkt = false →
      let v := { s.tile b with hold := (s.tile b).hold.erase h, expect := (s.tile b).expect.set key ((h.pkt.pseq + 1) % 65536),
                               skipped := (s.tile b).skipped.erase key }
      exec (.ferryPacketDeliver b src tile vc) s =
        .next ((s.setTile b (v.free h.plane h.pkt.vc (cellsOf h.pkt.typ))).servePkt b h.pkt) ∧
      (h.pkt.typ = ptFlagSet → s.crossing.find? (fun e => e.1 == crossKey h.pkt) = none →
        Gives (exec (.ferryPacketDeliver b src tile vc) s) (fun t =>
          t.peek h.pkt.addr 8 = h.pkt.data % 2 ^ 64 ∧ (t.tile b).hold = (s.tile b).hold.erase h ∧
          (t.tile b).expect.get 0 key = (h.pkt.pseq + 1) % 65536))) ∧
    (∀ (b : Fin 16) (k : Pkt), s.nextHere (s.tile b).here [] = some k →
      exec (.sameTileServe b) s = .next ((s.setTile b { s.tile b with here := (s.tile b).here.erase k }).servePkt b k) ∧
      (k.typ = ptFlagSet → s.crossing.find? (fun e => e.1 == crossKey k) = none →
        Gives (exec (.sameTileServe b) s) (fun t => t.peek k.addr 8 = k.data % 2 ^ 64)))

/-- R212 to R215, R221 to R228, R232: the transmit buffer, a segment received, its repair, and the completion of both sides. -/
def Obligations.StraitResult : Prop :=
  ∀ (t : Fin 16) (l k u x : Nat) (s : State),
    let p := s.plan t
    let e := p.leg l
    let r := s.leg t l
    let i := s.physOf t e.snd
    let j := s.physOf t e.rcv
    let key := segKey k u
    let eccOf := fun (c : CoreId) => [IS_SC_ECC_CORRECTED c.isl c.sc, IS_SC_ECC_UNCORRECTABLE c.isl c.sc, IS_FLIP_CTL_ARM c.isl, IS_FLIP_CTL_DONE c.isl]
    (∀ src, s.legSource t l = some src →
      let (a, n) := p.slotBytes e (p.xfer (p.xferOf l)).bytes r.filled
      l < p.legs.length → s.fld (TN_STATE_STATE t) = 3 → r.filled < e.slots → s.present i = true → s.earlierLeg t l = false →
      s.txHeld t i + n ≤ txBuffer →
      let q := s.readLocal i reqStrait (src + a) (spanLines (src + a) n) n
      Gives (exec (.stTxBufferFill t l) s) (fun v => (v.leg t l).filled = r.filled + 1 ∧ v.mem = q.2.2.mem ∧ v.regs = q.2.2.regs ∧
        (v.leg t l).tx.get (0, []) r.filled = (q.1, q.2.1.map (fun w => w - src)))) ∧
    (∀ (b : Fin 16) (plane : Fin 64) (lane : Fin 16) (snd : Nat), s.tenOf b = some t.val → s.senderTo b plane = some snd →
      let leg := p.legAt (s.logicalOf t snd) (s.logicalOf t b) plane (s.fld (TN_SLOT_PLAN_SLOT t))
      (s.runs.get {} t).fresh = false → (s.runs.get {} t).await = false → s.segRx.contains (laneKey b plane lane) = false →
      s.lanePresent snd plane lane = true → s.lanePresent b plane lane = true →
      let at_ (s : State) := { s with segRx := s.segRx ++ [laneKey b plane lane] }
      (s.stallNow.get false t = false → ∀ (light : Option (Fin 16)) (noise : List (Nat × Byte)),
        let w : SegWay := ⟨t, snd, b, plane, lane, leg, none⟩
        let v := (at_ s).segTake w (light.map Fin.val) noise
        exec (.segmentRx b plane lane none light noise) s = .next v ∧
        (leg = none → v.mem = s.mem ∧ v.legs = s.legs) ∧
        (leg = some l → s.segOf w l lane = (k, u) →
          ((v.leg t l).landed.get false key = true ∨
            ((v.leg t l).failed.any (fun f => f.1 == key) = true ∨ (v.leg t l).dark = true) ∧ v.mem = s.mem) ∧
          (light = none → r.dark = false → r.landed.get false key = false →
            r.unlit.get 0 (k * 64 + plane.val) + 1 < (s.width snd b plane).length →
            (v.leg t l).failed.get 0 key = (s.runs.get {} t).slots ∧
            (v.leg t l).unlit.get 0 (k * 64 + plane.val) = r.unlit.get 0 (k * 64 + plane.val) + 1 ∧ v.mem = s.mem ∧ v.regs = s.regs))) ∧
      (∀ (absent : Fin 16) (light : Option (Fin 16)) (noise : List (Nat × Byte)),
        let w : SegWay := ⟨t, snd, b, plane, lane, leg, some absent.val⟩
        leg = some l → s.segOf w l absent = (k, u) → s.extNow.get false t = true → r.deferred.contains key = true →
        exec (.segmentRx b plane lane (some absent) light noise) s =
          .next ((at_ (s.setLeg t l { r with deferred := r.deferred.filter (· != key) })).segTake w (light.map Fin.val) noise))) ∧
    (∀ tick, r.failed.find? (fun f => f.1 == key) = some (key, tick) → tick < (s.runs.get {} t).slots →
      r.repairing.any (fun f => f.1 == key) = false → r.dark = false →
      (s.present i = true → Gives (exec (.repairNoticePost t l k u) s) (fun v =>
        (v.tile j).notices = (s.tile j).notices ++
          [{ sender := i, leg := l, plane := e.plane0 + u / 16, lane := u % 16, seg := k, xfer := p.xferOf l }] ∧
        (v.leg t l).repairing.any (fun f => f.1 == key) = true ∧ s.Counted v (BT_ST_STAT_REPAIRED j) 1 ∧ v.mem = s.mem)) ∧
      (s.present i = false → Gives (exec (.repairNoticePost t l k u) s) (fun v => (v.leg t l).dark = true ∧
        s.Arose v 0x4003 j (srcIx 6 e.plane0) (i + p.xferOf l * 2 ^ 16) ∧ v.mem = s.mem))) ∧
    (∀ (b : Fin 16) (q : Resend) (rest : List Resend), (s.tile b).repairs = q :: rest →
      let drop := s.setTile b { s.tile b with repairs := rest }
      (s.noticeLeg b q.n = none → exec (.repairResend b) s = .next drop) ∧
      (∀ (m : Nat) (g : LegEnt) (h : Nat), s.noticeLeg b q.n = some (m, g, h) →
        (s.present b = false → exec (.repairResend b) s = .next (drop.noRepair m q.n.leg q.n.seg h)) ∧
        (s.present b = true → s.legSource m q.n.leg = none → exec (.repairResend b) s = .next drop) ∧
        (∀ src d, s.present b = true → s.legSource m q.n.leg = some src →
          (s.xrun m q.n.xfer).recv.find? (fun y => y.1 == g.rcv) = some (g.rcv, d) →
          let pieces := (s.plan m).segPieces g ((s.plan m).xfer q.n.xfer).bytes q.n.seg h
          s.ferryBusy b q.recv (2 * pieces.length) = false →
          Gives (exec (.repairResend b) s) (fun v => (v.tile b).repairs = rest ∧
            (pieces = [] → v = drop.repairAck m q.n.leg q.n.seg h false))))) ∧
    (∀ (rcv : Fin 16) (d : Posted), (s.xrun t x).recv.find? (fun q => q.1 == rcv.val) = some (rcv.val, d) → x < p.xfers.length →
      (s.xrun t x).recvDone.get false rcv = false →
      let legs := (p.xfer x).legs.filter (fun l => (p.leg l).rcv == rcv.val)
      let dark := legs.any (fun l => (s.leg t l).dark)
      dark = true ∨ (p.xfer x).legs.all (fun l => s.legLanded t l || (s.leg t l).dark) = true →
      Gives (exec (.stRecvComplete t x rcv) s) (fun v => (v.xrun t x).recvDone.get false rcv = true ∧
        (dark = true → v.mem = s.mem) ∧
        ((p.xfer x).kind ≠ 2 → v.mem = s.mem ∧ s.RegsBut v (eccOf (coreOf d.core))) ∧
        ((p.xfer x).kind = 2 → dark = false →
          v.fld (BT_SU_STAT_REDUCTIONS (s.physOf t rcv)) = min (s.fld (BT_SU_STAT_REDUCTIONS (s.physOf t rcv)) + 1) 65535))) ∧
    (∀ snd : Fin 16, x < p.xfers.length → (s.xrun t x).sendDone.get false snd = false →
      let legs := (p.xfer x).legs.filter (fun l => (p.leg l).snd == snd.val)
      legs ≠ [] →
      (∀ m ∈ legs, ∃ n, (s.leg t m).lastTick = some n ∧ n + 1 ≤ (s.runs.get {} t).slots ∧ (s.leg t m).failed = [] ∧ (s.leg t m).repairing = []) →
      let done := s.setXrun t x { s.xrun t x with sendDone := (s.xrun t x).sendDone.set snd true }
      ((s.xrun t x).send.find? (fun q => q.1 == snd.val) = none → exec (.stSendComplete t x snd) s = .next done) ∧
      (∀ d, (s.xrun t x).send.find? (fun q => q.1 == snd.val) = some (snd.val, d) → Gives (exec (.stSendComplete t x snd) s) (fun v =>
        v = done.finishNo (coreOf d.core) d.no 0 0 ∧ (v.xrun t x).sendDone.get false snd = true ∧ v.mem = s.mem ∧
        s.RegsBut v (eccOf (coreOf d.core)))))

/-! ### The host interface (R35, R397 to R436, R526 to R535) -/

/-- R422 to R436: a command that a row brings is taken and carried out, and what each does when nothing refuses it. -/
def Obligations.HostCommandResult : Prop :=
  ∀ (s w z : State) (src : CmdSrc) (seq : BitVec 64) (ten : Fin 16) (flags : BitVec 8) (ops : BitVec 384) (c : HCmd),
    let begins (op : Nat) : Prop := s.Begins op src seq ten flags ops w z c
    (begins opCreate → exec (.tenancyCreate src seq ten flags ops) s = .next ((z.actCreate c).goesOn c.key none) ∧
      (z.tn ten = tnFree → (bitList 16 (c.at 0x10 2)).all z.freeIsle = true → z.freeLinks ten (c.at 0x14 4) = true → c.at 0x12 1 < 4 →
        c.mgmt = true ∨ c.at 0x12 1 = c.key - 16 → c.at 0x10 2 ≠ 0 → c.regionsTidy = true → layoutOkFor c.regions = true →
        ringOk (c.at 0x18 8 % 2 ^ 48) (c.at 0x18 8 / 2 ^ 48 % 16) (c.at 0x10 2) (fun _ => layoutExtent c.regions) = true →
        let t := z.actCreate c
        t.fld (TN_STATE_STATE ten) = tnCreated ∧ t.fld (TN_ISLANDS_ISLANDS ten) = c.at 0x10 2 ∧ t.fld (TN_ISLANDS_LINKS ten) = c.at 0x14 4 ∧
        t.fld (TN_STATE_PORT ten) = c.at 0x12 1 ∧ t.fld (TN_STEP_STEP ten) = 0 ∧ t.fldBit (HP_TENANCIES_BOUND (c.at 0x12 1)) ten = true)) ∧
    (begins opReshape → exec (.tenancyReshape src seq ten flags ops) s = .next ((z.actReshape c).goesOn c.key none) ∧
      (((bitList 16 (c.at 0x10 2)).filter (fun i => !bitOf (z.fld (TN_ISLANDS_ISLANDS ten)) i)).all z.freeIsle = true →
        z.freeLinks ten (c.at 0x14 4) = true → c.at 0x10 2 ≠ 0 → ringOk (c.at 0x18 8 % 2 ^ 48) (c.at 0x18 8 / 2 ^ 48 % 16) (c.at 0x10 2)
          (fun _ => layoutExtent (z.layoutOf ((z.tnIslands ten).headD 0))) = true →
        (z.dmaHostHalt ten).outstanding ten true = false →
        (z.actReshape c).fld (TN_ISLANDS_ISLANDS ten) = c.at 0x10 2 ∧ (z.actReshape c).fld (TN_ISLANDS_LINKS ten) = c.at 0x14 4)) ∧
    (begins opRelease → exec (.tenancyRelease src seq ten flags ops) s = .next ((z.actRelease c).goesOn c.key none) ∧
      ((z.dmaHostHalt ten).outstanding ten true = false → (z.actRelease c).fld (TN_STATE_STATE ten) = tnFree ∧
        (z.actRelease c).fld (TN_ISLANDS_ISLANDS ten) = 0 ∧
        (z.actRelease c).zeroing = (z.dmaHostHalt ten).zeroing ||| (z.dmaHostHalt ten).fld (TN_ISLANDS_ISLANDS ten))) ∧
    (begins opLoad → ∀ image ok, exec (.loadImage src seq ten flags ops image ok) s = .next ((z.actLoad c (some (image, ok))).goesOn c.key (some (image, ok))) ∧
      (z.loadOk c = true → c.at 0x10 1 = 0 → image.length = min (c.at 0x20 8) 0x40000000 →
        z.imageCheck ten image (ok && decide (c.at 0x20 8 ≤ 0x40000000)) (z.loadMap c) = 0 →
        (z.actLoad c (some (image, ok))).fld (TN_STATE_STATE ten) = tnLoaded ∧ ((z.actLoad c (some (image, ok))).image ten).digest = imgDigest image)) ∧
    (begins opStart → exec (.start src seq ten flags ops) s = .next ((z.actStart c).goesOn c.key none) ∧
      (z.startBar ten = 0 → (z.actStart c).fld (TN_WDIGEST_STAT_VALID ten) = 0 ∧ (z.actStart c).ring c.key = z.ring c.key)) ∧
    (begins opHalt → exec (.halt src seq ten flags ops) s = .next ((z.actBound c).goesOn c.key none) ∧
      (z.running ten = true → (z.actBound c).bounds.get [] ten = z.bounds.get [] ten ++ [c] ∧ (z.actBound c).mem = z.mem) ∧
      (z.running ten = false → z.actBound c = z.complete c csOk)) ∧
    (begins opCheckpoint → exec (.checkpoint src seq ten flags ops) s = .next ((z.actBound c).goesOn c.key none) ∧
      ((z.image ten).ofKind rgCheckpoint ≠ [] →
        (z.running ten = true → (z.actBound c).bounds.get [] ten = z.bounds.get [] ten ++ [c] ∧ (z.actBound c).mem = z.mem) ∧
        (z.running ten = false → (z.actBound c).caps.any (fun e => e.1 == ten.val) = true ∧ (z.actBound c).fld (TN_CKPT_STAT_BUSY ten) = 1))) ∧
    (begins opRestore → exec (.restore src seq ten flags ops) s = .next ((z.actRestore c).goesOn c.key none) ∧
      ∀ bodies y, (z.tnIslands ten).all (fun i => z.avail i && z.present i) = true → (z.image ten).ofKind rgCheckpoint ≠ [] →
        (z.dmaHostHalt ten).outstanding ten true = false → (z.dmaHostHalt ten).restoreChecks ten = (none, bodies, y) →
        (z.actRestore c).fld (TN_CKPT_STAT_LAST_STATUS ten) = 0 ∧ (z.actRestore c).fld (TN_CKPT_STAT_CLEAN ten) = 1 ∧
        (z.actRestore c).fld (TN_STATE_STATE ten) = tnHalted) ∧
    (begins opSetOp → exec (.setOp src seq ten flags ops) s = .next ((z.actBound c).goesOn c.key none) ∧
      (c.at 0x10 1 ≤ 4 →
        (z.running ten = true → (z.actBound c).bounds.get [] ten = z.bounds.get [] ten ++ [c] ∧ (z.actBound c).mem = z.mem) ∧
        (z.running ten = false → (z.actBound c).fld (TN_FRAME_CFG_OP_REQ ten) = c.at 0x10 1 ∧
          (z.fld (TN_FRAME_CFG_OP_NOW ten) ≤ c.at 0x10 1 → (z.actBound c).fld (TN_FRAME_CFG_OP_NOW ten) = c.at 0x10 1 ∧
            (z.actBound c).fld (TN_FRAME_CFG_THROTTLED ten) = 0) ∧
          (c.at 0x10 1 < z.fld (TN_FRAME_CFG_OP_NOW ten) →
            (z.actBound c).fld (TN_FRAME_CFG_OP_NOW ten) = z.fld (TN_FRAME_CFG_OP_NOW ten))))) ∧
    (begins opQuery → exec (.query src seq ten flags ops) s = .next ((z.actQuery c).goesOn c.key none) ∧
      (c.mgmt = true → (z.actQuery c).out = z.out ++ [.mgmtReply (z.cplRecord c csOk z.mgmtSeq)])) ∧
    (begins opRetirePage → exec (.retirePage src seq ten flags ops) s = .next ((z.actBound c).goesOn c.key none) ∧
      (z.boundOk c = true → (z.running ten = true → (z.actBound c).bounds.get [] ten = z.bounds.get [] ten ++ [c] ∧ (z.actBound c).mem = z.mem) ∧
        (z.running ten = false → z.actBound c = z.boundIdle ten c))) ∧
    (begins opRetireBank → exec (.retireBank src seq ten flags ops) s = .next ((z.actBound c).goesOn c.key none) ∧
      (z.boundOk c = true → (z.running ten = true → (z.actBound c).bounds.get [] ten = z.bounds.get [] ten ++ [c] ∧ (z.actBound c).mem = z.mem) ∧
        (z.running ten = false → z.actBound c = z.boundIdle ten c))) ∧
    (begins opAtomic → exec (.atomicStatus src seq ten flags ops) s = .next ((z.actAtomic c).goesOn c.key none) ∧
      (c.at 0x10 1 < z.tnN ten →
        (z.freqs.find? (fun e => e.1 == c.at 0x12 2) = none → z.actAtomic c = z.complete c csOk 2) ∧
        ∀ r, z.freqs.find? (fun e => e.1 == c.at 0x12 2) = some (c.at 0x12 2, r) → r.unknown = true → r.ten = ten.val →
          r.unit = (z.islandOf ten (c.at 0x10 1)).getD 16 → z.now - r.first < ms 15 →
          (z.actAtomic c).freqs.find? (fun e => e.1 == c.at 0x12 2) = some (c.at 0x12 2, { r with query := r.query ++ [c] }))) ∧
    (begins opAttest → exec (.attest src seq ten flags ops) s = .next ((z.actAttest c).goesOn c.key none) ∧
      (c.mgmt = true → (z.actAttest c).out = z.out ++ [.mgmtReply (z.cplRecord c csOk 0 + 2 ^ 512 *
        leNat (z.attestReport ((List.range 16).filter (fun t => z.tn t != tnFree)) (c.at 0x20 32)))])) ∧
    (begins opStage → exec (.stageUpdate src seq ten flags ops) s = .next ((z.actStage c).goesOn c.key none) ∧
      (z.updateBar c = 0 → (z.actStage c).fld SEC_STAT_ACTIVITY = 1 ∧ (z.actStage c).upd = { cmd := some c } ∧
        (z.actStage c).flash.staged = false ∧ (z.actStage c).flash.slot z.inactive = [])) ∧
    (begins opActivate → exec (.activate src seq ten flags ops) s = .next ((z.actActivate c).goesOn c.key none) ∧
      (z.updateBar c = 0 → (z.actActivate c).fld SEC_STAT_ACTIVITY = 2 ∧ (z.actActivate c).upd = { cmd := some c } ∧
        z.RegsBut (z.actActivate c) [SEC_STAT_ACTIVITY])) ∧
    (begins opLock → exec (.lockUpdates src seq ten flags ops) s = .next ((z.actLock c).goesOn c.key none) ∧
      (z.updateSource c = true → c.at 0x10 1 = 1 → z.secRec.lock = false → z.lowSupply = false →
        (z.actLock c).secRec.lock = true ∧ (z.actLock c).fld SEC_LOCK_CLOSED = 1))

/-- R292, R398 to R408, R425, R426, R436, R525 to R533: what ends a command that waits, and the steps of an update. -/
def Obligations.HostDoneResult : Prop :=
  ∀ s : State,
    (∀ record : BitVec 512, exec (.mgmtCommand record) s = .next { s with
      mgmtQ := s.mgmtQ ++ [HCmd.ofRecord (mgmtKey (bits record.toNat 0 8) (bits record.toNat 16 8)) true s.mgmtCnt record.toNat false],
      mgmtCnt := s.mgmtCnt + 1 }) ∧
    (∀ i : Fin 16, bitOf s.filling i = true →
      (∀ e ∈ s.rings, (s.ring e.1).cur = none ∨ bitOf (s.ring e.1).wait i = false) →
      Gives (exec (.zeroFillDone i) s) (fun t => t.filling = clearBits s.filling (2 ^ i.val) ∧ t.mem = s.mem ∧
        ∀ k : Fin 4, t.fld (BT_MC_REGION_DETECT_ONLY i k) = 0)) ∧
    (∀ i : Fin 16, bitOf s.zeroing i = true →
      (∀ e ∈ s.rings, (s.ring e.1).cur = none ∨ bitOf (s.ring e.1).wait i = false) →
      Gives (exec (.islandZeroed i) s) (fun t => t.zeroing = clearBits s.zeroing (2 ^ i.val) ∧ (∀ n, t.core ⟨i, n⟩ = {}) ∧
        (∀ a, hbmBase i ≤ a → a < hbmBase i + 0x6000000000 → t.byte a = 0) ∧
        ∀ a, shoalBase i ≤ a → a < shoalBase i + shoalSize → t.byte a = 0)) ∧
    (∀ (t : Fin 16) (c : HCmd), (s.ring t).cur = some c → c.op = opStart → (s.ring t).q = [] →
      Gives (exec (.weightDigestDone t) s) (fun u => u.fld (TN_STATE_STATE t) = tnRunning ∧ u.fld (TN_WDIGEST_STAT_VALID t) = 1 ∧
        u.fld (TN_CKPT_STAT_CLEAN t) = 0 ∧ (u.run t).fresh = true)) ∧
    (∀ (t : Fin 16) (k : Cap), s.caps.find? (fun e => e.1 == t.val) = some (t.val, k) → s.quiesced t = true →
      (s.ring k.cmd.key).q = [] → (s.ring k.cmd.key).cur = none ∨ (s.ring k.cmd.key).cur = some k.cmd →
      Gives (exec (.captureEnd t) s) (fun u => u.caps.any (fun e => e.1 == t.val) = false ∧ u.fld (TN_CKPT_STAT_BUSY t) = 0)) ∧
    (∀ (pkg : List Byte) (c : HCmd), s.upd.cmd = some c → s.fld SEC_STAT_ACTIVITY = 1 → pkg.length = c.at 0x18 8 →
      let y := { s with flash := { s.flash with slots := s.flash.slots.set s.inactive (pkg.take pkgMax) } }
      Gives (exec (.stagingDone pkg) s) (fun t => t.upd = {} ∧ t.fld SEC_STAT_ACTIVITY = 0 ∧ t.flash.slot s.inactive = pkg.take pkgMax ∧
        (y.slotCheck s.inactive = 0 → t.flash.staged = true ∧ t.arisen.any (fun e => e.code == 0x7014) = true) ∧
        (y.slotCheck s.inactive ≠ 0 → t.fld SEC_STAT_LAST_REASON = y.slotCheck s.inactive % 256 ∧ t.arisen.any (fun e => e.code == 0x6002) = true))) ∧
    (∀ pkg : List Byte,
      let bar := s.updateBar { key := 20, mgmt := true, op := opStage, ten := 0 }
      let y := { s.eraseSlot with flash := { s.eraseSlot.flash with slots := s.eraseSlot.flash.slots.set s.inactive (pkg.take pkgMax) } }
      (bar ≠ 0 → exec (.pldmPackage pkg) s =
        .next (((s.setFld SEC_STAT_LAST_REASON bar).raise 0x6002 16 secSrc bar).emit (.pldmVerify bar))) ∧
      (bar = 0 → y.slotCheck s.inactive = 0 → Gives (exec (.pldmPackage pkg) s) (fun t => t.flash.staged = true ∧
        t.out = s.out ++ [.pldmVerify 0] ∧ t.flash.slot s.inactive = pkg.take pkgMax))) ∧
    (s.fld SEC_STAT_ACTIVITY = 2 → s.fld LH_PWR_STAT_STATE ≠ 4 →
      (∀ u : Fin 16, s.running u = true → (s.run u).await = true ∧ bitOf (s.run u).pause 3 = true) →
      Gives (exec .updateSwitchBegin s) (fun t => t.fld SEC_STAT_ACTIVITY = 3 ∧ t.upd = { s.upd with since := s.now } ∧
        s.RegsBut t [SEC_STAT_ACTIVITY])) ∧
    (s.fld SEC_STAT_ACTIVITY = 3 → s.fld LH_PWR_STAT_STATE ≠ 4 →
      (s.upd.switched = false → s.upd.since + 600000 ≤ s.now →
        (s.upd.fail = 0 → exec (.updateSwitchover true) s = .next { s with upd := { s.upd with switched := true } }) ∧
        Gives (exec (.updateSwitchover false) s) (fun t => t.upd.switched = false ∧ t.upd.fail ≠ 0 ∧ t.regs = s.regs)) ∧
      (s.upd.committed = false → s.upd.since + 740000 ≤ s.now →
        (s.upd.switched = true → s.upd.fail = 0 → s.lowSupply = false →
          Gives (exec (.updateCommit true 0) s) (fun t => t.upd.committed = true ∧ t.secRec.select = s.inactive ∧
            t.fld SEC_STAT_ACTIVATIONS = min (s.fld SEC_STAT_ACTIVATIONS + 1) (2 ^ 32 - 1) ∧ t.fld SEC_STAT_FALLBACK = 0) ∧
          ∀ cut : Fin 3, cut ≠ 0 → Gives (exec (.updateCommit true cut) s) (fun t => t.flash.slots = s.flash.slots ∧ t.upd = {})) ∧
        Gives (exec (.updateCommit false 0) s) (fun t => t.upd.switched = false ∧ t.upd.committed = false ∧ t.upd.fail ≠ 0 ∧ t.flash = s.flash)) ∧
      (∀ c, s.upd.cmd = some c → s.upd.since + 800000 ≤ s.now → Gives (exec .updateResume s) (fun t => t.upd = {} ∧
        t.fld SEC_STAT_ACTIVITY = 0 ∧ (∀ u : Fin 16, bitOf (t.run u).pause 3 = false) ∧
        (s.upd.committed = true → t.arisen.any (fun e => e.code == 0x7015) = true) ∧
        (s.upd.committed = false → t.arisen.any (fun e => e.code == 0x6003) = true))))

/-! ### Ticks, rings and events (R26 to R50, R408, R428, R540 to R547) -/

/-- R26 to R50, R508: the module slot tick, the tenancy slot tick and the frame tick, what they count and when they halt, before the
sampling of step 7 of R36; the trims made in the slot that ends; the samplings of command rings; digests of input; alerts. -/
def Obligations.TickResult : Prop :=
  ∀ (s : State) (t : Fin 16),
    let step7 := fun (z : State) => if z.takes then z.sampleTen t else z
    (∀ (aligned : Bool) (l : List Trim), exec (.tenancySlotTick t aligned l) s = exec (.tenancySlotTick t aligned []) (s.trims t l) ∧
      s.trims t l = { s with ringTrim := (s.trims t l).ringTrim, mzPend := (s.trims t l).mzPend }) ∧
    (∀ (i : Fin 16) (plane : Fin 64) (r : Fin 36) (up : Bool), s.running t = true → s.fldBit (TN_ISLANDS_ISLANDS t) i = true →
      let key := i.val * tileRings + s.fld (BT_ST_PORT_PHYS i plane) * portRings + r.val
      (s.ringIdle t i plane r = true → (s.trims t [.ring i plane r up]).ringTrim.get 0 key = s.ringTrim.get 0 key + stepOf up) ∧
      (s.ringIdle t i plane r = false → s.trims t [.ring i plane r up] = s)) ∧
    (s.fld (TN_FRAME_CFG_OP_NOW t) = 0 → exec (.tenancySlotTick t false []) s = .next s) ∧
    (∀ amps, 2 ≤ s.fld LH_START_PHASE → (s.fld LH_START_PHASE = 15 → s.fld LH_START_FAIL_REASON ≠ 1 ∧ s.fld LH_START_FAIL_REASON ≠ 2) →
      Gives (exec (.moduleSlotTick amps) s) (fun u => u.now = s.now + 1 ∧
        u.fld LH_SLOT_COUNT_COUNT = (s.fld LH_SLOT_COUNT_COUNT + 1) % 2 ^ 64 ∧ u.keeperOut = [])) ∧
    (∀ (e : Ev) (super : Bool), (s.logModule e super).fld LH_EVLOG_HEAD = (s.fld LH_EVLOG_HEAD + 1) % 2 ^ LH_EVLOG_HEAD.w ∧
      (s.logModule e super).modRing = s.modRing.set (s.fld LH_EVLOG_HEAD % 4096) (e.record 0xFF (s.fld LH_SLOT_COUNT_COUNT) 0 super)) ∧
    (∀ aligned : Bool, s.running t = true → (s.fld (TN_FRAME_CFG_OP_NOW t) = 0 → aligned = true) →
      (s.run t).fresh = false → (s.run t).await = false → (s.run t).pend0 = false → (s.run t).halts = [] → s.stallNow.get false t = false →
      let cur := s.fld (TN_SLOT_PLAN_SLOT t)
      cur + 1 < s.fld (TN_FRAME_CFG_FRAME_SLOTS t) → cur + 1 < 2 ^ 14 →
      let x := ((s.bump (TN_SLOT_ELAPSED t) 1).endStraitSlot t cur)
      let y := (x.2.setRun t { x.2.run t with slots := (x.2.run t).slots + 1 }).meshTest t cur
      let z := y.2.readyTest t (cur + 1)
      (x.1 = false → y.1 = false → z.1 = false → Gives (exec (.tenancySlotTick t aligned []) s) (fun u =>
        u.fld (TN_SLOT_PLAN_SLOT t) = cur + 1 ∧ u.fld (TN_SLOT_ELAPSED t) = min (s.fld (TN_SLOT_ELAPSED t) + 1) (2 ^ 14 - 1) ∧
        (u.run t).slots = (s.run t).slots + 1 ∧ u.fld (TN_STEP_STEP t) = s.fld (TN_STEP_STEP t))) ∧
      ((x.1 || y.1 || z.1) = true → (s.run t).counted < s.fld (TN_FRAME_CFG_OVERRUN_ALLOW t) → Gives (exec (.tenancySlotTick t aligned []) s) (fun u =>
        u.fld (TN_SLOT_PLAN_SLOT t) = cur ∧ (u.run t).counted = (s.run t).counted + 1 ∧ u.stallNow.get false t = true ∧
        u.fld (TN_STATE_STATE t) = tnRunning)) ∧
      ((x.1 || y.1 || z.1) = true → s.fld (TN_FRAME_CFG_OVERRUN_ALLOW t) ≤ (s.run t).counted → Gives (exec (.tenancySlotTick t aligned []) s) (fun u =>
        u.fld (TN_STATE_STATE t) = tnHalted ∧ u.fld (TN_CKPT_STAT_CLEAN t) = 0 ∧ u.fld (TN_STATE_HALT_EVENT t) = 0x5002))) ∧
    (∀ (aligned : Bool) (l : List Trim),
      (((s.trims t l).slotTick t aligned).2 = true → exec (.frameTick t aligned l) s = .next ((s.trims t l).slotTick t aligned).1) ∧
      (((s.trims t l).slotTick t aligned).2 = false → exec (.frameTick t aligned l) s = .next s)) ∧
    (∀ aligned : Bool, s.running t = true → (s.run t).fresh = true → (s.run t).await = false →
      (s.slotTick t true).2 = true ∧ (s.slotTick t true).1 = s.frameTick t true ∧
      ((s.run t).halts ≠ [] → ∃ u, exec (.frameTick t true []) s = .next (step7 u) ∧ u.fld (TN_STATE_STATE t) = tnHalted) ∧
      exec (.frameTick t false []) s = .next s ∧ (aligned = true → exec (.tenancySlotTick t aligned []) s = exec (.frameTick t aligned []) s)) ∧
    (∀ aligned : Bool, (s.run t).fresh = false → haltsClean (s.run t).halts = false → ∃ u, s.frameTick t aligned = step7 u ∧
      u.fld (TN_STATE_STATE t) = tnHalted ∧ u.fld (TN_CKPT_STAT_CLEAN t) = 0 ∧ u.fld (TN_STEP_STEP t) = s.fld (TN_STEP_STEP t) ∧
      u.fld (TN_STATE_HALT_EVENT t) = haltsCode (s.run t).halts % 65536) ∧
    (∀ op, (s.commitFrame t op).fld (TN_STEP_STEP t) = (s.fld (TN_STEP_STEP t) + 1) % 2 ^ (TN_STEP_STEP t).w) ∧
    (s.running t = true → (s.run t).await = true → bitOf (s.run t).pause 0 = true →
      ((s.run t).halts ≠ [] → Gives (exec (.op0AlignStart t) s) (fun u => u.fld (TN_STATE_STATE t) = tnHalted)) ∧
      ((s.run t).halts = [] → (s.run t).pause = 1 → Gives (exec (.op0AlignStart t) s) (fun u => (u.run t).await = false ∧
        u.fld (TN_CKPT_STAT_LAST_PAUSE t) = min ((s.run t).pauseSlots + 1) 65535)) ∧
      ((s.run t).halts = [] → clearBits (s.run t).pause 1 ≠ 0 → Gives (exec (.op0AlignStart t) s) (fun u => (u.run t).await = true ∧
        (u.run t).pause = clearBits (s.run t).pause 1 ∧ (u.run t).pauseSlots = (s.run t).pauseSlots + 1))) ∧
    (s.takes = true → (s.ringTick t = true → s.running t = false → exec (.idleRingSample (t.castAdd 1)) s = .next ((s.ticked t).sampleTen t)) ∧
      (s.ringTick 20 = true → exec (.idleRingSample 16) s = .next (((s.ticked 20).joinMgmt 20).goRing 20)) ∧
      ∀ (p : Fin 4) (prod cons : BitVec 64) (records : List (BitVec 512 × Bool)),
        let r := s.ring (16 + p.val)
        let diff := (prod.toNat + 2 ^ 64 - r.cons) % 2 ^ 64
        s.fld (HP_PORT_RING_ENABLE p) ≠ 0 → s.ringTick (16 + p.val) = true → r.cur = none → r.q = [] →
        (s.ringSlots (16 + p.val) < diff → r.fault = false → Gives (exec (.portRingSample p prod cons records) s) (fun u =>
          (u.ring (16 + p.val)).fault = true ∧ (u.ring (16 + p.val)).cons = r.cons ∧
          s.Arose u 0x6001 16 (srcIx 5 p) (diff % 2 ^ 32) ∧ u.mem = s.mem)) ∧
        (diff = 0 → Gives (exec (.portRingSample p prod cons records) s) (fun u =>
          u.ring (16 + p.val) = { r with fault := false, last := some s.now } ∧ u.mem = s.mem ∧ u.regs = s.regs)) ∧
        (0 < diff → diff ≤ s.ringSlots (16 + p.val) → exec (.portRingSample p prod cons records) s =
          .next (((s.ticked (16 + p.val)).sampleRing (16 + p.val) prod.toNat cons.toNat (fun z n =>
            ((records[(n + 2 ^ 64 - r.cons) % 2 ^ 64]?).map (fun x => (x.1.toNat, x.2)), z))).goRing (16 + p.val)))) ∧
    ((s.recs.get [] t).find? (fun x => x.digest.isNone) = none → s.running t = true → (s.run t).fresh = false → (s.run t).await = false →
      (s.run t).input = none → s.digestItems t rgInput (s.fld (TN_STEP_STEP t)) ≠ [] →
      Gives (exec (.inputDigestDone t) s) (fun u => (u.run t).input.isSome = true ∧ u.fld (TN_STEP_STEP t) = s.fld (TN_STEP_STEP t))) ∧
    exec .evlogAlertClear s = .next { s with alertN := false } ∧
    exec .i3cIbiAccept s = .next { s with ibiPending := none } ∧
    (∀ (isl : Fin 17) (src : BitVec 16) (resource : Fin 9), resource ≠ 0 →
      exec (.stallLong isl src resource) s = .next (s.raise 0x7016 isl src.toNat resource))

/-! ### The machine as a whole -/

/-- A step runs the command at the front of the queue on the state with the queue's rest; an empty queue leaves the block idle
(the model's choice, log entry 1). -/
def Obligations.StepTakesFront : Prop :=
  (∀ (c : Instr) (r : List Instr) (s : State), s.pending = c :: r → step s = exec c { s with pending := r }) ∧
  ∀ s : State, s.pending = [] → step s = .next s

/-- State.reset is the module before power is applied: no command waits, nothing has left it, memory is in its canonical form and
reads as zero (the model's choice, log entry 3), every register field reads as its reset value, and every core, array and
vector core stands in its reset state. -/
def Obligations.ResetState : Prop :=
  State.reset.pending = [] ∧ State.reset.out = [] ∧ State.reset.arisen = [] ∧ State.reset.Tidy ∧ (∀ a, State.reset.byte a = 0) ∧
  (∀ f : Fld, State.reset.fld f = f.rst) ∧ (∀ c, State.reset.core c = {}) ∧
  (∀ (i : Fin 16) (j : Fin 64), State.reset.arr i j = {}) ∧ (∀ (i : Fin 16) (j : Fin 32), State.reset.vc i j = {}) ∧
  State.reset.fld LH_START_PHASE = 0 ∧ State.reset.fld LH_KEEPER_PRESENT = 7 ∧
  (∀ i : Fin 16, State.reset.fld (BT_TH_ILIM_LIMIT i) = 1250 ∧ State.reset.fld (BT_ST_SPARE_CFG_SPARE_SYM i) = 2048 ∧
    State.reset.fld (BT_ST_SPARE_CFG_SPARE_UNC i) = 4 ∧ State.reset.fld (BT_ST_COMB_IN_USE i) = 511 ∧
    State.reset.fld (BT_ST_COMB_SPARE_FOR i) = 15)

/-- R32: at the frame tick of a tenancy whose step counter is at its last value, the frame is not committed and the tenancy halts with
EV_STEP_LIMIT; so it stands when step 7 of R36 samples its command ring. -/
def Obligations.StepLimitHalts : Prop :=
  ∀ (t : Fin 16) (aligned : Bool) (s : State), (s.run t).fresh = false → haltsClean (s.run t).halts = true →
    s.fld (TN_STEP_STEP t) = 2 ^ 48 - 1 →
    ∃ u : State, s.frameTick t aligned = (if u.takes then u.sampleTen t else u) ∧ u.fld (TN_STATE_STATE t) = tnHalted ∧ u.fld (TN_CKPT_STAT_CLEAN t) = 0 ∧ u.fld (TN_STEP_STEP t) = 2 ^ 48 - 1 ∧
    u.fld (TN_STATE_HALT_EVENT t) = 0x5007 ∧ u.arisen.any (fun e => e.code == 0x5007 && e.isl == 16) = true

/-- R52: occurrences of one event from one source between two samplings leave one event, and its record has the number of
occurrences, saturating at 255, as its count and the DETAIL of the first; every other event stands. -/
def Obligations.EventRepeatsMerge : Prop :=
  ∀ (code isl src d : Nat) (l : List Nat) (s : State), code < 2 ^ 16 →
    (∀ e ∈ s.arisen, ¬ (e.code = code ∧ e.isl = isl ∧ e.src = src)) →
    let t := l.foldl (fun t x => t.raise code isl src x) (s.raise code isl src d)
    let e : Ev := { code := code, isl := isl, src := src, detail := d, count := min (l.length + 1) 255 }
    t.arisen = s.arisen ++ [e] ∧
    ∀ (ten tick step : Nat) (super : Bool), bits (e.record ten tick step super).w0.toNat 24 8 = min (l.length + 1) 255 ∧
      (e.record ten tick step super).w3 = BitVec.ofNat 64 d ∧
      (t.logModule e super).fld LH_EVLOG_HEAD = (t.fld LH_EVLOG_HEAD + 1) % 2 ^ 32

/-- Memory keeps its canonical form at every step whose front command loads, stores, reads or writes HBM, flips a word, moves
between two stretches of memory, resets or returns an island, or takes power off. -/
def Obligations.MemoryStaysTidy : Prop :=
  let keeps (i : Instr) : Prop := ∀ (s t : State) (r : List Instr), s.Tidy → s.pending = i :: r → step s = .next t → t.Tidy
  (∀ (c : CoreId) (rd rs1 : Reg) (imm : BitVec 40),
    keeps (.ld8s c rd rs1 imm) ∧ keeps (.ld8u c rd rs1 imm) ∧ keeps (.ld16s c rd rs1 imm) ∧ keeps (.ld16u c rd rs1 imm) ∧
    keeps (.ld32s c rd rs1 imm) ∧ keeps (.ld32u c rd rs1 imm) ∧ keeps (.ld64 c rd rs1 imm) ∧ keeps (.fld32 c rd rs1 imm) ∧
    keeps (.fld64 c rd rs1 imm) ∧ keeps (.st8 c rd rs1 imm) ∧ keeps (.st16 c rd rs1 imm) ∧ keeps (.st32 c rd rs1 imm) ∧
    keeps (.st64 c rd rs1 imm) ∧ keeps (.fst32 c rd rs1 imm) ∧ keeps (.fst64 c rd rs1 imm)) ∧
  (∀ (c : CoreId) (rd rs1 : Reg) (b : Opd) (rs2 : Reg) (off : BitVec 40),
    keeps (.add c rd rs1 b) ∧ keeps (.sub c rd rs1 b) ∧ keeps (.mul c rd rs1 rs2) ∧ keeps (.div c rd rs1 rs2) ∧
    keeps (.beq c rs1 rs2 off) ∧ keeps (.bne c rs1 rs2 off)) ∧
  (∀ c no, keeps (.transferComplete c no)) ∧
  (∀ (i : Fin 16) (n : Fin 8) (off : BitVec 48) (req : Fin 10) (e : PageErr) (w : HbmWr) (v : BitVec 64) (rows : BitVec 32),
    keeps (.hbmRead i off req e) ∧ keeps (.hbmWrite i off req w) ∧ keeps (.scrubPage i n e) ∧ keeps (.stackRecovery i n rows) ∧
    keeps (.flipArm i true v) ∧ keeps (.flipArm i false v)) ∧
  (∀ (i : Fin 16) (failed : Fin 6), keeps (.islandRejoin i failed)) ∧
  (∀ mask, keeps (.islandReset mask) ∧ keeps (.fenceRequest mask)) ∧
  keeps .overvoltageStop ∧ keeps .undervoltageStop ∧ keeps .stoppingRailsFall
end

