-- ==== Sys2Proof/Laws/Tables.lean ====
section
/-!
SUPPORT. What a sparse table reads after an update.
-/
namespace Sys2Proof.Laws

open Sys2Proof

@[simp] theorem get_set_self {α : Type} (t : Tbl α) (d v : α) (k : Nat) : (t.set k v).get d k = v := by
  induction t with
  | nil => simp [Tbl.set, Tbl.get]
  | cons p r ih =>
    obtain ⟨j, w⟩ := p
    simp only [Tbl.set]
    split
    · simp [Tbl.get]
    · split
      · simp [Tbl.get]
      · rename_i h _; simp [Tbl.get, h, ih]

theorem get_set_ne {α : Type} (t : Tbl α) (d v : α) {k j : Nat} (h : j ≠ k) : (t.set k v).get d j = t.get d j := by
  induction t with
  | nil => simp [Tbl.set, Tbl.get, Ne.symm h]
  | cons p r ih =>
    obtain ⟨i, w⟩ := p
    simp only [Tbl.set]
    split
    · rename_i e; subst e; simp [Tbl.get, Ne.symm h]
    · split
      · simp [Tbl.get, Ne.symm h]
      · simp [Tbl.get, ih]

theorem get_set {α : Type} (t : Tbl α) (d v : α) (k j : Nat) : (t.set k v).get d j = if j = k then v else t.get d j := by
  split
  · rename_i h; subst h; simp
  · rename_i h; exact get_set_ne t d v h

theorem get_erase {α : Type} (t : Tbl α) (d : α) (k j : Nat) : (t.erase k).get d j = if j = k then d else t.get d j := by
  induction t with
  | nil => simp [Tbl.erase, Tbl.get]
  | cons p r ih =>
    obtain ⟨i, w⟩ := p
    simp only [Tbl.erase, List.filter] at ih ⊢
    by_cases e : i = k
    · subst e
      simp only [bne_self_eq_false, Tbl.get, ih]
      split
      · rfl
      · rename_i h; simp [Ne.symm h]
    · have : (i != k) = true := by simpa using e
      simp only [this, Tbl.get, ih]
      by_cases f : i = j
      · subst f; simp [e]
      · simp [f]

end Sys2Proof.Laws
end

