-- ==== Sys2Proof/Laws/Issue.lean ====
section
/-!
SUPPORT. Issue on a scalar core: what `issueWith` answers where nothing keeps the instruction from its effect, and what
writing a register leaves behind.
-/
namespace Sys2Proof.Laws

open Sys2Proof Sys2Proof.Machine

theorem coreKey_inj {c d : CoreId} (h : coreKey c = coreKey d) : c = d := by
  obtain ⟨⟨a, ha⟩, ⟨b, hb⟩⟩ := c
  obtain ⟨⟨i, hi⟩, ⟨j, hj⟩⟩ := d
  simp only [coreKey] at h
  have h1 : a = i := by omega
  have h2 : b = j := by omega
  subst h1; subst h2; rfl

@[simp] theorem core_setCore_self (s : State) (c : CoreId) (x : Core) : (s.setCore c x).core c = x :=
  get_set_self _ _ _ _
theorem core_setCore_ne (s : State) {c d : CoreId} (x : Core) (h : d ≠ c) : (s.setCore c x).core d = s.core d :=
  get_set_ne _ _ _ (fun e => h (coreKey_inj e))
@[simp] theorem core_setFld (s : State) (f : Fld) (v : Nat) (c : CoreId) : (s.setFld f v).core c = s.core c := rfl
@[simp] theorem core_unflip (s : State) (p : FlipAt) (c : CoreId) : (s.unflip p).core c = s.core c := rfl
@[simp] theorem core_advance (s : State) (c : CoreId) (pc : Word) :
    (s.advance c pc).core c = { s.core c with pc := pc } := core_setCore_self _ _ _
@[simp] theorem core_armScalar (s : State) (c d : CoreId) (k r : Nat) : (s.armScalar c k r).core d = s.core d := by
  unfold State.armScalar State.armIs; split <;> rfl
@[simp] theorem fld_setFld_self (s : State) (f : Fld) (v : Nat) : (s.setFld f v).fld f = v % 2 ^ f.w := get_set_self _ _ _ _
theorem fld_setFld_ne (s : State) {f g : Fld} (v : Nat) (h : g.key ≠ f.key) : (s.setFld f v).fld g = s.fld g :=
  get_set_ne _ _ _ h

/-- A source list of sound words is read without effect. -/
theorem senseAll_sound {s : State} {c : CoreId} {srcs : List SReg} (h : ∀ r ∈ srcs, s.Sound c r) :
    s.senseAll c srcs = (false, s) := by
  induction srcs with
  | nil => rfl
  | cons r rs ih =>
    have hr : s.Sound c r := h r (by simp)
    have ih := ih (fun q hq => h q (List.mem_cons_of_mem _ hq))
    have sense : r ≠ .g 0 → s.sense c r = s := by
      intro e
      rcases hr with e' | ⟨h1, _⟩
      · exact absurd e' e
      · unfold State.sense; rw [h1]
    have mk : s.marked c r = false := by
      rcases hr with e' | ⟨_, h2⟩
      · subst e'; simp [State.marked]
      · exact h2
    cases r with
    | g q =>
      by_cases e : q = 0
      · subst e; simp [State.senseAll, ih, mk]
      · have := sense (by simp [e])
        simp [State.senseAll, e, this, ih, mk]
    | f q => have := sense (by simp); simp [State.senseAll, this, ih, mk]
    | cw n => have := sense (by simp); simp [State.senseAll, this, ih, mk]

/-- Where a core issues an instruction, the instruction's body runs on the state as it is. -/
theorem issueWith_issues {s : State} {c : CoreId} {srcs : List SReg} (h : s.Issues c srcs) (body : State → Act) :
    issueWith c srcs body s = match body s with
      | .trap t cause tval => t.preciseTrap c cause tval
      | .stall t => t
      | .jump t pc => t.advance c pc
      | .done t => t.advance c ((s.core c).pc + 8) := by
  obtain ⟨h1, h2, hr, h3, h4, h5⟩ := h
  have hr : (!(s.core c).icache.any (fun e => e.1 == lineOf (s.core c).pc) && s.fetchRefused c (lineOf (s.core c).pc)) = false := by
    rcases hr with e | e <;> simp [e]
  have h6 : srcs.any (s.core c).waitsFor = false := List.any_eq_false.2 fun r hr => by rw [h5 r hr]; simp
  unfold issueWith
  simp only [h1, hr, h3, h6, senseAll_sound h4, Bool.true_eq_false, if_false, Bool.false_eq_true, Bool.false_and]
  refine (if_neg (by omega)).trans ?_
  cases body s <;> rfl

/-! ### Register writes -/

theorem regs_armScalar (s : State) (c : CoreId) (k r : Nat) (f : Fld) (h1 : f.key ≠ (IS_FLIP_CTL_ARM c.isl).key)
    (h2 : f.key ≠ (IS_FLIP_CTL_DONE c.isl).key) : (s.armScalar c k r).fld f = s.fld f := by
  unfold State.armScalar State.armIs
  split
  · rw [fld_setFld_ne _ _ h2, fld_setFld_ne _ _ h1]; rfl
  · rfl

theorem armScalar_shape (s : State) (c : CoreId) (k r : Nat) :
    ∃ fl rg, s.armScalar c k r = { s with flips := fl, regs := rg } := by
  unfold State.armScalar State.armIs
  split
  · exact ⟨_, _, rfl⟩
  · exact ⟨s.flips, s.regs, rfl⟩

/-- What a write of one core with its flip bookkeeping, and then a new pc, leaves outside the core. -/
theorem coreOnly_write (s : State) (c : CoreId) (x : Core) (p : FlipAt) (k r : Nat) (pc : Word) :
    s.CoreOnly ((((s.setCore c x).unflip p).armScalar c k r).advance c pc) c := by
  refine ⟨?_, ?_, ?_⟩
  · obtain ⟨fl, rg, e⟩ := armScalar_shape ((s.setCore c x).unflip p) c k r
    rw [e]; rfl
  · intro d hd
    show ((State.setCore _ c _).core d) = _
    rw [core_setCore_ne _ _ hd, core_armScalar, core_unflip, core_setCore_ne _ _ hd]
  · intro f h1 h2
    show State.fld (State.armScalar _ c k r) f = _
    rw [regs_armScalar _ _ _ _ _ h1 h2]; rfl

theorem coreOnly_advance (s : State) (c : CoreId) (pc : Word) : s.CoreOnly (s.advance c pc) c :=
  ⟨rfl, fun _ hd => core_setCore_ne _ _ hd, fun _ _ _ => rfl⟩

@[simp] theorem gGet_overtake (x : Core) (r q : Reg) : (x.overtake r).gGet q = x.gGet q := rfl

theorem mask_getLsbD (m : BitVec 32) (r q : Reg) :
    (m &&& ~~~(1#32 <<< r.val)).getLsbD q = (m.getLsbD q && decide (q ≠ r)) := by
  have hq : q.val < 32 := q.isLt
  simp only [BitVec.getLsbD_and, BitVec.getLsbD_not, hq, decide_true, Bool.true_and, BitVec.getLsbD_shiftLeft,
    BitVec.getLsbD_one]
  congr 1
  rw [Bool.eq_iff_iff]
  simp only [Bool.not_eq_true', Bool.and_eq_false_iff, Bool.not_eq_false', decide_eq_true_eq, decide_eq_false_iff_not, ne_eq, Fin.ext_iff]
  omega

/-- g[rd] := v and the next pc: what stands afterwards. -/
theorem wroteG_setG (s : State) (c : CoreId) (rd : Reg) (v pc : Word) :
    s.WroteG ((s.setG c rd v).advance c pc) c rd v pc := by
  by_cases h : rd = 0
  · subst h
    have e : s.setG c 0 v = s := by simp [State.setG, State.putG]
    rw [e]
    refine ⟨by simp [Core.gGet], by simp [State.marked], ?_, ?_⟩
    · intro r _; exact ⟨by simp [Core.gGet], by simp [State.marked]⟩
    · refine ⟨by simp, by simp, by simp, by simp, by simp, coreOnly_advance s c pc⟩
  · have e : s.setG c rd v = ((s.setCore c { (s.core c).overtake rd with g := (s.core c).g.set rd v, pg := (s.core c).pg &&& ~~~(1#32 <<< rd.val) }).unflip (.sreg c.isl c.sc 0 rd)).armScalar c 0 rd := by
      simp only [State.setG, State.putG, if_neg h]; rfl
    rw [e]
    refine ⟨?_, ?_, ?_, ?_⟩
    · simp [Core.gGet, h]
    · simp only [State.marked, core_advance, core_armScalar, core_unflip, core_setCore_self, mask_getLsbD]; simp
    · intro r hr
      refine ⟨?_, ?_⟩
      · have : r.val ≠ rd.val := fun e => hr (Fin.ext e)
        simp [Core.gGet, get_set_ne _ _ _ this]
      · simp only [State.marked, core_advance, core_armScalar, core_unflip, core_setCore_self, mask_getLsbD]
        simp [hr]
    · refine ⟨by simp [Core.overtake], by simp [Core.overtake], by simp [Core.overtake], by simp, by simp [Core.overtake], ?_⟩
      exact coreOnly_write s c _ _ _ _ _

end Sys2Proof.Laws
end

