-- ==== Sys2Proof/Laws/Memory.lean ====
section
/-!
SUPPORT. Memory: what a byte reads after a write, and that every write keeps the canonical form.
-/
namespace Sys2Proof.Laws

open Sys2Proof Sys2Proof.Machine

theorem readByte_filter (m : List Host.Cell) (a b : Nat) :
    readByte (m.filter (fun c => c.1 != a)) b = if b = a then unlisted else readByte m b := by
  induction m with
  | nil => simp [readByte]
  | cons p r ih =>
    obtain ⟨i, w⟩ := p
    simp only [List.filter]
    by_cases e : i = a
    · subst e
      simp only [bne_self_eq_false, readByte, ih]
      split
      · rfl
      · rename_i h; simp [Ne.symm h]
    · have : (i != a) = true := by simpa using e
      simp only [this, readByte, ih]
      by_cases f : i = b
      · subst f; simp [e]
      · simp [f]

theorem readByte_insertCell (m : List Host.Cell) (a b : Nat) (v : Byte)
    (hn : ∀ c ∈ m, c.1 ≠ a) : readByte (insertCell a v m) b = if b = a then v else readByte m b := by
  induction m with
  | nil =>
    simp only [insertCell, readByte]
    by_cases e : a = b
    · simp [e]
    · simp [e, Ne.symm e]
  | cons p r ih =>
    obtain ⟨i, w⟩ := p
    have hi : i ≠ a := hn (i, w) (by simp)
    simp only [insertCell]
    split
    · simp only [readByte]
      by_cases e : a = b
      · simp [e]
      · simp [e, Ne.symm e]
    · simp only [readByte]
      rw [ih (fun c hc => hn c (by simp [hc]))]
      by_cases e : i = b
      · subst e; simp [hi]
      · simp [e]

/-- A byte reads what was last written there; every other byte reads as before. -/
theorem readByte_writeByte (m : List Host.Cell) (a b : Nat) (v : Byte) :
    readByte (writeByte m a v) b = if b = a then v else readByte m b := by
  unfold writeByte
  simp only
  split
  · rename_i h; rw [readByte_filter]; simp [h]
  · rw [readByte_insertCell _ _ _ _ (by simp), readByte_filter]
    split <;> simp_all

theorem byte_setByte (s : State) (a b : Nat) (v : Byte) : (s.setByte a v).byte b = if b = a then v else s.byte b :=
  readByte_writeByte s.mem a b v

/-- The canonical form, said of the list as a whole. -/
theorem wf_iff (m : List Host.Cell) :
    Memory.wf m = true ↔ m.Pairwise (fun x y => x.1 < y.1) ∧ ∀ c ∈ m, c.2 ≠ unlisted := by
  induction m with
  | nil => simp [Memory.wf]
  | cons p r ih =>
    obtain ⟨a, v⟩ := p
    cases r with
    | nil => simp [Memory.wf]
    | cons q r =>
      obtain ⟨b, w⟩ := q
      simp only [Memory.wf, Bool.and_eq_true, decide_eq_true_eq, bne_iff_ne, ne_eq, ih]
      constructor
      · rintro ⟨⟨hab, hv⟩, hp, hu⟩
        refine ⟨?_, ?_⟩
        · refine List.pairwise_cons.2 ⟨?_, hp⟩
          intro c hc
          rcases List.mem_cons.1 hc with rfl | hc
          · exact hab
          · exact Nat.lt_trans hab ((List.pairwise_cons.1 hp).1 c hc)
        · intro c hc
          rcases List.mem_cons.1 hc with rfl | hc
          · exact hv
          · exact hu c hc
      · rintro ⟨hp, hu⟩
        obtain ⟨h1, h2⟩ := List.pairwise_cons.1 hp
        exact ⟨⟨h1 (b, w) (by simp), hu (a, v) (by simp)⟩, h2, fun c hc => hu c (List.mem_cons_of_mem _ hc)⟩

theorem mem_insertCell {m : List Host.Cell} {a : Nat} {v : Byte} {c : Host.Cell} :
    c ∈ insertCell a v m ↔ c = (a, v) ∨ c ∈ m := by
  induction m with
  | nil => simp [insertCell]
  | cons p r ih =>
    simp only [insertCell]
    split
    · simp
    · simp only [List.mem_cons, ih, Prod.eta]
      exact or_left_comm

/-- Every write keeps the canonical form. -/
theorem wf_writeByte {m : List Host.Cell} (h : Memory.wf m = true) (a : Nat) (v : Byte) :
    Memory.wf (writeByte m a v) = true := by
  rw [wf_iff] at h ⊢
  obtain ⟨hp, hu⟩ := h
  have hf : (m.filter (fun c => c.1 != a)).Pairwise (fun x y => x.1 < y.1) := hp.filter _
  have hfu : ∀ c ∈ m.filter (fun c => c.1 != a), c.2 ≠ unlisted := fun c hc => hu c (List.mem_filter.1 hc).1
  have hfn : ∀ c ∈ m.filter (fun c => c.1 != a), c.1 ≠ a := by simp
  unfold writeByte
  simp only
  split
  · exact ⟨hf, hfu⟩
  · rename_i hv
    generalize m.filter (fun c => c.1 != a) = e at hf hfu hfn
    refine ⟨?_, ?_⟩
    · clear hfu
      induction e with
      | nil => simp [insertCell]
      | cons p r ih =>
        obtain ⟨b, w⟩ := p
        obtain ⟨h1, h2⟩ := List.pairwise_cons.1 hf
        have hb : b ≠ a := hfn (b, w) (by simp)
        simp only [insertCell]
        split
        · rename_i hab
          refine List.pairwise_cons.2 ⟨?_, hf⟩
          intro c hc
          rcases List.mem_cons.1 hc with rfl | hc
          · exact hab
          · exact Nat.lt_trans hab (h1 c hc)
        · rename_i hab
          refine List.pairwise_cons.2 ⟨?_, ih h2 (fun c hc => hfn c (List.mem_cons_of_mem _ hc))⟩
          intro c hc
          rcases mem_insertCell.1 hc with rfl | hc
          · show b < a
            have : ¬ a < b := hab
            have : b ≠ a := hb
            omega
          · exact h1 c hc
    · intro c hc
      rcases mem_insertCell.1 hc with rfl | hc
      · exact hv
      · exact hfu c hc

theorem tidy_setByte {s : State} (h : s.Tidy) (a : Nat) (v : Byte) : (s.setByte a v).Tidy := wf_writeByte h a v

theorem tidy_pokes {s : State} (h : s.Tidy) (a : Nat) (bs : List Byte) : (s.pokes a bs).Tidy := by
  induction bs generalizing s a with
  | nil => exact h
  | cons b r ih => exact ih (tidy_setByte h a b) (a + 1)

/-! ### What the check of an HBM line answers (R282, R286, R288) -/

/-- Nothing has changed in the line's page: the line checks good when it was not stored poisoned. -/
theorem lineCheck_good (s : State) (a : Nat) (h : (s.pageDamage a).line (lineIx a) = 0 ∧ (s.pageDamage a).crcs.get 0 (lineIx a) = 0)
    (p : s.linePoisoned a = false) : s.lineCheck a = .good := by
  have c : ((s.pageDamage a).crcs.get 0 (lineIx a)).toNat = 0 := by rw [h.2]; rfl
  simp only [State.lineCheck, State.lineRaw, State.lineStored, h.1, c, p, Nat.xor_zero, Bool.false_eq_true, if_false, if_true]

/-- A line stored poisoned checks poisoned: its stored CRC is the inverse. -/
theorem lineCheck_poisoned (s : State) (a : Nat) (h : (s.pageDamage a).line (lineIx a) = 0 ∧ (s.pageDamage a).crcs.get 0 (lineIx a) = 0)
    (p : s.linePoisoned a = true) : s.lineCheck a = .poisoned := by
  have n : crcAt (s.peek a 128) a ≠ crcAt (s.peek a 128) a ^^^ 0xFFFFFFFF := fun e => by
    have := congrArg (fun x => crcAt (s.peek a 128) a ^^^ x) e
    rw [← Nat.xor_assoc, Nat.xor_self] at this; simp at this
  have c : ((s.pageDamage a).crcs.get 0 (lineIx a)).toNat = 0 := by rw [h.2]; rfl
  simp only [State.lineCheck, State.lineRaw, State.lineStored, h.1, c, p, Nat.xor_zero, n, if_false, if_true]

/-- Only the stored CRC has changed, and not to its inverse: the line checks uncorrectable. -/
theorem lineCheck_crc (s : State) (a : Nat) (h : (s.pageDamage a).line (lineIx a) = 0) (p : s.linePoisoned a = false)
    (c : ((s.pageDamage a).crcs.get 0 (lineIx a)).toNat ≠ 0 ∧ ((s.pageDamage a).crcs.get 0 (lineIx a)).toNat ≠ 0xFFFFFFFF) :
    s.lineCheck a = .uncorrectable := by
  have n (x : Nat) : crcAt (s.peek a 128) a ^^^ x = crcAt (s.peek a 128) a ^^^ ((s.pageDamage a).crcs.get 0 (lineIx a)).toNat →
      x = ((s.pageDamage a).crcs.get 0 (lineIx a)).toNat := fun e => by
    have := congrArg (fun x => crcAt (s.peek a 128) a ^^^ x) e
    simpa [← Nat.xor_assoc] using this
  have n0 : crcAt (s.peek a 128) a ≠ crcAt (s.peek a 128) a ^^^ ((s.pageDamage a).crcs.get 0 (lineIx a)).toNat :=
    fun e => c.1 (n 0 (by simpa using e)).symm
  have n1 : crcAt (s.peek a 128) a ^^^ 0xFFFFFFFF ≠ crcAt (s.peek a 128) a ^^^ ((s.pageDamage a).crcs.get 0 (lineIx a)).toNat :=
    fun e => c.2 (n _ e).symm
  simp only [State.lineCheck, State.lineRaw, State.lineStored, h, p, Nat.xor_zero, Bool.false_eq_true, if_false, n0, n1]

end Sys2Proof.Laws
end

