-- ==== Sys2Proof/Laws/State.lean ====
section
/-!
SUPPORT. What the named updates of the state leave as it was: one lemma per field per update, each true by definition.
-/
namespace Sys2Proof.Laws

open Sys2Proof Sys2Proof.Machine

@[simp] theorem setFld_pending (s : State) (f : Fld) (v : Nat) : (s.setFld f v).pending = s.pending := rfl
@[simp] theorem setFld_out (s : State) (f : Fld) (v : Nat) : (s.setFld f v).out = s.out := rfl
@[simp] theorem setFld_arisen (s : State) (f : Fld) (v : Nat) : (s.setFld f v).arisen = s.arisen := rfl
@[simp] theorem setFld_freeCtr (s : State) (f : Fld) (v : Nat) : (s.setFld f v).freeCtr = s.freeCtr := rfl
@[simp] theorem setFld_now (s : State) (f : Fld) (v : Nat) : (s.setFld f v).now = s.now := rfl
@[simp] theorem setFld_mem (s : State) (f : Fld) (v : Nat) : (s.setFld f v).mem = s.mem := rfl
@[simp] theorem setFld_poison (s : State) (f : Fld) (v : Nat) : (s.setFld f v).poison = s.poison := rfl
@[simp] theorem setFld_damage (s : State) (f : Fld) (v : Nat) : (s.setFld f v).damage = s.damage := rfl
@[simp] theorem setFld_flips (s : State) (f : Fld) (v : Nat) : (s.setFld f v).flips = s.flips := rfl
@[simp] theorem setFld_msc (s : State) (f : Fld) (v : Nat) : (s.setFld f v).msc = s.msc := rfl
@[simp] theorem setFld_mscTree (s : State) (f : Fld) (v : Nat) : (s.setFld f v).mscTree = s.mscTree := rfl
@[simp] theorem setFld_elog (s : State) (f : Fld) (v : Nat) : (s.setFld f v).elog = s.elog := rfl
@[simp] theorem setFld_elogOvf (s : State) (f : Fld) (v : Nat) : (s.setFld f v).elogOvf = s.elogOvf := rfl
@[simp] theorem setFld_retPages (s : State) (f : Fld) (v : Nat) : (s.setFld f v).retPages = s.retPages := rfl
@[simp] theorem setFld_retBanks (s : State) (f : Fld) (v : Nat) : (s.setFld f v).retBanks = s.retBanks := rfl
@[simp] theorem setFld_cores (s : State) (f : Fld) (v : Nat) : (s.setFld f v).cores = s.cores := rfl
@[simp] theorem setFld_arrays (s : State) (f : Fld) (v : Nat) : (s.setFld f v).arrays = s.arrays := rfl
@[simp] theorem setFld_vcores (s : State) (f : Fld) (v : Nat) : (s.setFld f v).vcores = s.vcores := rfl
@[simp] theorem setFld_meshes (s : State) (f : Fld) (v : Nat) : (s.setFld f v).meshes = s.meshes := rfl
@[simp] theorem setFld_rings (s : State) (f : Fld) (v : Nat) : (s.setFld f v).rings = s.rings := rfl
@[simp] theorem setFld_bounds (s : State) (f : Fld) (v : Nat) : (s.setFld f v).bounds = s.bounds := rfl
@[simp] theorem setFld_mgmtQ (s : State) (f : Fld) (v : Nat) : (s.setFld f v).mgmtQ = s.mgmtQ := rfl
@[simp] theorem setFld_mgmtSeq (s : State) (f : Fld) (v : Nat) : (s.setFld f v).mgmtSeq = s.mgmtSeq := rfl
@[simp] theorem setFld_mgmtCnt (s : State) (f : Fld) (v : Nat) : (s.setFld f v).mgmtCnt = s.mgmtCnt := rfl
@[simp] theorem setFld_msixOn (s : State) (f : Fld) (v : Nat) : (s.setFld f v).msixOn = s.msixOn := rfl
@[simp] theorem setFld_msixTbl (s : State) (f : Fld) (v : Nat) : (s.setFld f v).msixTbl = s.msixTbl := rfl
@[simp] theorem setFld_msixPba (s : State) (f : Fld) (v : Nat) : (s.setFld f v).msixPba = s.msixPba := rfl
@[simp] theorem setFld_msixSent (s : State) (f : Fld) (v : Nat) : (s.setFld f v).msixSent = s.msixSent := rfl
@[simp] theorem setFld_msixNext (s : State) (f : Fld) (v : Nat) : (s.setFld f v).msixNext = s.msixNext := rfl
@[simp] theorem setFld_pcie (s : State) (f : Fld) (v : Nat) : (s.setFld f v).pcie = s.pcie := rfl
@[simp] theorem setFld_fwin (s : State) (f : Fld) (v : Nat) : (s.setFld f v).fwin = s.fwin := rfl
@[simp] theorem setFld_tiles (s : State) (f : Fld) (v : Nat) : (s.setFld f v).tiles = s.tiles := rfl
@[simp] theorem setFld_arbiters (s : State) (f : Fld) (v : Nat) : (s.setFld f v).arbiters = s.arbiters := rfl
@[simp] theorem setFld_wires (s : State) (f : Fld) (v : Nat) : (s.setFld f v).wires = s.wires := rfl
@[simp] theorem setFld_fyLanes (s : State) (f : Fld) (v : Nat) : (s.setFld f v).fyLanes = s.fyLanes := rfl
@[simp] theorem setFld_lambdas (s : State) (f : Fld) (v : Nat) : (s.setFld f v).lambdas = s.lambdas := rfl
@[simp] theorem setFld_crossing (s : State) (f : Fld) (v : Nat) : (s.setFld f v).crossing = s.crossing := rfl
@[simp] theorem setFld_lks (s : State) (f : Fld) (v : Nat) : (s.setFld f v).lks = s.lks := rfl
@[simp] theorem setFld_freqs (s : State) (f : Fld) (v : Nat) : (s.setFld f v).freqs = s.freqs := rfl
@[simp] theorem setFld_sctxs (s : State) (f : Fld) (v : Nat) : (s.setFld f v).sctxs = s.sctxs := rfl
@[simp] theorem setFld_eseqs (s : State) (f : Fld) (v : Nat) : (s.setFld f v).eseqs = s.eseqs := rfl
@[simp] theorem setFld_dctxs (s : State) (f : Fld) (v : Nat) : (s.setFld f v).dctxs = s.dctxs := rfl
@[simp] theorem setFld_rcache (s : State) (f : Fld) (v : Nat) : (s.setFld f v).rcache = s.rcache := rfl
@[simp] theorem setFld_swins (s : State) (f : Fld) (v : Nat) : (s.setFld f v).swins = s.swins := rfl
@[simp] theorem setFld_rtCache (s : State) (f : Fld) (v : Nat) : (s.setFld f v).rtCache = s.rtCache := rfl
@[simp] theorem setFld_htSwitchAt (s : State) (f : Fld) (v : Nat) : (s.setFld f v).htSwitchAt = s.htSwitchAt := rfl
@[simp] theorem setFld_mbox (s : State) (f : Fld) (v : Nat) : (s.setFld f v).mbox = s.mbox := rfl
@[simp] theorem setFld_lostPkts (s : State) (f : Fld) (v : Nat) : (s.setFld f v).lostPkts = s.lostPkts := rfl
@[simp] theorem setFld_plans (s : State) (f : Fld) (v : Nat) : (s.setFld f v).plans = s.plans := rfl
@[simp] theorem setFld_sums (s : State) (f : Fld) (v : Nat) : (s.setFld f v).sums = s.sums := rfl
@[simp] theorem setFld_linkMaps (s : State) (f : Fld) (v : Nat) : (s.setFld f v).linkMaps = s.linkMaps := rfl
@[simp] theorem setFld_legs (s : State) (f : Fld) (v : Nat) : (s.setFld f v).legs = s.legs := rfl
@[simp] theorem setFld_xruns (s : State) (f : Fld) (v : Nat) : (s.setFld f v).xruns = s.xruns := rfl
@[simp] theorem setFld_laneCw (s : State) (f : Fld) (v : Nat) : (s.setFld f v).laneCw = s.laneCw := rfl
@[simp] theorem setFld_mislocked (s : State) (f : Fld) (v : Nat) : (s.setFld f v).mislocked = s.mislocked := rfl
@[simp] theorem setFld_trials (s : State) (f : Fld) (v : Nat) : (s.setFld f v).trials = s.trials := rfl
@[simp] theorem setFld_segRx (s : State) (f : Fld) (v : Nat) : (s.setFld f v).segRx = s.segRx := rfl
@[simp] theorem setFld_stallNow (s : State) (f : Fld) (v : Nat) : (s.setFld f v).stallNow = s.stallNow := rfl
@[simp] theorem setFld_extNow (s : State) (f : Fld) (v : Nat) : (s.setFld f v).extNow = s.extNow := rfl
@[simp] theorem setFld_runs (s : State) (f : Fld) (v : Nat) : (s.setFld f v).runs = s.runs := rfl
@[simp] theorem setFld_repairs (s : State) (f : Fld) (v : Nat) : (s.setFld f v).repairs = s.repairs := rfl
@[simp] theorem setFld_causes (s : State) (f : Fld) (v : Nat) : (s.setFld f v).causes = s.causes := rfl
@[simp] theorem setFld_spareUse (s : State) (f : Fld) (v : Nat) : (s.setFld f v).spareUse = s.spareUse := rfl
@[simp] theorem setFld_laneCnt (s : State) (f : Fld) (v : Nat) : (s.setFld f v).laneCnt = s.laneCnt := rfl
@[simp] theorem setFld_laneReps (s : State) (f : Fld) (v : Nat) : (s.setFld f v).laneReps = s.laneReps := rfl
@[simp] theorem setFld_sweeps (s : State) (f : Fld) (v : Nat) : (s.setFld f v).sweeps = s.sweeps := rfl
@[simp] theorem setFld_bondDead (s : State) (f : Fld) (v : Nat) : (s.setFld f v).bondDead = s.bondDead := rfl
@[simp] theorem setFld_bonds (s : State) (f : Fld) (v : Nat) : (s.setFld f v).bonds = s.bonds := rfl
@[simp] theorem setFld_bondHot (s : State) (f : Fld) (v : Nat) : (s.setFld f v).bondHot = s.bondHot := rfl
@[simp] theorem setFld_singles (s : State) (f : Fld) (v : Nat) : (s.setFld f v).singles = s.singles := rfl
@[simp] theorem setFld_rejoins (s : State) (f : Fld) (v : Nat) : (s.setFld f v).rejoins = s.rejoins := rfl
@[simp] theorem setFld_losses (s : State) (f : Fld) (v : Nat) : (s.setFld f v).losses = s.losses := rfl
@[simp] theorem setFld_keeperOut (s : State) (f : Fld) (v : Nat) : (s.setFld f v).keeperOut = s.keeperOut := rfl
@[simp] theorem setFld_therms (s : State) (f : Fld) (v : Nat) : (s.setFld f v).therms = s.therms := rfl
@[simp] theorem setFld_supply (s : State) (f : Fld) (v : Nat) : (s.setFld f v).supply = s.supply := rfl
@[simp] theorem setFld_convDown (s : State) (f : Fld) (v : Nat) : (s.setFld f v).convDown = s.convDown := rfl
@[simp] theorem setFld_tempOff (s : State) (f : Fld) (v : Nat) : (s.setFld f v).tempOff = s.tempOff := rfl
@[simp] theorem setFld_shoalFixes (s : State) (f : Fld) (v : Nat) : (s.setFld f v).shoalFixes = s.shoalFixes := rfl
@[simp] theorem setFld_trained (s : State) (f : Fld) (v : Nat) : (s.setFld f v).trained = s.trained := rfl
@[simp] theorem setFld_capNow (s : State) (f : Fld) (v : Nat) : (s.setFld f v).capNow = s.capNow := rfl
@[simp] theorem setFld_wakeAt (s : State) (f : Fld) (v : Nat) : (s.setFld f v).wakeAt = s.wakeAt := rfl
@[simp] theorem setFld_softStop (s : State) (f : Fld) (v : Nat) : (s.setFld f v).softStop = s.softStop := rfl
@[simp] theorem setFld_laps (s : State) (f : Fld) (v : Nat) : (s.setFld f v).laps = s.laps := rfl
@[simp] theorem setFld_hbmPeak (s : State) (f : Fld) (v : Nat) : (s.setFld f v).hbmPeak = s.hbmPeak := rfl
@[simp] theorem setFld_dch (s : State) (f : Fld) (v : Nat) : (s.setFld f v).dch = s.dch := rfl
@[simp] theorem setFld_dmaLen (s : State) (f : Fld) (v : Nat) : (s.setFld f v).dmaLen = s.dmaLen := rfl
@[simp] theorem setFld_kvs (s : State) (f : Fld) (v : Nat) : (s.setFld f v).kvs = s.kvs := rfl
@[simp] theorem setFld_flash (s : State) (f : Fld) (v : Nat) : (s.setFld f v).flash = s.flash := rfl
@[simp] theorem setFld_storing (s : State) (f : Fld) (v : Nat) : (s.setFld f v).storing = s.storing := rfl
@[simp] theorem setFld_resetHeld (s : State) (f : Fld) (v : Nat) : (s.setFld f v).resetHeld = s.resetHeld := rfl
@[simp] theorem setFld_storeTried (s : State) (f : Fld) (v : Nat) : (s.setFld f v).storeTried = s.storeTried := rfl
@[simp] theorem setFld_start (s : State) (f : Fld) (v : Nat) : (s.setFld f v).start = s.start := rfl
@[simp] theorem setFld_leftOut (s : State) (f : Fld) (v : Nat) : (s.setFld f v).leftOut = s.leftOut := rfl
@[simp] theorem setFld_upd (s : State) (f : Fld) (v : Nat) : (s.setFld f v).upd = s.upd := rfl
@[simp] theorem setFld_modRing (s : State) (f : Fld) (v : Nat) : (s.setFld f v).modRing = s.modRing := rfl
@[simp] theorem setFld_tnRings (s : State) (f : Fld) (v : Nat) : (s.setFld f v).tnRings = s.tnRings := rfl
@[simp] theorem setFld_evLast (s : State) (f : Fld) (v : Nat) : (s.setFld f v).evLast = s.evLast := rfl
@[simp] theorem setFld_ibiPending (s : State) (f : Fld) (v : Nat) : (s.setFld f v).ibiPending = s.ibiPending := rfl
@[simp] theorem setFld_alertN (s : State) (f : Fld) (v : Nat) : (s.setFld f v).alertN = s.alertN := rfl
@[simp] theorem setFld_mgmtAddr (s : State) (f : Fld) (v : Nat) : (s.setFld f v).mgmtAddr = s.mgmtAddr := rfl
@[simp] theorem setFld_availWas (s : State) (f : Fld) (v : Nat) : (s.setFld f v).availWas = s.availWas := rfl
@[simp] theorem setFld_linksWas (s : State) (f : Fld) (v : Nat) : (s.setFld f v).linksWas = s.linksWas := rfl
@[simp] theorem setFld_downNext (s : State) (f : Fld) (v : Nat) : (s.setFld f v).downNext = s.downNext := rfl
@[simp] theorem setFld_coreMoved (s : State) (f : Fld) (v : Nat) : (s.setFld f v).coreMoved = s.coreMoved := rfl
@[simp] theorem setFld_ringTrim (s : State) (f : Fld) (v : Nat) : (s.setFld f v).ringTrim = s.ringTrim := rfl
@[simp] theorem setFld_mzTrim (s : State) (f : Fld) (v : Nat) : (s.setFld f v).mzTrim = s.mzTrim := rfl
@[simp] theorem setFld_mzPend (s : State) (f : Fld) (v : Nat) : (s.setFld f v).mzPend = s.mzPend := rfl
@[simp] theorem setFld_clamped (s : State) (f : Fld) (v : Nat) : (s.setFld f v).clamped = s.clamped := rfl
@[simp] theorem setFld_selNew (s : State) (f : Fld) (v : Nat) : (s.setFld f v).selNew = s.selNew := rfl
@[simp] theorem setFld_storedAt (s : State) (f : Fld) (v : Nat) : (s.setFld f v).storedAt = s.storedAt := rfl
@[simp] theorem setFld_testMode (s : State) (f : Fld) (v : Nat) : (s.setFld f v).testMode = s.testMode := rfl
@[simp] theorem setFld_images (s : State) (f : Fld) (v : Nat) : (s.setFld f v).images = s.images := rfl
@[simp] theorem setFld_progAt (s : State) (f : Fld) (v : Nat) : (s.setFld f v).progAt = s.progAt := rfl
@[simp] theorem setFld_dmaAt (s : State) (f : Fld) (v : Nat) : (s.setFld f v).dmaAt = s.dmaAt := rfl
@[simp] theorem setFld_recs (s : State) (f : Fld) (v : Nat) : (s.setFld f v).recs = s.recs := rfl
@[simp] theorem setFld_caps (s : State) (f : Fld) (v : Nat) : (s.setFld f v).caps = s.caps := rfl
@[simp] theorem setFld_ckBanks (s : State) (f : Fld) (v : Nat) : (s.setFld f v).ckBanks = s.ckBanks := rfl
@[simp] theorem setFld_zeroing (s : State) (f : Fld) (v : Nat) : (s.setFld f v).zeroing = s.zeroing := rfl
@[simp] theorem setFld_filling (s : State) (f : Fld) (v : Nat) : (s.setFld f v).filling = s.filling := rfl
@[simp] theorem setFld_latch (s : State) (f : Fld) (v : Nat) : (s.setFld f v).latch = s.latch := rfl

@[simp] theorem setCore_pending (s : State) (c : CoreId) (x : Core) : (s.setCore c x).pending = s.pending := rfl
@[simp] theorem setCore_out (s : State) (c : CoreId) (x : Core) : (s.setCore c x).out = s.out := rfl
@[simp] theorem setCore_arisen (s : State) (c : CoreId) (x : Core) : (s.setCore c x).arisen = s.arisen := rfl
@[simp] theorem setCore_freeCtr (s : State) (c : CoreId) (x : Core) : (s.setCore c x).freeCtr = s.freeCtr := rfl
@[simp] theorem setCore_now (s : State) (c : CoreId) (x : Core) : (s.setCore c x).now = s.now := rfl
@[simp] theorem setCore_regs (s : State) (c : CoreId) (x : Core) : (s.setCore c x).regs = s.regs := rfl
@[simp] theorem setCore_mem (s : State) (c : CoreId) (x : Core) : (s.setCore c x).mem = s.mem := rfl
@[simp] theorem setCore_poison (s : State) (c : CoreId) (x : Core) : (s.setCore c x).poison = s.poison := rfl
@[simp] theorem setCore_damage (s : State) (c : CoreId) (x : Core) : (s.setCore c x).damage = s.damage := rfl
@[simp] theorem setCore_flips (s : State) (c : CoreId) (x : Core) : (s.setCore c x).flips = s.flips := rfl
@[simp] theorem setCore_msc (s : State) (c : CoreId) (x : Core) : (s.setCore c x).msc = s.msc := rfl
@[simp] theorem setCore_mscTree (s : State) (c : CoreId) (x : Core) : (s.setCore c x).mscTree = s.mscTree := rfl
@[simp] theorem setCore_elog (s : State) (c : CoreId) (x : Core) : (s.setCore c x).elog = s.elog := rfl
@[simp] theorem setCore_elogOvf (s : State) (c : CoreId) (x : Core) : (s.setCore c x).elogOvf = s.elogOvf := rfl
@[simp] theorem setCore_retPages (s : State) (c : CoreId) (x : Core) : (s.setCore c x).retPages = s.retPages := rfl
@[simp] theorem setCore_retBanks (s : State) (c : CoreId) (x : Core) : (s.setCore c x).retBanks = s.retBanks := rfl
@[simp] theorem setCore_arrays (s : State) (c : CoreId) (x : Core) : (s.setCore c x).arrays = s.arrays := rfl
@[simp] theorem setCore_vcores (s : State) (c : CoreId) (x : Core) : (s.setCore c x).vcores = s.vcores := rfl
@[simp] theorem setCore_meshes (s : State) (c : CoreId) (x : Core) : (s.setCore c x).meshes = s.meshes := rfl
@[simp] theorem setCore_rings (s : State) (c : CoreId) (x : Core) : (s.setCore c x).rings = s.rings := rfl
@[simp] theorem setCore_bounds (s : State) (c : CoreId) (x : Core) : (s.setCore c x).bounds = s.bounds := rfl
@[simp] theorem setCore_mgmtQ (s : State) (c : CoreId) (x : Core) : (s.setCore c x).mgmtQ = s.mgmtQ := rfl
@[simp] theorem setCore_mgmtSeq (s : State) (c : CoreId) (x : Core) : (s.setCore c x).mgmtSeq = s.mgmtSeq := rfl
@[simp] theorem setCore_mgmtCnt (s : State) (c : CoreId) (x : Core) : (s.setCore c x).mgmtCnt = s.mgmtCnt := rfl
@[simp] theorem setCore_msixOn (s : State) (c : CoreId) (x : Core) : (s.setCore c x).msixOn = s.msixOn := rfl
@[simp] theorem setCore_msixTbl (s : State) (c : CoreId) (x : Core) : (s.setCore c x).msixTbl = s.msixTbl := rfl
@[simp] theorem setCore_msixPba (s : State) (c : CoreId) (x : Core) : (s.setCore c x).msixPba = s.msixPba := rfl
@[simp] theorem setCore_msixSent (s : State) (c : CoreId) (x : Core) : (s.setCore c x).msixSent = s.msixSent := rfl
@[simp] theorem setCore_msixNext (s : State) (c : CoreId) (x : Core) : (s.setCore c x).msixNext = s.msixNext := rfl
@[simp] theorem setCore_pcie (s : State) (c : CoreId) (x : Core) : (s.setCore c x).pcie = s.pcie := rfl
@[simp] theorem setCore_fwin (s : State) (c : CoreId) (x : Core) : (s.setCore c x).fwin = s.fwin := rfl
@[simp] theorem setCore_tiles (s : State) (c : CoreId) (x : Core) : (s.setCore c x).tiles = s.tiles := rfl
@[simp] theorem setCore_arbiters (s : State) (c : CoreId) (x : Core) : (s.setCore c x).arbiters = s.arbiters := rfl
@[simp] theorem setCore_wires (s : State) (c : CoreId) (x : Core) : (s.setCore c x).wires = s.wires := rfl
@[simp] theorem setCore_fyLanes (s : State) (c : CoreId) (x : Core) : (s.setCore c x).fyLanes = s.fyLanes := rfl
@[simp] theorem setCore_lambdas (s : State) (c : CoreId) (x : Core) : (s.setCore c x).lambdas = s.lambdas := rfl
@[simp] theorem setCore_crossing (s : State) (c : CoreId) (x : Core) : (s.setCore c x).crossing = s.crossing := rfl
@[simp] theorem setCore_lks (s : State) (c : CoreId) (x : Core) : (s.setCore c x).lks = s.lks := rfl
@[simp] theorem setCore_freqs (s : State) (c : CoreId) (x : Core) : (s.setCore c x).freqs = s.freqs := rfl
@[simp] theorem setCore_sctxs (s : State) (c : CoreId) (x : Core) : (s.setCore c x).sctxs = s.sctxs := rfl
@[simp] theorem setCore_eseqs (s : State) (c : CoreId) (x : Core) : (s.setCore c x).eseqs = s.eseqs := rfl
@[simp] theorem setCore_dctxs (s : State) (c : CoreId) (x : Core) : (s.setCore c x).dctxs = s.dctxs := rfl
@[simp] theorem setCore_rcache (s : State) (c : CoreId) (x : Core) : (s.setCore c x).rcache = s.rcache := rfl
@[simp] theorem setCore_swins (s : State) (c : CoreId) (x : Core) : (s.setCore c x).swins = s.swins := rfl
@[simp] theorem setCore_rtCache (s : State) (c : CoreId) (x : Core) : (s.setCore c x).rtCache = s.rtCache := rfl
@[simp] theorem setCore_htSwitchAt (s : State) (c : CoreId) (x : Core) : (s.setCore c x).htSwitchAt = s.htSwitchAt := rfl
@[simp] theorem setCore_mbox (s : State) (c : CoreId) (x : Core) : (s.setCore c x).mbox = s.mbox := rfl
@[simp] theorem setCore_lostPkts (s : State) (c : CoreId) (x : Core) : (s.setCore c x).lostPkts = s.lostPkts := rfl
@[simp] theorem setCore_plans (s : State) (c : CoreId) (x : Core) : (s.setCore c x).plans = s.plans := rfl
@[simp] theorem setCore_sums (s : State) (c : CoreId) (x : Core) : (s.setCore c x).sums = s.sums := rfl
@[simp] theorem setCore_linkMaps (s : State) (c : CoreId) (x : Core) : (s.setCore c x).linkMaps = s.linkMaps := rfl
@[simp] theorem setCore_legs (s : State) (c : CoreId) (x : Core) : (s.setCore c x).legs = s.legs := rfl
@[simp] theorem setCore_xruns (s : State) (c : CoreId) (x : Core) : (s.setCore c x).xruns = s.xruns := rfl
@[simp] theorem setCore_laneCw (s : State) (c : CoreId) (x : Core) : (s.setCore c x).laneCw = s.laneCw := rfl
@[simp] theorem setCore_mislocked (s : State) (c : CoreId) (x : Core) : (s.setCore c x).mislocked = s.mislocked := rfl
@[simp] theorem setCore_trials (s : State) (c : CoreId) (x : Core) : (s.setCore c x).trials = s.trials := rfl
@[simp] theorem setCore_segRx (s : State) (c : CoreId) (x : Core) : (s.setCore c x).segRx = s.segRx := rfl
@[simp] theorem setCore_stallNow (s : State) (c : CoreId) (x : Core) : (s.setCore c x).stallNow = s.stallNow := rfl
@[simp] theorem setCore_extNow (s : State) (c : CoreId) (x : Core) : (s.setCore c x).extNow = s.extNow := rfl
@[simp] theorem setCore_runs (s : State) (c : CoreId) (x : Core) : (s.setCore c x).runs = s.runs := rfl
@[simp] theorem setCore_repairs (s : State) (c : CoreId) (x : Core) : (s.setCore c x).repairs = s.repairs := rfl
@[simp] theorem setCore_causes (s : State) (c : CoreId) (x : Core) : (s.setCore c x).causes = s.causes := rfl
@[simp] theorem setCore_spareUse (s : State) (c : CoreId) (x : Core) : (s.setCore c x).spareUse = s.spareUse := rfl
@[simp] theorem setCore_laneCnt (s : State) (c : CoreId) (x : Core) : (s.setCore c x).laneCnt = s.laneCnt := rfl
@[simp] theorem setCore_laneReps (s : State) (c : CoreId) (x : Core) : (s.setCore c x).laneReps = s.laneReps := rfl
@[simp] theorem setCore_sweeps (s : State) (c : CoreId) (x : Core) : (s.setCore c x).sweeps = s.sweeps := rfl
@[simp] theorem setCore_bondDead (s : State) (c : CoreId) (x : Core) : (s.setCore c x).bondDead = s.bondDead := rfl
@[simp] theorem setCore_bonds (s : State) (c : CoreId) (x : Core) : (s.setCore c x).bonds = s.bonds := rfl
@[simp] theorem setCore_bondHot (s : State) (c : CoreId) (x : Core) : (s.setCore c x).bondHot = s.bondHot := rfl
@[simp] theorem setCore_singles (s : State) (c : CoreId) (x : Core) : (s.setCore c x).singles = s.singles := rfl
@[simp] theorem setCore_rejoins (s : State) (c : CoreId) (x : Core) : (s.setCore c x).rejoins = s.rejoins := rfl
@[simp] theorem setCore_losses (s : State) (c : CoreId) (x : Core) : (s.setCore c x).losses = s.losses := rfl
@[simp] theorem setCore_keeperOut (s : State) (c : CoreId) (x : Core) : (s.setCore c x).keeperOut = s.keeperOut := rfl
@[simp] theorem setCore_therms (s : State) (c : CoreId) (x : Core) : (s.setCore c x).therms = s.therms := rfl
@[simp] theorem setCore_supply (s : State) (c : CoreId) (x : Core) : (s.setCore c x).supply = s.supply := rfl
@[simp] theorem setCore_convDown (s : State) (c : CoreId) (x : Core) : (s.setCore c x).convDown = s.convDown := rfl
@[simp] theorem setCore_tempOff (s : State) (c : CoreId) (x : Core) : (s.setCore c x).tempOff = s.tempOff := rfl
@[simp] theorem setCore_shoalFixes (s : State) (c : CoreId) (x : Core) : (s.setCore c x).shoalFixes = s.shoalFixes := rfl
@[simp] theorem setCore_trained (s : State) (c : CoreId) (x : Core) : (s.setCore c x).trained = s.trained := rfl
@[simp] theorem setCore_capNow (s : State) (c : CoreId) (x : Core) : (s.setCore c x).capNow = s.capNow := rfl
@[simp] theorem setCore_wakeAt (s : State) (c : CoreId) (x : Core) : (s.setCore c x).wakeAt = s.wakeAt := rfl
@[simp] theorem setCore_softStop (s : State) (c : CoreId) (x : Core) : (s.setCore c x).softStop = s.softStop := rfl
@[simp] theorem setCore_laps (s : State) (c : CoreId) (x : Core) : (s.setCore c x).laps = s.laps := rfl
@[simp] theorem setCore_hbmPeak (s : State) (c : CoreId) (x : Core) : (s.setCore c x).hbmPeak = s.hbmPeak := rfl
@[simp] theorem setCore_dch (s : State) (c : CoreId) (x : Core) : (s.setCore c x).dch = s.dch := rfl
@[simp] theorem setCore_dmaLen (s : State) (c : CoreId) (x : Core) : (s.setCore c x).dmaLen = s.dmaLen := rfl
@[simp] theorem setCore_kvs (s : State) (c : CoreId) (x : Core) : (s.setCore c x).kvs = s.kvs := rfl
@[simp] theorem setCore_flash (s : State) (c : CoreId) (x : Core) : (s.setCore c x).flash = s.flash := rfl
@[simp] theorem setCore_storing (s : State) (c : CoreId) (x : Core) : (s.setCore c x).storing = s.storing := rfl
@[simp] theorem setCore_resetHeld (s : State) (c : CoreId) (x : Core) : (s.setCore c x).resetHeld = s.resetHeld := rfl
@[simp] theorem setCore_storeTried (s : State) (c : CoreId) (x : Core) : (s.setCore c x).storeTried = s.storeTried := rfl
@[simp] theorem setCore_start (s : State) (c : CoreId) (x : Core) : (s.setCore c x).start = s.start := rfl
@[simp] theorem setCore_leftOut (s : State) (c : CoreId) (x : Core) : (s.setCore c x).leftOut = s.leftOut := rfl
@[simp] theorem setCore_upd (s : State) (c : CoreId) (x : Core) : (s.setCore c x).upd = s.upd := rfl
@[simp] theorem setCore_modRing (s : State) (c : CoreId) (x : Core) : (s.setCore c x).modRing = s.modRing := rfl
@[simp] theorem setCore_tnRings (s : State) (c : CoreId) (x : Core) : (s.setCore c x).tnRings = s.tnRings := rfl
@[simp] theorem setCore_evLast (s : State) (c : CoreId) (x : Core) : (s.setCore c x).evLast = s.evLast := rfl
@[simp] theorem setCore_ibiPending (s : State) (c : CoreId) (x : Core) : (s.setCore c x).ibiPending = s.ibiPending := rfl
@[simp] theorem setCore_alertN (s : State) (c : CoreId) (x : Core) : (s.setCore c x).alertN = s.alertN := rfl
@[simp] theorem setCore_mgmtAddr (s : State) (c : CoreId) (x : Core) : (s.setCore c x).mgmtAddr = s.mgmtAddr := rfl
@[simp] theorem setCore_availWas (s : State) (c : CoreId) (x : Core) : (s.setCore c x).availWas = s.availWas := rfl
@[simp] theorem setCore_linksWas (s : State) (c : CoreId) (x : Core) : (s.setCore c x).linksWas = s.linksWas := rfl
@[simp] theorem setCore_downNext (s : State) (c : CoreId) (x : Core) : (s.setCore c x).downNext = s.downNext := rfl
@[simp] theorem setCore_coreMoved (s : State) (c : CoreId) (x : Core) : (s.setCore c x).coreMoved = s.coreMoved := rfl
@[simp] theorem setCore_ringTrim (s : State) (c : CoreId) (x : Core) : (s.setCore c x).ringTrim = s.ringTrim := rfl
@[simp] theorem setCore_mzTrim (s : State) (c : CoreId) (x : Core) : (s.setCore c x).mzTrim = s.mzTrim := rfl
@[simp] theorem setCore_mzPend (s : State) (c : CoreId) (x : Core) : (s.setCore c x).mzPend = s.mzPend := rfl
@[simp] theorem setCore_clamped (s : State) (c : CoreId) (x : Core) : (s.setCore c x).clamped = s.clamped := rfl
@[simp] theorem setCore_selNew (s : State) (c : CoreId) (x : Core) : (s.setCore c x).selNew = s.selNew := rfl
@[simp] theorem setCore_storedAt (s : State) (c : CoreId) (x : Core) : (s.setCore c x).storedAt = s.storedAt := rfl
@[simp] theorem setCore_testMode (s : State) (c : CoreId) (x : Core) : (s.setCore c x).testMode = s.testMode := rfl
@[simp] theorem setCore_images (s : State) (c : CoreId) (x : Core) : (s.setCore c x).images = s.images := rfl
@[simp] theorem setCore_progAt (s : State) (c : CoreId) (x : Core) : (s.setCore c x).progAt = s.progAt := rfl
@[simp] theorem setCore_dmaAt (s : State) (c : CoreId) (x : Core) : (s.setCore c x).dmaAt = s.dmaAt := rfl
@[simp] theorem setCore_recs (s : State) (c : CoreId) (x : Core) : (s.setCore c x).recs = s.recs := rfl
@[simp] theorem setCore_caps (s : State) (c : CoreId) (x : Core) : (s.setCore c x).caps = s.caps := rfl
@[simp] theorem setCore_ckBanks (s : State) (c : CoreId) (x : Core) : (s.setCore c x).ckBanks = s.ckBanks := rfl
@[simp] theorem setCore_zeroing (s : State) (c : CoreId) (x : Core) : (s.setCore c x).zeroing = s.zeroing := rfl
@[simp] theorem setCore_filling (s : State) (c : CoreId) (x : Core) : (s.setCore c x).filling = s.filling := rfl
@[simp] theorem setCore_latch (s : State) (c : CoreId) (x : Core) : (s.setCore c x).latch = s.latch := rfl

@[simp] theorem emit_pending (s : State) (o : Output) : (s.emit o).pending = s.pending := rfl
@[simp] theorem emit_arisen (s : State) (o : Output) : (s.emit o).arisen = s.arisen := rfl
@[simp] theorem emit_freeCtr (s : State) (o : Output) : (s.emit o).freeCtr = s.freeCtr := rfl
@[simp] theorem emit_now (s : State) (o : Output) : (s.emit o).now = s.now := rfl
@[simp] theorem emit_regs (s : State) (o : Output) : (s.emit o).regs = s.regs := rfl
@[simp] theorem emit_mem (s : State) (o : Output) : (s.emit o).mem = s.mem := rfl
@[simp] theorem emit_poison (s : State) (o : Output) : (s.emit o).poison = s.poison := rfl
@[simp] theorem emit_damage (s : State) (o : Output) : (s.emit o).damage = s.damage := rfl
@[simp] theorem emit_flips (s : State) (o : Output) : (s.emit o).flips = s.flips := rfl
@[simp] theorem emit_msc (s : State) (o : Output) : (s.emit o).msc = s.msc := rfl
@[simp] theorem emit_mscTree (s : State) (o : Output) : (s.emit o).mscTree = s.mscTree := rfl
@[simp] theorem emit_elog (s : State) (o : Output) : (s.emit o).elog = s.elog := rfl
@[simp] theorem emit_elogOvf (s : State) (o : Output) : (s.emit o).elogOvf = s.elogOvf := rfl
@[simp] theorem emit_retPages (s : State) (o : Output) : (s.emit o).retPages = s.retPages := rfl
@[simp] theorem emit_retBanks (s : State) (o : Output) : (s.emit o).retBanks = s.retBanks := rfl
@[simp] theorem emit_cores (s : State) (o : Output) : (s.emit o).cores = s.cores := rfl
@[simp] theorem emit_arrays (s : State) (o : Output) : (s.emit o).arrays = s.arrays := rfl
@[simp] theorem emit_vcores (s : State) (o : Output) : (s.emit o).vcores = s.vcores := rfl
@[simp] theorem emit_meshes (s : State) (o : Output) : (s.emit o).meshes = s.meshes := rfl
@[simp] theorem emit_rings (s : State) (o : Output) : (s.emit o).rings = s.rings := rfl
@[simp] theorem emit_bounds (s : State) (o : Output) : (s.emit o).bounds = s.bounds := rfl
@[simp] theorem emit_mgmtQ (s : State) (o : Output) : (s.emit o).mgmtQ = s.mgmtQ := rfl
@[simp] theorem emit_mgmtSeq (s : State) (o : Output) : (s.emit o).mgmtSeq = s.mgmtSeq := rfl
@[simp] theorem emit_mgmtCnt (s : State) (o : Output) : (s.emit o).mgmtCnt = s.mgmtCnt := rfl
@[simp] theorem emit_msixOn (s : State) (o : Output) : (s.emit o).msixOn = s.msixOn := rfl
@[simp] theorem emit_msixTbl (s : State) (o : Output) : (s.emit o).msixTbl = s.msixTbl := rfl
@[simp] theorem emit_msixPba (s : State) (o : Output) : (s.emit o).msixPba = s.msixPba := rfl
@[simp] theorem emit_msixSent (s : State) (o : Output) : (s.emit o).msixSent = s.msixSent := rfl
@[simp] theorem emit_msixNext (s : State) (o : Output) : (s.emit o).msixNext = s.msixNext := rfl
@[simp] theorem emit_pcie (s : State) (o : Output) : (s.emit o).pcie = s.pcie := rfl
@[simp] theorem emit_fwin (s : State) (o : Output) : (s.emit o).fwin = s.fwin := rfl
@[simp] theorem emit_tiles (s : State) (o : Output) : (s.emit o).tiles = s.tiles := rfl
@[simp] theorem emit_arbiters (s : State) (o : Output) : (s.emit o).arbiters = s.arbiters := rfl
@[simp] theorem emit_wires (s : State) (o : Output) : (s.emit o).wires = s.wires := rfl
@[simp] theorem emit_fyLanes (s : State) (o : Output) : (s.emit o).fyLanes = s.fyLanes := rfl
@[simp] theorem emit_lambdas (s : State) (o : Output) : (s.emit o).lambdas = s.lambdas := rfl
@[simp] theorem emit_crossing (s : State) (o : Output) : (s.emit o).crossing = s.crossing := rfl
@[simp] theorem emit_lks (s : State) (o : Output) : (s.emit o).lks = s.lks := rfl
@[simp] theorem emit_freqs (s : State) (o : Output) : (s.emit o).freqs = s.freqs := rfl
@[simp] theorem emit_sctxs (s : State) (o : Output) : (s.emit o).sctxs = s.sctxs := rfl
@[simp] theorem emit_eseqs (s : State) (o : Output) : (s.emit o).eseqs = s.eseqs := rfl
@[simp] theorem emit_dctxs (s : State) (o : Output) : (s.emit o).dctxs = s.dctxs := rfl
@[simp] theorem emit_rcache (s : State) (o : Output) : (s.emit o).rcache = s.rcache := rfl
@[simp] theorem emit_swins (s : State) (o : Output) : (s.emit o).swins = s.swins := rfl
@[simp] theorem emit_rtCache (s : State) (o : Output) : (s.emit o).rtCache = s.rtCache := rfl
@[simp] theorem emit_htSwitchAt (s : State) (o : Output) : (s.emit o).htSwitchAt = s.htSwitchAt := rfl
@[simp] theorem emit_mbox (s : State) (o : Output) : (s.emit o).mbox = s.mbox := rfl
@[simp] theorem emit_lostPkts (s : State) (o : Output) : (s.emit o).lostPkts = s.lostPkts := rfl
@[simp] theorem emit_plans (s : State) (o : Output) : (s.emit o).plans = s.plans := rfl
@[simp] theorem emit_sums (s : State) (o : Output) : (s.emit o).sums = s.sums := rfl
@[simp] theorem emit_linkMaps (s : State) (o : Output) : (s.emit o).linkMaps = s.linkMaps := rfl
@[simp] theorem emit_legs (s : State) (o : Output) : (s.emit o).legs = s.legs := rfl
@[simp] theorem emit_xruns (s : State) (o : Output) : (s.emit o).xruns = s.xruns := rfl
@[simp] theorem emit_laneCw (s : State) (o : Output) : (s.emit o).laneCw = s.laneCw := rfl
@[simp] theorem emit_mislocked (s : State) (o : Output) : (s.emit o).mislocked = s.mislocked := rfl
@[simp] theorem emit_trials (s : State) (o : Output) : (s.emit o).trials = s.trials := rfl
@[simp] theorem emit_segRx (s : State) (o : Output) : (s.emit o).segRx = s.segRx := rfl
@[simp] theorem emit_stallNow (s : State) (o : Output) : (s.emit o).stallNow = s.stallNow := rfl
@[simp] theorem emit_extNow (s : State) (o : Output) : (s.emit o).extNow = s.extNow := rfl
@[simp] theorem emit_runs (s : State) (o : Output) : (s.emit o).runs = s.runs := rfl
@[simp] theorem emit_repairs (s : State) (o : Output) : (s.emit o).repairs = s.repairs := rfl
@[simp] theorem emit_causes (s : State) (o : Output) : (s.emit o).causes = s.causes := rfl
@[simp] theorem emit_spareUse (s : State) (o : Output) : (s.emit o).spareUse = s.spareUse := rfl
@[simp] theorem emit_laneCnt (s : State) (o : Output) : (s.emit o).laneCnt = s.laneCnt := rfl
@[simp] theorem emit_laneReps (s : State) (o : Output) : (s.emit o).laneReps = s.laneReps := rfl
@[simp] theorem emit_sweeps (s : State) (o : Output) : (s.emit o).sweeps = s.sweeps := rfl
@[simp] theorem emit_bondDead (s : State) (o : Output) : (s.emit o).bondDead = s.bondDead := rfl
@[simp] theorem emit_bonds (s : State) (o : Output) : (s.emit o).bonds = s.bonds := rfl
@[simp] theorem emit_bondHot (s : State) (o : Output) : (s.emit o).bondHot = s.bondHot := rfl
@[simp] theorem emit_singles (s : State) (o : Output) : (s.emit o).singles = s.singles := rfl
@[simp] theorem emit_rejoins (s : State) (o : Output) : (s.emit o).rejoins = s.rejoins := rfl
@[simp] theorem emit_losses (s : State) (o : Output) : (s.emit o).losses = s.losses := rfl
@[simp] theorem emit_keeperOut (s : State) (o : Output) : (s.emit o).keeperOut = s.keeperOut := rfl
@[simp] theorem emit_therms (s : State) (o : Output) : (s.emit o).therms = s.therms := rfl
@[simp] theorem emit_supply (s : State) (o : Output) : (s.emit o).supply = s.supply := rfl
@[simp] theorem emit_convDown (s : State) (o : Output) : (s.emit o).convDown = s.convDown := rfl
@[simp] theorem emit_tempOff (s : State) (o : Output) : (s.emit o).tempOff = s.tempOff := rfl
@[simp] theorem emit_shoalFixes (s : State) (o : Output) : (s.emit o).shoalFixes = s.shoalFixes := rfl
@[simp] theorem emit_trained (s : State) (o : Output) : (s.emit o).trained = s.trained := rfl
@[simp] theorem emit_capNow (s : State) (o : Output) : (s.emit o).capNow = s.capNow := rfl
@[simp] theorem emit_wakeAt (s : State) (o : Output) : (s.emit o).wakeAt = s.wakeAt := rfl
@[simp] theorem emit_softStop (s : State) (o : Output) : (s.emit o).softStop = s.softStop := rfl
@[simp] theorem emit_laps (s : State) (o : Output) : (s.emit o).laps = s.laps := rfl
@[simp] theorem emit_hbmPeak (s : State) (o : Output) : (s.emit o).hbmPeak = s.hbmPeak := rfl
@[simp] theorem emit_dch (s : State) (o : Output) : (s.emit o).dch = s.dch := rfl
@[simp] theorem emit_dmaLen (s : State) (o : Output) : (s.emit o).dmaLen = s.dmaLen := rfl
@[simp] theorem emit_kvs (s : State) (o : Output) : (s.emit o).kvs = s.kvs := rfl
@[simp] theorem emit_flash (s : State) (o : Output) : (s.emit o).flash = s.flash := rfl
@[simp] theorem emit_storing (s : State) (o : Output) : (s.emit o).storing = s.storing := rfl
@[simp] theorem emit_resetHeld (s : State) (o : Output) : (s.emit o).resetHeld = s.resetHeld := rfl
@[simp] theorem emit_storeTried (s : State) (o : Output) : (s.emit o).storeTried = s.storeTried := rfl
@[simp] theorem emit_start (s : State) (o : Output) : (s.emit o).start = s.start := rfl
@[simp] theorem emit_leftOut (s : State) (o : Output) : (s.emit o).leftOut = s.leftOut := rfl
@[simp] theorem emit_upd (s : State) (o : Output) : (s.emit o).upd = s.upd := rfl
@[simp] theorem emit_modRing (s : State) (o : Output) : (s.emit o).modRing = s.modRing := rfl
@[simp] theorem emit_tnRings (s : State) (o : Output) : (s.emit o).tnRings = s.tnRings := rfl
@[simp] theorem emit_evLast (s : State) (o : Output) : (s.emit o).evLast = s.evLast := rfl
@[simp] theorem emit_ibiPending (s : State) (o : Output) : (s.emit o).ibiPending = s.ibiPending := rfl
@[simp] theorem emit_alertN (s : State) (o : Output) : (s.emit o).alertN = s.alertN := rfl
@[simp] theorem emit_mgmtAddr (s : State) (o : Output) : (s.emit o).mgmtAddr = s.mgmtAddr := rfl
@[simp] theorem emit_availWas (s : State) (o : Output) : (s.emit o).availWas = s.availWas := rfl
@[simp] theorem emit_linksWas (s : State) (o : Output) : (s.emit o).linksWas = s.linksWas := rfl
@[simp] theorem emit_downNext (s : State) (o : Output) : (s.emit o).downNext = s.downNext := rfl
@[simp] theorem emit_coreMoved (s : State) (o : Output) : (s.emit o).coreMoved = s.coreMoved := rfl
@[simp] theorem emit_ringTrim (s : State) (o : Output) : (s.emit o).ringTrim = s.ringTrim := rfl
@[simp] theorem emit_mzTrim (s : State) (o : Output) : (s.emit o).mzTrim = s.mzTrim := rfl
@[simp] theorem emit_mzPend (s : State) (o : Output) : (s.emit o).mzPend = s.mzPend := rfl
@[simp] theorem emit_clamped (s : State) (o : Output) : (s.emit o).clamped = s.clamped := rfl
@[simp] theorem emit_selNew (s : State) (o : Output) : (s.emit o).selNew = s.selNew := rfl
@[simp] theorem emit_storedAt (s : State) (o : Output) : (s.emit o).storedAt = s.storedAt := rfl
@[simp] theorem emit_testMode (s : State) (o : Output) : (s.emit o).testMode = s.testMode := rfl
@[simp] theorem emit_images (s : State) (o : Output) : (s.emit o).images = s.images := rfl
@[simp] theorem emit_progAt (s : State) (o : Output) : (s.emit o).progAt = s.progAt := rfl
@[simp] theorem emit_dmaAt (s : State) (o : Output) : (s.emit o).dmaAt = s.dmaAt := rfl
@[simp] theorem emit_recs (s : State) (o : Output) : (s.emit o).recs = s.recs := rfl
@[simp] theorem emit_caps (s : State) (o : Output) : (s.emit o).caps = s.caps := rfl
@[simp] theorem emit_ckBanks (s : State) (o : Output) : (s.emit o).ckBanks = s.ckBanks := rfl
@[simp] theorem emit_zeroing (s : State) (o : Output) : (s.emit o).zeroing = s.zeroing := rfl
@[simp] theorem emit_filling (s : State) (o : Output) : (s.emit o).filling = s.filling := rfl
@[simp] theorem emit_latch (s : State) (o : Output) : (s.emit o).latch = s.latch := rfl

@[simp] theorem raise_pending (s : State) (a b c d : Nat) (l : List Nat) : (s.raise a b c d l).pending = s.pending := rfl
@[simp] theorem raise_out (s : State) (a b c d : Nat) (l : List Nat) : (s.raise a b c d l).out = s.out := rfl
@[simp] theorem raise_freeCtr (s : State) (a b c d : Nat) (l : List Nat) : (s.raise a b c d l).freeCtr = s.freeCtr := rfl
@[simp] theorem raise_now (s : State) (a b c d : Nat) (l : List Nat) : (s.raise a b c d l).now = s.now := rfl
@[simp] theorem raise_regs (s : State) (a b c d : Nat) (l : List Nat) : (s.raise a b c d l).regs = s.regs := rfl
@[simp] theorem raise_mem (s : State) (a b c d : Nat) (l : List Nat) : (s.raise a b c d l).mem = s.mem := rfl
@[simp] theorem raise_poison (s : State) (a b c d : Nat) (l : List Nat) : (s.raise a b c d l).poison = s.poison := rfl
@[simp] theorem raise_damage (s : State) (a b c d : Nat) (l : List Nat) : (s.raise a b c d l).damage = s.damage := rfl
@[simp] theorem raise_flips (s : State) (a b c d : Nat) (l : List Nat) : (s.raise a b c d l).flips = s.flips := rfl
@[simp] theorem raise_msc (s : State) (a b c d : Nat) (l : List Nat) : (s.raise a b c d l).msc = s.msc := rfl
@[simp] theorem raise_mscTree (s : State) (a b c d : Nat) (l : List Nat) : (s.raise a b c d l).mscTree = s.mscTree := rfl
@[simp] theorem raise_elog (s : State) (a b c d : Nat) (l : List Nat) : (s.raise a b c d l).elog = s.elog := rfl
@[simp] theorem raise_elogOvf (s : State) (a b c d : Nat) (l : List Nat) : (s.raise a b c d l).elogOvf = s.elogOvf := rfl
@[simp] theorem raise_retPages (s : State) (a b c d : Nat) (l : List Nat) : (s.raise a b c d l).retPages = s.retPages := rfl
@[simp] theorem raise_retBanks (s : State) (a b c d : Nat) (l : List Nat) : (s.raise a b c d l).retBanks = s.retBanks := rfl
@[simp] theorem raise_cores (s : State) (a b c d : Nat) (l : List Nat) : (s.raise a b c d l).cores = s.cores := rfl
@[simp] theorem raise_arrays (s : State) (a b c d : Nat) (l : List Nat) : (s.raise a b c d l).arrays = s.arrays := rfl
@[simp] theorem raise_vcores (s : State) (a b c d : Nat) (l : List Nat) : (s.raise a b c d l).vcores = s.vcores := rfl
@[simp] theorem raise_meshes (s : State) (a b c d : Nat) (l : List Nat) : (s.raise a b c d l).meshes = s.meshes := rfl
@[simp] theorem raise_rings (s : State) (a b c d : Nat) (l : List Nat) : (s.raise a b c d l).rings = s.rings := rfl
@[simp] theorem raise_bounds (s : State) (a b c d : Nat) (l : List Nat) : (s.raise a b c d l).bounds = s.bounds := rfl
@[simp] theorem raise_mgmtQ (s : State) (a b c d : Nat) (l : List Nat) : (s.raise a b c d l).mgmtQ = s.mgmtQ := rfl
@[simp] theorem raise_mgmtSeq (s : State) (a b c d : Nat) (l : List Nat) : (s.raise a b c d l).mgmtSeq = s.mgmtSeq := rfl
@[simp] theorem raise_mgmtCnt (s : State) (a b c d : Nat) (l : List Nat) : (s.raise a b c d l).mgmtCnt = s.mgmtCnt := rfl
@[simp] theorem raise_msixOn (s : State) (a b c d : Nat) (l : List Nat) : (s.raise a b c d l).msixOn = s.msixOn := rfl
@[simp] theorem raise_msixTbl (s : State) (a b c d : Nat) (l : List Nat) : (s.raise a b c d l).msixTbl = s.msixTbl := rfl
@[simp] theorem raise_msixPba (s : State) (a b c d : Nat) (l : List Nat) : (s.raise a b c d l).msixPba = s.msixPba := rfl
@[simp] theorem raise_msixSent (s : State) (a b c d : Nat) (l : List Nat) : (s.raise a b c d l).msixSent = s.msixSent := rfl
@[simp] theorem raise_msixNext (s : State) (a b c d : Nat) (l : List Nat) : (s.raise a b c d l).msixNext = s.msixNext := rfl
@[simp] theorem raise_pcie (s : State) (a b c d : Nat) (l : List Nat) : (s.raise a b c d l).pcie = s.pcie := rfl
@[simp] theorem raise_fwin (s : State) (a b c d : Nat) (l : List Nat) : (s.raise a b c d l).fwin = s.fwin := rfl
@[simp] theorem raise_tiles (s : State) (a b c d : Nat) (l : List Nat) : (s.raise a b c d l).tiles = s.tiles := rfl
@[simp] theorem raise_arbiters (s : State) (a b c d : Nat) (l : List Nat) : (s.raise a b c d l).arbiters = s.arbiters := rfl
@[simp] theorem raise_wires (s : State) (a b c d : Nat) (l : List Nat) : (s.raise a b c d l).wires = s.wires := rfl
@[simp] theorem raise_fyLanes (s : State) (a b c d : Nat) (l : List Nat) : (s.raise a b c d l).fyLanes = s.fyLanes := rfl
@[simp] theorem raise_lambdas (s : State) (a b c d : Nat) (l : List Nat) : (s.raise a b c d l).lambdas = s.lambdas := rfl
@[simp] theorem raise_crossing (s : State) (a b c d : Nat) (l : List Nat) : (s.raise a b c d l).crossing = s.crossing := rfl
@[simp] theorem raise_lks (s : State) (a b c d : Nat) (l : List Nat) : (s.raise a b c d l).lks = s.lks := rfl
@[simp] theorem raise_freqs (s : State) (a b c d : Nat) (l : List Nat) : (s.raise a b c d l).freqs = s.freqs := rfl
@[simp] theorem raise_sctxs (s : State) (a b c d : Nat) (l : List Nat) : (s.raise a b c d l).sctxs = s.sctxs := rfl
@[simp] theorem raise_eseqs (s : State) (a b c d : Nat) (l : List Nat) : (s.raise a b c d l).eseqs = s.eseqs := rfl
@[simp] theorem raise_dctxs (s : State) (a b c d : Nat) (l : List Nat) : (s.raise a b c d l).dctxs = s.dctxs := rfl
@[simp] theorem raise_rcache (s : State) (a b c d : Nat) (l : List Nat) : (s.raise a b c d l).rcache = s.rcache := rfl
@[simp] theorem raise_swins (s : State) (a b c d : Nat) (l : List Nat) : (s.raise a b c d l).swins = s.swins := rfl
@[simp] theorem raise_rtCache (s : State) (a b c d : Nat) (l : List Nat) : (s.raise a b c d l).rtCache = s.rtCache := rfl
@[simp] theorem raise_htSwitchAt (s : State) (a b c d : Nat) (l : List Nat) : (s.raise a b c d l).htSwitchAt = s.htSwitchAt := rfl
@[simp] theorem raise_mbox (s : State) (a b c d : Nat) (l : List Nat) : (s.raise a b c d l).mbox = s.mbox := rfl
@[simp] theorem raise_lostPkts (s : State) (a b c d : Nat) (l : List Nat) : (s.raise a b c d l).lostPkts = s.lostPkts := rfl
@[simp] theorem raise_plans (s : State) (a b c d : Nat) (l : List Nat) : (s.raise a b c d l).plans = s.plans := rfl
@[simp] theorem raise_sums (s : State) (a b c d : Nat) (l : List Nat) : (s.raise a b c d l).sums = s.sums := rfl
@[simp] theorem raise_linkMaps (s : State) (a b c d : Nat) (l : List Nat) : (s.raise a b c d l).linkMaps = s.linkMaps := rfl
@[simp] theorem raise_legs (s : State) (a b c d : Nat) (l : List Nat) : (s.raise a b c d l).legs = s.legs := rfl
@[simp] theorem raise_xruns (s : State) (a b c d : Nat) (l : List Nat) : (s.raise a b c d l).xruns = s.xruns := rfl
@[simp] theorem raise_laneCw (s : State) (a b c d : Nat) (l : List Nat) : (s.raise a b c d l).laneCw = s.laneCw := rfl
@[simp] theorem raise_mislocked (s : State) (a b c d : Nat) (l : List Nat) : (s.raise a b c d l).mislocked = s.mislocked := rfl
@[simp] theorem raise_trials (s : State) (a b c d : Nat) (l : List Nat) : (s.raise a b c d l).trials = s.trials := rfl
@[simp] theorem raise_segRx (s : State) (a b c d : Nat) (l : List Nat) : (s.raise a b c d l).segRx = s.segRx := rfl
@[simp] theorem raise_stallNow (s : State) (a b c d : Nat) (l : List Nat) : (s.raise a b c d l).stallNow = s.stallNow := rfl
@[simp] theorem raise_extNow (s : State) (a b c d : Nat) (l : List Nat) : (s.raise a b c d l).extNow = s.extNow := rfl
@[simp] theorem raise_runs (s : State) (a b c d : Nat) (l : List Nat) : (s.raise a b c d l).runs = s.runs := rfl
@[simp] theorem raise_repairs (s : State) (a b c d : Nat) (l : List Nat) : (s.raise a b c d l).repairs = s.repairs := rfl
@[simp] theorem raise_causes (s : State) (a b c d : Nat) (l : List Nat) : (s.raise a b c d l).causes = s.causes := rfl
@[simp] theorem raise_spareUse (s : State) (a b c d : Nat) (l : List Nat) : (s.raise a b c d l).spareUse = s.spareUse := rfl
@[simp] theorem raise_laneCnt (s : State) (a b c d : Nat) (l : List Nat) : (s.raise a b c d l).laneCnt = s.laneCnt := rfl
@[simp] theorem raise_laneReps (s : State) (a b c d : Nat) (l : List Nat) : (s.raise a b c d l).laneReps = s.laneReps := rfl
@[simp] theorem raise_sweeps (s : State) (a b c d : Nat) (l : List Nat) : (s.raise a b c d l).sweeps = s.sweeps := rfl
@[simp] theorem raise_bondDead (s : State) (a b c d : Nat) (l : List Nat) : (s.raise a b c d l).bondDead = s.bondDead := rfl
@[simp] theorem raise_bonds (s : State) (a b c d : Nat) (l : List Nat) : (s.raise a b c d l).bonds = s.bonds := rfl
@[simp] theorem raise_bondHot (s : State) (a b c d : Nat) (l : List Nat) : (s.raise a b c d l).bondHot = s.bondHot := rfl
@[simp] theorem raise_singles (s : State) (a b c d : Nat) (l : List Nat) : (s.raise a b c d l).singles = s.singles := rfl
@[simp] theorem raise_rejoins (s : State) (a b c d : Nat) (l : List Nat) : (s.raise a b c d l).rejoins = s.rejoins := rfl
@[simp] theorem raise_losses (s : State) (a b c d : Nat) (l : List Nat) : (s.raise a b c d l).losses = s.losses := rfl
@[simp] theorem raise_keeperOut (s : State) (a b c d : Nat) (l : List Nat) : (s.raise a b c d l).keeperOut = s.keeperOut := rfl
@[simp] theorem raise_therms (s : State) (a b c d : Nat) (l : List Nat) : (s.raise a b c d l).therms = s.therms := rfl
@[simp] theorem raise_supply (s : State) (a b c d : Nat) (l : List Nat) : (s.raise a b c d l).supply = s.supply := rfl
@[simp] theorem raise_convDown (s : State) (a b c d : Nat) (l : List Nat) : (s.raise a b c d l).convDown = s.convDown := rfl
@[simp] theorem raise_tempOff (s : State) (a b c d : Nat) (l : List Nat) : (s.raise a b c d l).tempOff = s.tempOff := rfl
@[simp] theorem raise_shoalFixes (s : State) (a b c d : Nat) (l : List Nat) : (s.raise a b c d l).shoalFixes = s.shoalFixes := rfl
@[simp] theorem raise_trained (s : State) (a b c d : Nat) (l : List Nat) : (s.raise a b c d l).trained = s.trained := rfl
@[simp] theorem raise_capNow (s : State) (a b c d : Nat) (l : List Nat) : (s.raise a b c d l).capNow = s.capNow := rfl
@[simp] theorem raise_wakeAt (s : State) (a b c d : Nat) (l : List Nat) : (s.raise a b c d l).wakeAt = s.wakeAt := rfl
@[simp] theorem raise_softStop (s : State) (a b c d : Nat) (l : List Nat) : (s.raise a b c d l).softStop = s.softStop := rfl
@[simp] theorem raise_laps (s : State) (a b c d : Nat) (l : List Nat) : (s.raise a b c d l).laps = s.laps := rfl
@[simp] theorem raise_hbmPeak (s : State) (a b c d : Nat) (l : List Nat) : (s.raise a b c d l).hbmPeak = s.hbmPeak := rfl
@[simp] theorem raise_dch (s : State) (a b c d : Nat) (l : List Nat) : (s.raise a b c d l).dch = s.dch := rfl
@[simp] theorem raise_dmaLen (s : State) (a b c d : Nat) (l : List Nat) : (s.raise a b c d l).dmaLen = s.dmaLen := rfl
@[simp] theorem raise_kvs (s : State) (a b c d : Nat) (l : List Nat) : (s.raise a b c d l).kvs = s.kvs := rfl
@[simp] theorem raise_flash (s : State) (a b c d : Nat) (l : List Nat) : (s.raise a b c d l).flash = s.flash := rfl
@[simp] theorem raise_storing (s : State) (a b c d : Nat) (l : List Nat) : (s.raise a b c d l).storing = s.storing := rfl
@[simp] theorem raise_resetHeld (s : State) (a b c d : Nat) (l : List Nat) : (s.raise a b c d l).resetHeld = s.resetHeld := rfl
@[simp] theorem raise_storeTried (s : State) (a b c d : Nat) (l : List Nat) : (s.raise a b c d l).storeTried = s.storeTried := rfl
@[simp] theorem raise_start (s : State) (a b c d : Nat) (l : List Nat) : (s.raise a b c d l).start = s.start := rfl
@[simp] theorem raise_leftOut (s : State) (a b c d : Nat) (l : List Nat) : (s.raise a b c d l).leftOut = s.leftOut := rfl
@[simp] theorem raise_upd (s : State) (a b c d : Nat) (l : List Nat) : (s.raise a b c d l).upd = s.upd := rfl
@[simp] theorem raise_modRing (s : State) (a b c d : Nat) (l : List Nat) : (s.raise a b c d l).modRing = s.modRing := rfl
@[simp] theorem raise_tnRings (s : State) (a b c d : Nat) (l : List Nat) : (s.raise a b c d l).tnRings = s.tnRings := rfl
@[simp] theorem raise_evLast (s : State) (a b c d : Nat) (l : List Nat) : (s.raise a b c d l).evLast = s.evLast := rfl
@[simp] theorem raise_ibiPending (s : State) (a b c d : Nat) (l : List Nat) : (s.raise a b c d l).ibiPending = s.ibiPending := rfl
@[simp] theorem raise_alertN (s : State) (a b c d : Nat) (l : List Nat) : (s.raise a b c d l).alertN = s.alertN := rfl
@[simp] theorem raise_mgmtAddr (s : State) (a b c d : Nat) (l : List Nat) : (s.raise a b c d l).mgmtAddr = s.mgmtAddr := rfl
@[simp] theorem raise_availWas (s : State) (a b c d : Nat) (l : List Nat) : (s.raise a b c d l).availWas = s.availWas := rfl
@[simp] theorem raise_linksWas (s : State) (a b c d : Nat) (l : List Nat) : (s.raise a b c d l).linksWas = s.linksWas := rfl
@[simp] theorem raise_downNext (s : State) (a b c d : Nat) (l : List Nat) : (s.raise a b c d l).downNext = s.downNext := rfl
@[simp] theorem raise_coreMoved (s : State) (a b c d : Nat) (l : List Nat) : (s.raise a b c d l).coreMoved = s.coreMoved := rfl
@[simp] theorem raise_ringTrim (s : State) (a b c d : Nat) (l : List Nat) : (s.raise a b c d l).ringTrim = s.ringTrim := rfl
@[simp] theorem raise_mzTrim (s : State) (a b c d : Nat) (l : List Nat) : (s.raise a b c d l).mzTrim = s.mzTrim := rfl
@[simp] theorem raise_mzPend (s : State) (a b c d : Nat) (l : List Nat) : (s.raise a b c d l).mzPend = s.mzPend := rfl
@[simp] theorem raise_clamped (s : State) (a b c d : Nat) (l : List Nat) : (s.raise a b c d l).clamped = s.clamped := rfl
@[simp] theorem raise_selNew (s : State) (a b c d : Nat) (l : List Nat) : (s.raise a b c d l).selNew = s.selNew := rfl
@[simp] theorem raise_storedAt (s : State) (a b c d : Nat) (l : List Nat) : (s.raise a b c d l).storedAt = s.storedAt := rfl
@[simp] theorem raise_testMode (s : State) (a b c d : Nat) (l : List Nat) : (s.raise a b c d l).testMode = s.testMode := rfl
@[simp] theorem raise_images (s : State) (a b c d : Nat) (l : List Nat) : (s.raise a b c d l).images = s.images := rfl
@[simp] theorem raise_progAt (s : State) (a b c d : Nat) (l : List Nat) : (s.raise a b c d l).progAt = s.progAt := rfl
@[simp] theorem raise_dmaAt (s : State) (a b c d : Nat) (l : List Nat) : (s.raise a b c d l).dmaAt = s.dmaAt := rfl
@[simp] theorem raise_recs (s : State) (a b c d : Nat) (l : List Nat) : (s.raise a b c d l).recs = s.recs := rfl
@[simp] theorem raise_caps (s : State) (a b c d : Nat) (l : List Nat) : (s.raise a b c d l).caps = s.caps := rfl
@[simp] theorem raise_ckBanks (s : State) (a b c d : Nat) (l : List Nat) : (s.raise a b c d l).ckBanks = s.ckBanks := rfl
@[simp] theorem raise_zeroing (s : State) (a b c d : Nat) (l : List Nat) : (s.raise a b c d l).zeroing = s.zeroing := rfl
@[simp] theorem raise_filling (s : State) (a b c d : Nat) (l : List Nat) : (s.raise a b c d l).filling = s.filling := rfl
@[simp] theorem raise_latch (s : State) (a b c d : Nat) (l : List Nat) : (s.raise a b c d l).latch = s.latch := rfl

@[simp] theorem setByte_pending (s : State) (a : Nat) (b : Byte) : (s.setByte a b).pending = s.pending := rfl
@[simp] theorem setByte_out (s : State) (a : Nat) (b : Byte) : (s.setByte a b).out = s.out := rfl
@[simp] theorem setByte_arisen (s : State) (a : Nat) (b : Byte) : (s.setByte a b).arisen = s.arisen := rfl
@[simp] theorem setByte_freeCtr (s : State) (a : Nat) (b : Byte) : (s.setByte a b).freeCtr = s.freeCtr := rfl
@[simp] theorem setByte_now (s : State) (a : Nat) (b : Byte) : (s.setByte a b).now = s.now := rfl
@[simp] theorem setByte_regs (s : State) (a : Nat) (b : Byte) : (s.setByte a b).regs = s.regs := rfl
@[simp] theorem setByte_poison (s : State) (a : Nat) (b : Byte) : (s.setByte a b).poison = s.poison := rfl
@[simp] theorem setByte_damage (s : State) (a : Nat) (b : Byte) : (s.setByte a b).damage = s.damage := rfl
@[simp] theorem setByte_flips (s : State) (a : Nat) (b : Byte) : (s.setByte a b).flips = s.flips := rfl
@[simp] theorem setByte_msc (s : State) (a : Nat) (b : Byte) : (s.setByte a b).msc = s.msc := rfl
@[simp] theorem setByte_mscTree (s : State) (a : Nat) (b : Byte) : (s.setByte a b).mscTree = s.mscTree := rfl
@[simp] theorem setByte_elog (s : State) (a : Nat) (b : Byte) : (s.setByte a b).elog = s.elog := rfl
@[simp] theorem setByte_elogOvf (s : State) (a : Nat) (b : Byte) : (s.setByte a b).elogOvf = s.elogOvf := rfl
@[simp] theorem setByte_retPages (s : State) (a : Nat) (b : Byte) : (s.setByte a b).retPages = s.retPages := rfl
@[simp] theorem setByte_retBanks (s : State) (a : Nat) (b : Byte) : (s.setByte a b).retBanks = s.retBanks := rfl
@[simp] theorem setByte_cores (s : State) (a : Nat) (b : Byte) : (s.setByte a b).cores = s.cores := rfl
@[simp] theorem setByte_arrays (s : State) (a : Nat) (b : Byte) : (s.setByte a b).arrays = s.arrays := rfl
@[simp] theorem setByte_vcores (s : State) (a : Nat) (b : Byte) : (s.setByte a b).vcores = s.vcores := rfl
@[simp] theorem setByte_meshes (s : State) (a : Nat) (b : Byte) : (s.setByte a b).meshes = s.meshes := rfl
@[simp] theorem setByte_rings (s : State) (a : Nat) (b : Byte) : (s.setByte a b).rings = s.rings := rfl
@[simp] theorem setByte_bounds (s : State) (a : Nat) (b : Byte) : (s.setByte a b).bounds = s.bounds := rfl
@[simp] theorem setByte_mgmtQ (s : State) (a : Nat) (b : Byte) : (s.setByte a b).mgmtQ = s.mgmtQ := rfl
@[simp] theorem setByte_mgmtSeq (s : State) (a : Nat) (b : Byte) : (s.setByte a b).mgmtSeq = s.mgmtSeq := rfl
@[simp] theorem setByte_mgmtCnt (s : State) (a : Nat) (b : Byte) : (s.setByte a b).mgmtCnt = s.mgmtCnt := rfl
@[simp] theorem setByte_msixOn (s : State) (a : Nat) (b : Byte) : (s.setByte a b).msixOn = s.msixOn := rfl
@[simp] theorem setByte_msixTbl (s : State) (a : Nat) (b : Byte) : (s.setByte a b).msixTbl = s.msixTbl := rfl
@[simp] theorem setByte_msixPba (s : State) (a : Nat) (b : Byte) : (s.setByte a b).msixPba = s.msixPba := rfl
@[simp] theorem setByte_msixSent (s : State) (a : Nat) (b : Byte) : (s.setByte a b).msixSent = s.msixSent := rfl
@[simp] theorem setByte_msixNext (s : State) (a : Nat) (b : Byte) : (s.setByte a b).msixNext = s.msixNext := rfl
@[simp] theorem setByte_pcie (s : State) (a : Nat) (b : Byte) : (s.setByte a b).pcie = s.pcie := rfl
@[simp] theorem setByte_fwin (s : State) (a : Nat) (b : Byte) : (s.setByte a b).fwin = s.fwin := rfl
@[simp] theorem setByte_tiles (s : State) (a : Nat) (b : Byte) : (s.setByte a b).tiles = s.tiles := rfl
@[simp] theorem setByte_arbiters (s : State) (a : Nat) (b : Byte) : (s.setByte a b).arbiters = s.arbiters := rfl
@[simp] theorem setByte_wires (s : State) (a : Nat) (b : Byte) : (s.setByte a b).wires = s.wires := rfl
@[simp] theorem setByte_fyLanes (s : State) (a : Nat) (b : Byte) : (s.setByte a b).fyLanes = s.fyLanes := rfl
@[simp] theorem setByte_lambdas (s : State) (a : Nat) (b : Byte) : (s.setByte a b).lambdas = s.lambdas := rfl
@[simp] theorem setByte_crossing (s : State) (a : Nat) (b : Byte) : (s.setByte a b).crossing = s.crossing := rfl
@[simp] theorem setByte_lks (s : State) (a : Nat) (b : Byte) : (s.setByte a b).lks = s.lks := rfl
@[simp] theorem setByte_freqs (s : State) (a : Nat) (b : Byte) : (s.setByte a b).freqs = s.freqs := rfl
@[simp] theorem setByte_sctxs (s : State) (a : Nat) (b : Byte) : (s.setByte a b).sctxs = s.sctxs := rfl
@[simp] theorem setByte_eseqs (s : State) (a : Nat) (b : Byte) : (s.setByte a b).eseqs = s.eseqs := rfl
@[simp] theorem setByte_dctxs (s : State) (a : Nat) (b : Byte) : (s.setByte a b).dctxs = s.dctxs := rfl
@[simp] theorem setByte_rcache (s : State) (a : Nat) (b : Byte) : (s.setByte a b).rcache = s.rcache := rfl
@[simp] theorem setByte_swins (s : State) (a : Nat) (b : Byte) : (s.setByte a b).swins = s.swins := rfl
@[simp] theorem setByte_rtCache (s : State) (a : Nat) (b : Byte) : (s.setByte a b).rtCache = s.rtCache := rfl
@[simp] theorem setByte_htSwitchAt (s : State) (a : Nat) (b : Byte) : (s.setByte a b).htSwitchAt = s.htSwitchAt := rfl
@[simp] theorem setByte_mbox (s : State) (a : Nat) (b : Byte) : (s.setByte a b).mbox = s.mbox := rfl
@[simp] theorem setByte_lostPkts (s : State) (a : Nat) (b : Byte) : (s.setByte a b).lostPkts = s.lostPkts := rfl
@[simp] theorem setByte_plans (s : State) (a : Nat) (b : Byte) : (s.setByte a b).plans = s.plans := rfl
@[simp] theorem setByte_sums (s : State) (a : Nat) (b : Byte) : (s.setByte a b).sums = s.sums := rfl
@[simp] theorem setByte_linkMaps (s : State) (a : Nat) (b : Byte) : (s.setByte a b).linkMaps = s.linkMaps := rfl
@[simp] theorem setByte_legs (s : State) (a : Nat) (b : Byte) : (s.setByte a b).legs = s.legs := rfl
@[simp] theorem setByte_xruns (s : State) (a : Nat) (b : Byte) : (s.setByte a b).xruns = s.xruns := rfl
@[simp] theorem setByte_laneCw (s : State) (a : Nat) (b : Byte) : (s.setByte a b).laneCw = s.laneCw := rfl
@[simp] theorem setByte_mislocked (s : State) (a : Nat) (b : Byte) : (s.setByte a b).mislocked = s.mislocked := rfl
@[simp] theorem setByte_trials (s : State) (a : Nat) (b : Byte) : (s.setByte a b).trials = s.trials := rfl
@[simp] theorem setByte_segRx (s : State) (a : Nat) (b : Byte) : (s.setByte a b).segRx = s.segRx := rfl
@[simp] theorem setByte_stallNow (s : State) (a : Nat) (b : Byte) : (s.setByte a b).stallNow = s.stallNow := rfl
@[simp] theorem setByte_extNow (s : State) (a : Nat) (b : Byte) : (s.setByte a b).extNow = s.extNow := rfl
@[simp] theorem setByte_runs (s : State) (a : Nat) (b : Byte) : (s.setByte a b).runs = s.runs := rfl
@[simp] theorem setByte_repairs (s : State) (a : Nat) (b : Byte) : (s.setByte a b).repairs = s.repairs := rfl
@[simp] theorem setByte_causes (s : State) (a : Nat) (b : Byte) : (s.setByte a b).causes = s.causes := rfl
@[simp] theorem setByte_spareUse (s : State) (a : Nat) (b : Byte) : (s.setByte a b).spareUse = s.spareUse := rfl
@[simp] theorem setByte_laneCnt (s : State) (a : Nat) (b : Byte) : (s.setByte a b).laneCnt = s.laneCnt := rfl
@[simp] theorem setByte_laneReps (s : State) (a : Nat) (b : Byte) : (s.setByte a b).laneReps = s.laneReps := rfl
@[simp] theorem setByte_sweeps (s : State) (a : Nat) (b : Byte) : (s.setByte a b).sweeps = s.sweeps := rfl
@[simp] theorem setByte_bondDead (s : State) (a : Nat) (b : Byte) : (s.setByte a b).bondDead = s.bondDead := rfl
@[simp] theorem setByte_bonds (s : State) (a : Nat) (b : Byte) : (s.setByte a b).bonds = s.bonds := rfl
@[simp] theorem setByte_bondHot (s : State) (a : Nat) (b : Byte) : (s.setByte a b).bondHot = s.bondHot := rfl
@[simp] theorem setByte_singles (s : State) (a : Nat) (b : Byte) : (s.setByte a b).singles = s.singles := rfl
@[simp] theorem setByte_rejoins (s : State) (a : Nat) (b : Byte) : (s.setByte a b).rejoins = s.rejoins := rfl
@[simp] theorem setByte_losses (s : State) (a : Nat) (b : Byte) : (s.setByte a b).losses = s.losses := rfl
@[simp] theorem setByte_keeperOut (s : State) (a : Nat) (b : Byte) : (s.setByte a b).keeperOut = s.keeperOut := rfl
@[simp] theorem setByte_therms (s : State) (a : Nat) (b : Byte) : (s.setByte a b).therms = s.therms := rfl
@[simp] theorem setByte_supply (s : State) (a : Nat) (b : Byte) : (s.setByte a b).supply = s.supply := rfl
@[simp] theorem setByte_convDown (s : State) (a : Nat) (b : Byte) : (s.setByte a b).convDown = s.convDown := rfl
@[simp] theorem setByte_tempOff (s : State) (a : Nat) (b : Byte) : (s.setByte a b).tempOff = s.tempOff := rfl
@[simp] theorem setByte_shoalFixes (s : State) (a : Nat) (b : Byte) : (s.setByte a b).shoalFixes = s.shoalFixes := rfl
@[simp] theorem setByte_trained (s : State) (a : Nat) (b : Byte) : (s.setByte a b).trained = s.trained := rfl
@[simp] theorem setByte_capNow (s : State) (a : Nat) (b : Byte) : (s.setByte a b).capNow = s.capNow := rfl
@[simp] theorem setByte_wakeAt (s : State) (a : Nat) (b : Byte) : (s.setByte a b).wakeAt = s.wakeAt := rfl
@[simp] theorem setByte_softStop (s : State) (a : Nat) (b : Byte) : (s.setByte a b).softStop = s.softStop := rfl
@[simp] theorem setByte_laps (s : State) (a : Nat) (b : Byte) : (s.setByte a b).laps = s.laps := rfl
@[simp] theorem setByte_hbmPeak (s : State) (a : Nat) (b : Byte) : (s.setByte a b).hbmPeak = s.hbmPeak := rfl
@[simp] theorem setByte_dch (s : State) (a : Nat) (b : Byte) : (s.setByte a b).dch = s.dch := rfl
@[simp] theorem setByte_dmaLen (s : State) (a : Nat) (b : Byte) : (s.setByte a b).dmaLen = s.dmaLen := rfl
@[simp] theorem setByte_kvs (s : State) (a : Nat) (b : Byte) : (s.setByte a b).kvs = s.kvs := rfl
@[simp] theorem setByte_flash (s : State) (a : Nat) (b : Byte) : (s.setByte a b).flash = s.flash := rfl
@[simp] theorem setByte_storing (s : State) (a : Nat) (b : Byte) : (s.setByte a b).storing = s.storing := rfl
@[simp] theorem setByte_resetHeld (s : State) (a : Nat) (b : Byte) : (s.setByte a b).resetHeld = s.resetHeld := rfl
@[simp] theorem setByte_storeTried (s : State) (a : Nat) (b : Byte) : (s.setByte a b).storeTried = s.storeTried := rfl
@[simp] theorem setByte_start (s : State) (a : Nat) (b : Byte) : (s.setByte a b).start = s.start := rfl
@[simp] theorem setByte_leftOut (s : State) (a : Nat) (b : Byte) : (s.setByte a b).leftOut = s.leftOut := rfl
@[simp] theorem setByte_upd (s : State) (a : Nat) (b : Byte) : (s.setByte a b).upd = s.upd := rfl
@[simp] theorem setByte_modRing (s : State) (a : Nat) (b : Byte) : (s.setByte a b).modRing = s.modRing := rfl
@[simp] theorem setByte_tnRings (s : State) (a : Nat) (b : Byte) : (s.setByte a b).tnRings = s.tnRings := rfl
@[simp] theorem setByte_evLast (s : State) (a : Nat) (b : Byte) : (s.setByte a b).evLast = s.evLast := rfl
@[simp] theorem setByte_ibiPending (s : State) (a : Nat) (b : Byte) : (s.setByte a b).ibiPending = s.ibiPending := rfl
@[simp] theorem setByte_alertN (s : State) (a : Nat) (b : Byte) : (s.setByte a b).alertN = s.alertN := rfl
@[simp] theorem setByte_mgmtAddr (s : State) (a : Nat) (b : Byte) : (s.setByte a b).mgmtAddr = s.mgmtAddr := rfl
@[simp] theorem setByte_availWas (s : State) (a : Nat) (b : Byte) : (s.setByte a b).availWas = s.availWas := rfl
@[simp] theorem setByte_linksWas (s : State) (a : Nat) (b : Byte) : (s.setByte a b).linksWas = s.linksWas := rfl
@[simp] theorem setByte_downNext (s : State) (a : Nat) (b : Byte) : (s.setByte a b).downNext = s.downNext := rfl
@[simp] theorem setByte_coreMoved (s : State) (a : Nat) (b : Byte) : (s.setByte a b).coreMoved = s.coreMoved := rfl
@[simp] theorem setByte_ringTrim (s : State) (a : Nat) (b : Byte) : (s.setByte a b).ringTrim = s.ringTrim := rfl
@[simp] theorem setByte_mzTrim (s : State) (a : Nat) (b : Byte) : (s.setByte a b).mzTrim = s.mzTrim := rfl
@[simp] theorem setByte_mzPend (s : State) (a : Nat) (b : Byte) : (s.setByte a b).mzPend = s.mzPend := rfl
@[simp] theorem setByte_clamped (s : State) (a : Nat) (b : Byte) : (s.setByte a b).clamped = s.clamped := rfl
@[simp] theorem setByte_selNew (s : State) (a : Nat) (b : Byte) : (s.setByte a b).selNew = s.selNew := rfl
@[simp] theorem setByte_storedAt (s : State) (a : Nat) (b : Byte) : (s.setByte a b).storedAt = s.storedAt := rfl
@[simp] theorem setByte_testMode (s : State) (a : Nat) (b : Byte) : (s.setByte a b).testMode = s.testMode := rfl
@[simp] theorem setByte_images (s : State) (a : Nat) (b : Byte) : (s.setByte a b).images = s.images := rfl
@[simp] theorem setByte_progAt (s : State) (a : Nat) (b : Byte) : (s.setByte a b).progAt = s.progAt := rfl
@[simp] theorem setByte_dmaAt (s : State) (a : Nat) (b : Byte) : (s.setByte a b).dmaAt = s.dmaAt := rfl
@[simp] theorem setByte_recs (s : State) (a : Nat) (b : Byte) : (s.setByte a b).recs = s.recs := rfl
@[simp] theorem setByte_caps (s : State) (a : Nat) (b : Byte) : (s.setByte a b).caps = s.caps := rfl
@[simp] theorem setByte_ckBanks (s : State) (a : Nat) (b : Byte) : (s.setByte a b).ckBanks = s.ckBanks := rfl
@[simp] theorem setByte_zeroing (s : State) (a : Nat) (b : Byte) : (s.setByte a b).zeroing = s.zeroing := rfl
@[simp] theorem setByte_filling (s : State) (a : Nat) (b : Byte) : (s.setByte a b).filling = s.filling := rfl
@[simp] theorem setByte_latch (s : State) (a : Nat) (b : Byte) : (s.setByte a b).latch = s.latch := rfl

@[simp] theorem unflip_pending (s : State) (p : FlipAt) : (s.unflip p).pending = s.pending := rfl
@[simp] theorem unflip_out (s : State) (p : FlipAt) : (s.unflip p).out = s.out := rfl
@[simp] theorem unflip_arisen (s : State) (p : FlipAt) : (s.unflip p).arisen = s.arisen := rfl
@[simp] theorem unflip_freeCtr (s : State) (p : FlipAt) : (s.unflip p).freeCtr = s.freeCtr := rfl
@[simp] theorem unflip_now (s : State) (p : FlipAt) : (s.unflip p).now = s.now := rfl
@[simp] theorem unflip_regs (s : State) (p : FlipAt) : (s.unflip p).regs = s.regs := rfl
@[simp] theorem unflip_mem (s : State) (p : FlipAt) : (s.unflip p).mem = s.mem := rfl
@[simp] theorem unflip_poison (s : State) (p : FlipAt) : (s.unflip p).poison = s.poison := rfl
@[simp] theorem unflip_damage (s : State) (p : FlipAt) : (s.unflip p).damage = s.damage := rfl
@[simp] theorem unflip_msc (s : State) (p : FlipAt) : (s.unflip p).msc = s.msc := rfl
@[simp] theorem unflip_mscTree (s : State) (p : FlipAt) : (s.unflip p).mscTree = s.mscTree := rfl
@[simp] theorem unflip_elog (s : State) (p : FlipAt) : (s.unflip p).elog = s.elog := rfl
@[simp] theorem unflip_elogOvf (s : State) (p : FlipAt) : (s.unflip p).elogOvf = s.elogOvf := rfl
@[simp] theorem unflip_retPages (s : State) (p : FlipAt) : (s.unflip p).retPages = s.retPages := rfl
@[simp] theorem unflip_retBanks (s : State) (p : FlipAt) : (s.unflip p).retBanks = s.retBanks := rfl
@[simp] theorem unflip_cores (s : State) (p : FlipAt) : (s.unflip p).cores = s.cores := rfl
@[simp] theorem unflip_arrays (s : State) (p : FlipAt) : (s.unflip p).arrays = s.arrays := rfl
@[simp] theorem unflip_vcores (s : State) (p : FlipAt) : (s.unflip p).vcores = s.vcores := rfl
@[simp] theorem unflip_meshes (s : State) (p : FlipAt) : (s.unflip p).meshes = s.meshes := rfl
@[simp] theorem unflip_rings (s : State) (p : FlipAt) : (s.unflip p).rings = s.rings := rfl
@[simp] theorem unflip_bounds (s : State) (p : FlipAt) : (s.unflip p).bounds = s.bounds := rfl
@[simp] theorem unflip_mgmtQ (s : State) (p : FlipAt) : (s.unflip p).mgmtQ = s.mgmtQ := rfl
@[simp] theorem unflip_mgmtSeq (s : State) (p : FlipAt) : (s.unflip p).mgmtSeq = s.mgmtSeq := rfl
@[simp] theorem unflip_mgmtCnt (s : State) (p : FlipAt) : (s.unflip p).mgmtCnt = s.mgmtCnt := rfl
@[simp] theorem unflip_msixOn (s : State) (p : FlipAt) : (s.unflip p).msixOn = s.msixOn := rfl
@[simp] theorem unflip_msixTbl (s : State) (p : FlipAt) : (s.unflip p).msixTbl = s.msixTbl := rfl
@[simp] theorem unflip_msixPba (s : State) (p : FlipAt) : (s.unflip p).msixPba = s.msixPba := rfl
@[simp] theorem unflip_msixSent (s : State) (p : FlipAt) : (s.unflip p).msixSent = s.msixSent := rfl
@[simp] theorem unflip_msixNext (s : State) (p : FlipAt) : (s.unflip p).msixNext = s.msixNext := rfl
@[simp] theorem unflip_pcie (s : State) (p : FlipAt) : (s.unflip p).pcie = s.pcie := rfl
@[simp] theorem unflip_fwin (s : State) (p : FlipAt) : (s.unflip p).fwin = s.fwin := rfl
@[simp] theorem unflip_tiles (s : State) (p : FlipAt) : (s.unflip p).tiles = s.tiles := rfl
@[simp] theorem unflip_arbiters (s : State) (p : FlipAt) : (s.unflip p).arbiters = s.arbiters := rfl
@[simp] theorem unflip_wires (s : State) (p : FlipAt) : (s.unflip p).wires = s.wires := rfl
@[simp] theorem unflip_fyLanes (s : State) (p : FlipAt) : (s.unflip p).fyLanes = s.fyLanes := rfl
@[simp] theorem unflip_lambdas (s : State) (p : FlipAt) : (s.unflip p).lambdas = s.lambdas := rfl
@[simp] theorem unflip_crossing (s : State) (p : FlipAt) : (s.unflip p).crossing = s.crossing := rfl
@[simp] theorem unflip_lks (s : State) (p : FlipAt) : (s.unflip p).lks = s.lks := rfl
@[simp] theorem unflip_freqs (s : State) (p : FlipAt) : (s.unflip p).freqs = s.freqs := rfl
@[simp] theorem unflip_sctxs (s : State) (p : FlipAt) : (s.unflip p).sctxs = s.sctxs := rfl
@[simp] theorem unflip_eseqs (s : State) (p : FlipAt) : (s.unflip p).eseqs = s.eseqs := rfl
@[simp] theorem unflip_dctxs (s : State) (p : FlipAt) : (s.unflip p).dctxs = s.dctxs := rfl
@[simp] theorem unflip_rcache (s : State) (p : FlipAt) : (s.unflip p).rcache = s.rcache := rfl
@[simp] theorem unflip_swins (s : State) (p : FlipAt) : (s.unflip p).swins = s.swins := rfl
@[simp] theorem unflip_rtCache (s : State) (p : FlipAt) : (s.unflip p).rtCache = s.rtCache := rfl
@[simp] theorem unflip_htSwitchAt (s : State) (p : FlipAt) : (s.unflip p).htSwitchAt = s.htSwitchAt := rfl
@[simp] theorem unflip_mbox (s : State) (p : FlipAt) : (s.unflip p).mbox = s.mbox := rfl
@[simp] theorem unflip_lostPkts (s : State) (p : FlipAt) : (s.unflip p).lostPkts = s.lostPkts := rfl
@[simp] theorem unflip_plans (s : State) (p : FlipAt) : (s.unflip p).plans = s.plans := rfl
@[simp] theorem unflip_sums (s : State) (p : FlipAt) : (s.unflip p).sums = s.sums := rfl
@[simp] theorem unflip_linkMaps (s : State) (p : FlipAt) : (s.unflip p).linkMaps = s.linkMaps := rfl
@[simp] theorem unflip_legs (s : State) (p : FlipAt) : (s.unflip p).legs = s.legs := rfl
@[simp] theorem unflip_xruns (s : State) (p : FlipAt) : (s.unflip p).xruns = s.xruns := rfl
@[simp] theorem unflip_laneCw (s : State) (p : FlipAt) : (s.unflip p).laneCw = s.laneCw := rfl
@[simp] theorem unflip_mislocked (s : State) (p : FlipAt) : (s.unflip p).mislocked = s.mislocked := rfl
@[simp] theorem unflip_trials (s : State) (p : FlipAt) : (s.unflip p).trials = s.trials := rfl
@[simp] theorem unflip_segRx (s : State) (p : FlipAt) : (s.unflip p).segRx = s.segRx := rfl
@[simp] theorem unflip_stallNow (s : State) (p : FlipAt) : (s.unflip p).stallNow = s.stallNow := rfl
@[simp] theorem unflip_extNow (s : State) (p : FlipAt) : (s.unflip p).extNow = s.extNow := rfl
@[simp] theorem unflip_runs (s : State) (p : FlipAt) : (s.unflip p).runs = s.runs := rfl
@[simp] theorem unflip_repairs (s : State) (p : FlipAt) : (s.unflip p).repairs = s.repairs := rfl
@[simp] theorem unflip_causes (s : State) (p : FlipAt) : (s.unflip p).causes = s.causes := rfl
@[simp] theorem unflip_spareUse (s : State) (p : FlipAt) : (s.unflip p).spareUse = s.spareUse := rfl
@[simp] theorem unflip_laneCnt (s : State) (p : FlipAt) : (s.unflip p).laneCnt = s.laneCnt := rfl
@[simp] theorem unflip_laneReps (s : State) (p : FlipAt) : (s.unflip p).laneReps = s.laneReps := rfl
@[simp] theorem unflip_sweeps (s : State) (p : FlipAt) : (s.unflip p).sweeps = s.sweeps := rfl
@[simp] theorem unflip_bondDead (s : State) (p : FlipAt) : (s.unflip p).bondDead = s.bondDead := rfl
@[simp] theorem unflip_bonds (s : State) (p : FlipAt) : (s.unflip p).bonds = s.bonds := rfl
@[simp] theorem unflip_bondHot (s : State) (p : FlipAt) : (s.unflip p).bondHot = s.bondHot := rfl
@[simp] theorem unflip_singles (s : State) (p : FlipAt) : (s.unflip p).singles = s.singles := rfl
@[simp] theorem unflip_rejoins (s : State) (p : FlipAt) : (s.unflip p).rejoins = s.rejoins := rfl
@[simp] theorem unflip_losses (s : State) (p : FlipAt) : (s.unflip p).losses = s.losses := rfl
@[simp] theorem unflip_keeperOut (s : State) (p : FlipAt) : (s.unflip p).keeperOut = s.keeperOut := rfl
@[simp] theorem unflip_therms (s : State) (p : FlipAt) : (s.unflip p).therms = s.therms := rfl
@[simp] theorem unflip_supply (s : State) (p : FlipAt) : (s.unflip p).supply = s.supply := rfl
@[simp] theorem unflip_convDown (s : State) (p : FlipAt) : (s.unflip p).convDown = s.convDown := rfl
@[simp] theorem unflip_tempOff (s : State) (p : FlipAt) : (s.unflip p).tempOff = s.tempOff := rfl
@[simp] theorem unflip_shoalFixes (s : State) (p : FlipAt) : (s.unflip p).shoalFixes = s.shoalFixes := rfl
@[simp] theorem unflip_trained (s : State) (p : FlipAt) : (s.unflip p).trained = s.trained := rfl
@[simp] theorem unflip_capNow (s : State) (p : FlipAt) : (s.unflip p).capNow = s.capNow := rfl
@[simp] theorem unflip_wakeAt (s : State) (p : FlipAt) : (s.unflip p).wakeAt = s.wakeAt := rfl
@[simp] theorem unflip_softStop (s : State) (p : FlipAt) : (s.unflip p).softStop = s.softStop := rfl
@[simp] theorem unflip_laps (s : State) (p : FlipAt) : (s.unflip p).laps = s.laps := rfl
@[simp] theorem unflip_hbmPeak (s : State) (p : FlipAt) : (s.unflip p).hbmPeak = s.hbmPeak := rfl
@[simp] theorem unflip_dch (s : State) (p : FlipAt) : (s.unflip p).dch = s.dch := rfl
@[simp] theorem unflip_dmaLen (s : State) (p : FlipAt) : (s.unflip p).dmaLen = s.dmaLen := rfl
@[simp] theorem unflip_kvs (s : State) (p : FlipAt) : (s.unflip p).kvs = s.kvs := rfl
@[simp] theorem unflip_flash (s : State) (p : FlipAt) : (s.unflip p).flash = s.flash := rfl
@[simp] theorem unflip_storing (s : State) (p : FlipAt) : (s.unflip p).storing = s.storing := rfl
@[simp] theorem unflip_resetHeld (s : State) (p : FlipAt) : (s.unflip p).resetHeld = s.resetHeld := rfl
@[simp] theorem unflip_storeTried (s : State) (p : FlipAt) : (s.unflip p).storeTried = s.storeTried := rfl
@[simp] theorem unflip_start (s : State) (p : FlipAt) : (s.unflip p).start = s.start := rfl
@[simp] theorem unflip_leftOut (s : State) (p : FlipAt) : (s.unflip p).leftOut = s.leftOut := rfl
@[simp] theorem unflip_upd (s : State) (p : FlipAt) : (s.unflip p).upd = s.upd := rfl
@[simp] theorem unflip_modRing (s : State) (p : FlipAt) : (s.unflip p).modRing = s.modRing := rfl
@[simp] theorem unflip_tnRings (s : State) (p : FlipAt) : (s.unflip p).tnRings = s.tnRings := rfl
@[simp] theorem unflip_evLast (s : State) (p : FlipAt) : (s.unflip p).evLast = s.evLast := rfl
@[simp] theorem unflip_ibiPending (s : State) (p : FlipAt) : (s.unflip p).ibiPending = s.ibiPending := rfl
@[simp] theorem unflip_alertN (s : State) (p : FlipAt) : (s.unflip p).alertN = s.alertN := rfl
@[simp] theorem unflip_mgmtAddr (s : State) (p : FlipAt) : (s.unflip p).mgmtAddr = s.mgmtAddr := rfl
@[simp] theorem unflip_availWas (s : State) (p : FlipAt) : (s.unflip p).availWas = s.availWas := rfl
@[simp] theorem unflip_linksWas (s : State) (p : FlipAt) : (s.unflip p).linksWas = s.linksWas := rfl
@[simp] theorem unflip_downNext (s : State) (p : FlipAt) : (s.unflip p).downNext = s.downNext := rfl
@[simp] theorem unflip_coreMoved (s : State) (p : FlipAt) : (s.unflip p).coreMoved = s.coreMoved := rfl
@[simp] theorem unflip_ringTrim (s : State) (p : FlipAt) : (s.unflip p).ringTrim = s.ringTrim := rfl
@[simp] theorem unflip_mzTrim (s : State) (p : FlipAt) : (s.unflip p).mzTrim = s.mzTrim := rfl
@[simp] theorem unflip_mzPend (s : State) (p : FlipAt) : (s.unflip p).mzPend = s.mzPend := rfl
@[simp] theorem unflip_clamped (s : State) (p : FlipAt) : (s.unflip p).clamped = s.clamped := rfl
@[simp] theorem unflip_selNew (s : State) (p : FlipAt) : (s.unflip p).selNew = s.selNew := rfl
@[simp] theorem unflip_storedAt (s : State) (p : FlipAt) : (s.unflip p).storedAt = s.storedAt := rfl
@[simp] theorem unflip_testMode (s : State) (p : FlipAt) : (s.unflip p).testMode = s.testMode := rfl
@[simp] theorem unflip_images (s : State) (p : FlipAt) : (s.unflip p).images = s.images := rfl
@[simp] theorem unflip_progAt (s : State) (p : FlipAt) : (s.unflip p).progAt = s.progAt := rfl
@[simp] theorem unflip_dmaAt (s : State) (p : FlipAt) : (s.unflip p).dmaAt = s.dmaAt := rfl
@[simp] theorem unflip_recs (s : State) (p : FlipAt) : (s.unflip p).recs = s.recs := rfl
@[simp] theorem unflip_caps (s : State) (p : FlipAt) : (s.unflip p).caps = s.caps := rfl
@[simp] theorem unflip_ckBanks (s : State) (p : FlipAt) : (s.unflip p).ckBanks = s.ckBanks := rfl
@[simp] theorem unflip_zeroing (s : State) (p : FlipAt) : (s.unflip p).zeroing = s.zeroing := rfl
@[simp] theorem unflip_filling (s : State) (p : FlipAt) : (s.unflip p).filling = s.filling := rfl
@[simp] theorem unflip_latch (s : State) (p : FlipAt) : (s.unflip p).latch = s.latch := rfl

end Sys2Proof.Laws
end

