-- ==== Sys2Proof/Laws/Trap.lean ====
section
/-!
SUPPORT. Taking a trap, and writing an f register or a control word: what stands afterwards.
-/
namespace Sys2Proof.Laws

open Sys2Proof Sys2Proof.Machine

theorem cwGet_cwSet_self (x : Core) (n : Nat) (v : Word) :
    (x.cwSet n v).cwGet n = BitVec.ofNat 64 (v.toNat % 2 ^ cwWidth n) := get_set_self _ _ _ _
theorem cwGet_cwSet_ne (x : Core) {n k : Nat} (v : Word) (h : k ≠ n) : (x.cwSet n v).cwGet k = x.cwGet k :=
  get_set_ne _ _ _ h
theorem cwGet_cwSet_word (x : Core) (n : Nat) (v : Word) (h : cwWidth n = 64) : (x.cwSet n v).cwGet n = v := by
  rw [cwGet_cwSet_self, h, Nat.mod_eq_of_lt v.isLt]; simp

/-- What a read or write of core `c`'s control words changes: those words, their marks and flips, the ECC counts, the flip
control (R110, R296). -/
def CwTouch (s t : State) (c : CoreId) : Prop :=
  t.core c = { s.core c with cw := (t.core c).cw, pcw := (t.core c).pcw } ∧ (∀ d, d ≠ c → t.core d = s.core d) ∧ t.mem = s.mem ∧
  ∀ f : Fld, f.lo < 64 → f.off ≠ (IS_SC_ECC_CORRECTED c.isl c.sc).off → f.off ≠ (IS_FLIP_CTL_ARM c.isl).off → t.fld f = s.fld f

theorem CwTouch.refl (s : State) (c : CoreId) : CwTouch s s c := ⟨rfl, fun _ _ => rfl, rfl, fun _ _ _ _ => rfl⟩
theorem CwTouch.trans {s t u : State} {c : CoreId} (h : CwTouch s t c) (k : CwTouch t u c) : CwTouch s u c := by
  obtain ⟨h1, h2, h3, h4⟩ := h
  obtain ⟨k1, k2, k3, k4⟩ := k
  exact ⟨by rw [k1, h1], fun d hd => (k2 d hd).trans (h2 d hd), k3.trans h3, fun f l a b => (k4 f l a b).trans (h4 f l a b)⟩

/-- Fields of different registers do not share a key. -/
theorem key_ne {f g : Fld} (h : f.off ≠ g.off) (hf : f.lo < 64) (hg : g.lo < 64) : f.key ≠ g.key := by
  unfold Fld.key; omega

@[simp] theorem fld_raise (s : State) (c i r d : Nat) (l : List Nat) (f : Fld) : (s.raise c i r d l).fld f = s.fld f := rfl
@[simp] theorem fld_setCore (s : State) (c : CoreId) (x : Core) (f : Fld) : (s.setCore c x).fld f = s.fld f := rfl
@[simp] theorem core_raise (s : State) (c i r d : Nat) (l : List Nat) (k : CoreId) : (s.raise c i r d l).core k = s.core k := rfl

theorem fld_bump_self (s : State) (f : Fld) (n : Nat) : (s.bump f n).fld f = min (s.fld f + n) (2 ^ f.w - 1) := by
  unfold State.bump
  rw [fld_setFld_self]
  apply Nat.mod_eq_of_lt
  have : 0 < 2 ^ f.w := Nat.two_pow_pos _
  omega
theorem fld_bump_ne (s : State) {f g : Fld} (n : Nat) (h : g.key ≠ f.key) : (s.bump f n).fld g = s.fld g := fld_setFld_ne _ _ h

theorem touch_bump (s : State) (c : CoreId) (f : Fld) (n : Nat) (h : f.lo < 64)
    (e : f.off = (IS_SC_ECC_CORRECTED c.isl c.sc).off) : CwTouch s (s.bump f n) c :=
  ⟨rfl, fun _ _ => rfl, rfl, fun _ l a _ => fld_bump_ne s n (key_ne (e ▸ a) l h)⟩
theorem touch_unflip (s : State) (c : CoreId) (p : FlipAt) : CwTouch s (s.unflip p) c := ⟨rfl, fun _ _ => rfl, rfl, fun _ _ _ _ => rfl⟩
theorem touch_raise (s : State) (c : CoreId) (k i r d : Nat) (l : List Nat) : CwTouch s (s.raise k i r d l) c :=
  ⟨rfl, fun _ _ => rfl, rfl, fun _ _ _ _ => rfl⟩
/-- The core's control words or their marks change. -/
theorem touch_core (s : State) (c : CoreId) (w : Tbl Word) (p : Tbl Bool) :
    CwTouch s (s.setCore c { s.core c with cw := w, pcw := p }) c :=
  ⟨by simp, fun _ hd => core_setCore_ne _ _ hd, rfl, fun _ _ _ _ => rfl⟩

theorem touch_sense (s : State) (c : CoreId) (n : Nat) : CwTouch s (s.sense c (.cw n)) c := by
  unfold State.sense
  split
  · exact .refl s c
  · exact (touch_unflip s c _).trans (touch_bump _ c _ _ (by simp [IS_SC_ECC_CORRECTED]) rfl)
  · exact ((touch_unflip s c _).trans (touch_core _ c _ _)).trans (touch_bump _ c _ _ (by simp [IS_SC_ECC_CORRECTED]) rfl)
  · refine (((touch_unflip s c _).trans (touch_bump _ c (IS_SC_ECC_UNCORRECTABLE c.isl c.sc) _ (by simp [IS_SC_ECC_UNCORRECTABLE]) rfl)).trans
      (touch_core _ c _ _)).trans (touch_raise _ c _ _ _ _ _)

theorem touch_arm (s : State) (c : CoreId) (k r : Nat) : CwTouch s (s.armScalar c k r) c := by
  refine ⟨by rw [core_armScalar], fun d _ => core_armScalar _ _ _ _ _, ?_, fun f l _ b => regs_armScalar s c k r f ?_ ?_⟩
  · obtain ⟨fl, rg, e⟩ := armScalar_shape s c k r
    rw [e]
  · exact key_ne b l (by simp [IS_FLIP_CTL_ARM])
  · exact key_ne b l (by simp [IS_FLIP_CTL_DONE])

theorem touch_setCw (s : State) (c : CoreId) (n : Nat) (v : Word) : CwTouch s (s.setCw c n v) c :=
  ((touch_core s c ((s.core c).cwSet n v).cw ((s.core c).cwSet n v).pcw).trans
    (touch_unflip _ c (.sreg c.isl c.sc 2 n))).trans (touch_arm _ c 2 n)

theorem touch_free (s : State) (c : CoreId) : CwTouch s s.free.2 c := ⟨rfl, fun _ _ => rfl, rfl, fun _ _ _ _ => rfl⟩

theorem touch_hwRead (s : State) (c : CoreId) (n : Nat) : CwTouch s (s.hwRead c n).2 c := by
  unfold State.hwRead
  simp only
  split
  · exact (touch_sense s c n).trans (touch_free _ c)
  · exact touch_sense s c n

/-- A sound control word that the hardware reads is read without effect. -/
theorem hwRead_sound {s : State} {c : CoreId} {n : Nat} (h : s.Sound c (.cw n)) : s.hwRead c n = ((s.core c).cwGet n, s) := by
  obtain h | ⟨h1, h2⟩ := h
  · cases h
  · have e : s.sense c (.cw n) = s := by unfold State.sense; rw [h1]
    unfold State.hwRead
    simp only [e, h2, Bool.false_eq_true, if_false]

theorem touch_saveTrap (s : State) (c : CoreId) (cause : Nat) (tpc tval : Word) (d : Bool) :
    CwTouch s (s.saveTrap c cause tpc tval d) c :=
  (((touch_setCw s c cwTpc tpc).trans (touch_setCw _ c cwTcause _)).trans (touch_setCw _ c cwTval tval)).trans (touch_setCw _ c cwTstat _)

theorem setCw_self (s : State) (c : CoreId) (n : Nat) (v : Word) :
    ((s.setCw c n v).core c).cwGet n = BitVec.ofNat 64 (v.toNat % 2 ^ cwWidth n) := by
  unfold State.setCw
  rw [core_armScalar, core_unflip, core_setCore_self, cwGet_cwSet_self]
theorem setCw_ne (s : State) (c : CoreId) {n k : Nat} (v : Word) (h : k ≠ n) :
    ((s.setCw c n v).core c).cwGet k = (s.core c).cwGet k := by
  unfold State.setCw
  rw [core_armScalar, core_unflip, core_setCore_self, cwGet_cwSet_ne _ _ h]

theorem saveTrap_tcause (s : State) (c : CoreId) (cause : Nat) (tpc tval : Word) (d : Bool) :
    ((s.saveTrap c cause tpc tval d).core c).cwGet cwTcause = BitVec.ofNat 64 (cause % 256) := by
  unfold State.saveTrap
  rw [setCw_ne _ _ _ (by decide), setCw_ne _ _ _ (by decide), setCw_self]
  congr 1
  simp only [BitVec.toNat_ofNat]
  show cause % 2 ^ 64 % 2 ^ 8 = cause % 256
  omega
theorem saveTrap_tpc (s : State) (c : CoreId) (cause : Nat) (tpc tval : Word) (d : Bool) :
    ((s.saveTrap c cause tpc tval d).core c).cwGet cwTpc = tpc := by
  unfold State.saveTrap
  rw [setCw_ne _ _ _ (by decide), setCw_ne _ _ _ (by decide), setCw_ne _ _ _ (by decide), setCw_self]
  show BitVec.ofNat 64 (tpc.toNat % 2 ^ 64) = tpc
  rw [Nat.mod_eq_of_lt tpc.isLt]; simp
theorem saveTrap_tval (s : State) (c : CoreId) (cause : Nat) (tpc tval : Word) (d : Bool) :
    ((s.saveTrap c cause tpc tval d).core c).cwGet cwTval = tval := by
  unfold State.saveTrap
  rw [setCw_ne _ _ _ (by decide), setCw_self]
  show BitVec.ofNat 64 (tval.toNat % 2 ^ 64) = tval
  rw [Nat.mod_eq_of_lt tval.isLt]; simp
theorem saveTrap_tstat (s : State) (c : CoreId) (cause : Nat) (tpc tval : Word) (d : Bool) :
    ((s.saveTrap c cause tpc tval d).core c).cwGet cwTstat = if d then 3 else 1 := by
  unfold State.saveTrap
  rw [setCw_self]
  cases d <;> rfl

/-- An event just raised is among those that have arisen. -/
theorem any_addEv (e : Ev) (l : List Ev) : (addEv e l).any (fun x => x.code == e.code && x.isl == e.isl && x.src == e.src) = true := by
  induction l with
  | nil => simp [addEv]
  | cons x r ih =>
    simp only [addEv]
    split
    · rename_i h
      simp only [Ev.same] at h
      simp only [List.any_cons, h, Bool.true_or]
    · simp only [List.any_cons, ih, Bool.or_true]

theorem arisen_raise (s : State) (code isl src d : Nat) (l : List Nat) :
    (s.raise code isl src d l).arisen.any (fun x => x.code == code && x.isl == isl && x.src == src) = true :=
  any_addEv { code := code, isl := isl, src := src, detail := d, tens := l } s.arisen

@[simp] theorem setScState_mem (s : State) (c : CoreId) (v : Nat) : (s.setScState c v).mem = s.mem := rfl

theorem fld_countTrap (s : State) (c : CoreId) (cause : Nat) (tval : Word) (f : Fld) :
    (s.countTrap c cause tval).fld f = (s.bump (IS_SC_TRAP_TRAPS c.isl c.sc) 1).fld f := by
  unfold State.countTrap; split <;> rfl
theorem core_countTrap (s : State) (c d : CoreId) (cause : Nat) (tval : Word) : (s.countTrap c cause tval).core d = s.core d := by
  unfold State.countTrap; split <;> rfl
theorem mem_countTrap (s : State) (c : CoreId) (cause : Nat) (tval : Word) : (s.countTrap c cause tval).mem = s.mem := by
  unfold State.countTrap; split <;> rfl

/-- `State.trap` takes a trap. -/
theorem trapped_trap (s : State) (c : CoreId) (cause : Nat) (tpc tval : Word) (deferred : Bool) :
    s.Trapped (s.trap c cause tpc tval deferred) c cause tpc tval deferred := by
  have hn := c.sc.isLt
  have kst : (IS_SC_TRAP_TRAPS c.isl c.sc).key ≠ (IS_SC_STATUS_STATE c.isl c.sc).key :=
    key_ne (by simp only [IS_SC_TRAP_TRAPS, IS_SC_STATUS_STATE]; omega) (by simp [IS_SC_TRAP_TRAPS]) (by simp [IS_SC_STATUS_STATE])
  have kc : (IS_SC_STATUS_STATE c.isl c.sc).key ≠ (IS_SC_TRAP_CAUSE c.isl c.sc).key :=
    key_ne (by simp only [IS_SC_TRAP_CAUSE, IS_SC_STATUS_STATE]; omega) (by simp [IS_SC_STATUS_STATE]) (by simp [IS_SC_TRAP_CAUSE])
  have kd : (IS_SC_STATUS_STATE c.isl c.sc).key ≠ (IS_SC_TRAP_DEFERRED c.isl c.sc).key :=
    key_ne (by simp only [IS_SC_TRAP_DEFERRED, IS_SC_STATUS_STATE]; omega) (by simp [IS_SC_STATUS_STATE]) (by simp [IS_SC_TRAP_DEFERRED])
  have kp : (IS_SC_STATUS_STATE c.isl c.sc).key ≠ (IS_SC_TRAP_TPC c.isl c.sc).key :=
    key_ne (by simp only [IS_SC_TRAP_TPC, IS_SC_STATUS_STATE]; omega) (by simp [IS_SC_STATUS_STATE]) (by simp [IS_SC_TRAP_TPC])
  have k1 : (IS_SC_TRAP_CAUSE c.isl c.sc).key ≠ (IS_SC_TRAP_DEFERRED c.isl c.sc).key := by
    simp [Fld.key, IS_SC_TRAP_CAUSE, IS_SC_TRAP_DEFERRED]
  have k2 : (IS_SC_TRAP_CAUSE c.isl c.sc).key ≠ (IS_SC_TRAP_TPC c.isl c.sc).key := by
    simp [Fld.key, IS_SC_TRAP_CAUSE, IS_SC_TRAP_TPC]
  have k3 : (IS_SC_TRAP_DEFERRED c.isl c.sc).key ≠ (IS_SC_TRAP_TPC c.isl c.sc).key := by
    simp [Fld.key, IS_SC_TRAP_DEFERRED, IS_SC_TRAP_TPC]
  have k4 : (IS_SC_TRAP_TRAPS c.isl c.sc).key ≠ (IS_SC_TRAP_DEFERRED c.isl c.sc).key := by
    simp [Fld.key, IS_SC_TRAP_TRAPS, IS_SC_TRAP_DEFERRED]
  have k5 : (IS_SC_TRAP_TRAPS c.isl c.sc).key ≠ (IS_SC_TRAP_CAUSE c.isl c.sc).key := by
    simp [Fld.key, IS_SC_TRAP_CAUSE, IS_SC_TRAP_TRAPS]
  have k6 : (IS_SC_TRAP_TRAPS c.isl c.sc).key ≠ (IS_SC_TRAP_TPC c.isl c.sc).key := by
    simp [Fld.key, IS_SC_TRAP_TRAPS, IS_SC_TRAP_TPC]
  -- the words read on the way in, and those saved
  have ht := (touch_hwRead s c cwTstat).trans (touch_hwRead (s.hwRead c cwTstat).2 c cwTvec)
  have hso : s.Sound c (.cw cwTvec) → s.Sound c (.cw cwTstat) →
      ((s.hwRead c cwTstat).1 = (s.core c).cwGet cwTstat ∧ ((s.hwRead c cwTstat).2.hwRead c cwTvec).1 = (s.core c).cwGet cwTvec) := by
    intro h1 h2
    rw [hwRead_sound h2]
    exact ⟨rfl, by rw [hwRead_sound h1]⟩
  unfold State.trap
  simp only
  generalize (s.hwRead c cwTstat).1 = st at *
  generalize ((s.hwRead c cwTstat).2.hwRead c cwTvec).1 = tv at *
  generalize ((s.hwRead c cwTstat).2.hwRead c cwTvec).2 = z at *
  have hz := ht.trans (touch_saveTrap z c cause tpc tval deferred)
  have tc := saveTrap_tcause z c cause tpc tval deferred
  have tp := saveTrap_tpc z c cause tpc tval deferred
  have tl := saveTrap_tval z c cause tpc tval deferred
  have ts := saveTrap_tstat z c cause tpc tval deferred
  generalize z.saveTrap c cause tpc tval deferred = y at *
  obtain ⟨hc, ho, hm, hf⟩ := hz
  have hpc : (y.core c).pc = (s.core c).pc := by rw [hc]
  have hg : (y.core c).g = (s.core c).g := by rw [hc]
  have hff : (y.core c).f = (s.core c).f := by rw [hc]
  have fk : y.fld (IS_SC_TRAP_TRAPS c.isl c.sc) = s.fld (IS_SC_TRAP_TRAPS c.isl c.sc) := by
    apply hf _ (by simp [IS_SC_TRAP_TRAPS]) <;> simp only [IS_SC_TRAP_TRAPS, IS_SC_ECC_CORRECTED, IS_FLIP_CTL_ARM] <;> omega
  have hin : (s.core c).inTrap = bitOf ((s.core c).cwGet cwTstat).toNat 0 := rfl
  split
  · rename_i hfat
    unfold State.Trapped State.fatalTrap State.setScState State.scState State.resumeAt
    simp only [core_raise, core_setFld, core_setCore_self, fld_raise, core_countTrap]
    refine ⟨tc, tp, tl, ts, trivial, ?_, fun h1 h2 => ?_, hg, hff, ?_, ?_⟩
    · rw [fld_setFld_ne _ _ k6, fld_setFld_ne _ _ k4, fld_setFld_ne _ _ k5, fld_setFld_ne _ _ kst, fld_setCore, fld_countTrap,
        fld_bump_self, fk]
    · obtain ⟨e1, e2⟩ := hso h1 h2
      have hp : (s.core c).inTrap = true ∨ (s.core c).cwGet cwTvec = 0 := by rw [hin, ← e1, ← e2]; simpa using hfat
      rw [if_pos hp]
      refine ⟨?_, hpc, ?_, ?_, ?_, ?_⟩
      · rw [fld_setFld_ne _ _ kp, fld_setFld_ne _ _ kd, fld_setFld_ne _ _ kc, fld_setFld_self]; rfl
      · rw [fld_setFld_ne _ _ k2, fld_setFld_ne _ _ k1, fld_setFld_self]
      · rw [fld_setFld_ne _ _ k3, fld_setFld_self]; cases deferred <;> rfl
      · rw [fld_setFld_self]; exact Nat.mod_mod _ _
      · generalize State.setFld _ _ _ = u
        exact arisen_raise u 0x3003 c.isl (srcIx 1 c.sc) _ _
    · intro d hd; rw [core_setCore_ne _ _ hd, core_countTrap, ho d hd]
    · simp only [raise_mem, setFld_mem, setCore_mem, mem_countTrap, hm]
  · rename_i hfat
    unfold State.Trapped State.setScState State.scState State.resumeAt
    simp only [core_setFld, core_setCore_self, core_countTrap]
    refine ⟨tc, tp, tl, ts, trivial, ?_, fun h1 h2 => ?_, hg, hff, ?_, ?_⟩
    · rw [fld_setFld_ne _ _ kst, fld_setCore, fld_countTrap, fld_bump_self, fk]
    · obtain ⟨e1, e2⟩ := hso h1 h2
      have hp : ¬ ((s.core c).inTrap = true ∨ (s.core c).cwGet cwTvec = 0) := by rw [hin, ← e1, ← e2]; simpa using hfat
      rw [if_neg hp]
      exact ⟨by rw [fld_setFld_self]; rfl, by rw [e2]⟩
    · intro d hd; rw [core_setCore_ne _ _ hd, core_countTrap, ho d hd]
    · simp only [setFld_mem, setCore_mem, mem_countTrap, hm]

theorem trapped_precise (s : State) (c : CoreId) (cause : Nat) (tval : Word) :
    s.Trapped (s.preciseTrap c cause tval) c cause (s.core c).pc tval false := trapped_trap _ _ _ _ _ _

/-- Control word `n` := v and the next pc. -/
theorem wroteCw_setCw (s : State) (c : CoreId) (n : Nat) (v pc : Word) : s.WroteCw ((s.setCw c n v).advance c pc) c n v pc := by
  unfold State.setCw
  refine ⟨?_, ?_, ?_, ?_, ?_, ?_, ?_, coreOnly_write s c _ _ _ _ _⟩
  · simp only [core_advance, core_armScalar, core_unflip, core_setCore_self]
    exact cwGet_cwSet_self _ _ _
  · simp only [State.marked, core_advance, core_armScalar, core_unflip, core_setCore_self, Core.cwSet, get_erase, if_true]
  · intro k hk
    simp only [core_advance, core_armScalar, core_unflip, core_setCore_self]
    exact cwGet_cwSet_ne _ _ hk
  · simp [Core.cwSet]
  · simp [Core.cwSet]
  · simp
  · simp [Core.cwSet]

/-! ### f registers and control words -/

theorem coreOnly_trans {s t u : State} {c : CoreId} (h : s.CoreOnly t c) (k : t.CoreOnly u c) : s.CoreOnly u c := by
  obtain ⟨h1, h2, h3⟩ := h
  obtain ⟨k1, k2, k3⟩ := k
  exact ⟨by rw [k1, h1], fun d hd => (k2 d hd).trans (h2 d hd), fun f a b => (k3 f a b).trans (h3 f a b)⟩

/-- A write of one core with its flip bookkeeping. -/
theorem coreOnly_arm (s : State) (c : CoreId) (x : Core) (p : FlipAt) (k r : Nat) :
    s.CoreOnly (((s.setCore c x).unflip p).armScalar c k r) c := by
  refine ⟨?_, fun d hd => ?_, fun f g h => ?_⟩
  · obtain ⟨fl, rg, e⟩ := armScalar_shape ((s.setCore c x).unflip p) c k r
    rw [e]; rfl
  · rw [core_armScalar, core_unflip, core_setCore_ne _ _ hd]
  · rw [regs_armScalar _ _ _ _ _ g h]; rfl

/-- A word of another register keeps its flip. -/
theorem check_setF (s : State) (c : CoreId) (rd : Reg) (v : Word) (n : Nat) :
    (s.setF c rd v).check (.sreg c.isl c.sc 2 n) false = s.check (.sreg c.isl c.sc 2 n) false := by
  have hk : (FlipAt.sreg c.isl c.sc 2 n).key ≠ (FlipAt.sreg c.isl c.sc 1 rd).key := by
    have := rd.isLt; simp only [FlipAt.key]; omega
  have h1 : (s.setF c rd v).flips.get ⟨0, 0⟩ (FlipAt.sreg c.isl c.sc 2 n).key = s.flips.get ⟨0, 0⟩ (FlipAt.sreg c.isl c.sc 2 n).key := by
    have he : ∀ z : State, (z.armScalar c 1 rd).flips.get ⟨0, 0⟩ (FlipAt.sreg c.isl c.sc 2 n).key =
        z.flips.get ⟨0, 0⟩ (FlipAt.sreg c.isl c.sc 2 n).key := by
      intro z
      unfold State.armScalar State.armIs
      by_cases h : z.fld (IS_FLIP_CTL_ARM c.isl) = 1 ∧ z.fld (IS_FLIP_CTL_MEM c.isl) = 4 ∧ z.fld (IS_FLIP_CTL_UNIT c.isl) = c.sc.val
      · rw [if_pos h]; exact get_set_ne _ _ _ hk
      · rw [if_neg h]
    unfold State.setF
    rw [he]
    show (Tbl.erase _ _).get _ _ = _
    rw [get_erase, if_neg hk]; rfl
  unfold State.check
  rw [h1]

theorem sound_setF {s : State} {c : CoreId} {n : Nat} (rd : Reg) (v : Word) (h : s.Sound c (.cw n)) :
    (s.setF c rd v).Sound c (.cw n) := by
  obtain h | ⟨h1, h2⟩ := h
  · cases h
  · refine .inr ⟨(check_setF s c rd v n).trans h1, ?_⟩
    simpa [State.marked, State.setF] using h2

/-- The flags of a sound cw.fflags gain the bits of `fl`. -/
theorem setFflags_sound {s : State} {c : CoreId} {fl : Nat} (h : s.Sound c (.cw cwFflags)) (h0 : fl % 32 ≠ 0) :
    s.setFflags c fl = s.setCw c cwFflags (BitVec.ofNat 64 ((((s.core c).cwGet cwFflags).toNat ||| fl) % 32)) := by
  obtain h | ⟨h1, h2⟩ := h
  · cases h
  · have e : s.sense c (.cw cwFflags) = s := by unfold State.sense; rw [h1]
    unfold State.setFflags State.hwUpdate
    rw [if_neg h0]
    simp only [e, h2, Bool.false_eq_true, if_false]

/-- cw.fflags gains the bits of `fl`: what stands afterwards. -/
theorem setFflags_spec (s : State) (c : CoreId) (fl : Nat) (h : fl % 32 ≠ 0 → s.Sound c (.cw cwFflags)) :
    (s.setFflags c fl).core c = { s.core c with cw := ((s.setFflags c fl).core c).cw, pcw := ((s.setFflags c fl).core c).pcw } ∧
    s.CoreOnly (s.setFflags c fl) c ∧
    (∀ k, k < 5 → (((s.setFflags c fl).core c).cwGet cwFflags).getLsbD k = (((s.core c).cwGet cwFflags).getLsbD k || fl.testBit k)) ∧
    ∀ n, n ≠ cwFflags → ((s.setFflags c fl).core c).cwGet n = (s.core c).cwGet n := by
  by_cases h0 : fl % 32 = 0
  · have e : s.setFflags c fl = s := by unfold State.setFflags; rw [if_pos h0]
    rw [e]
    refine ⟨rfl, ⟨rfl, fun _ _ => rfl, fun _ _ _ => rfl⟩, fun k hk => ?_, fun _ _ => rfl⟩
    have : fl.testBit k = false := by
      have e := congrArg (fun x => Nat.testBit x k) h0
      simp only [show (32 : Nat) = 2 ^ 5 from rfl, Nat.testBit_mod_two_pow, hk, decide_true, Bool.true_and, Nat.zero_testBit] at e
      exact e
    simp [this]
  · rw [setFflags_sound (h h0) h0]
    refine ⟨(touch_setCw s c _ _).1, coreOnly_arm s c _ _ _ _, fun k hk => ?_, fun n hn => setCw_ne _ _ _ hn⟩
    rw [setCw_self]
    have h64 : k < 64 := by omega
    simp only [BitVec.getLsbD_ofNat, h64, decide_true, Bool.true_and, BitVec.toNat_ofNat]
    show Nat.testBit (_ % 2 ^ 5) k = _
    rw [show (32 : Nat) = 2 ^ 5 from rfl]
    simp only [Nat.testBit_mod_two_pow, hk, h64, decide_true, Bool.true_and, Nat.testBit_or, BitVec.testBit_toNat]

/-- f[rd] := v, then flags `fl`, and the next pc. -/
theorem wroteF_setF (s : State) (c : CoreId) (rd : Reg) (v : Word) (fl : Nat) (pc : Word)
    (h : fl % 32 ≠ 0 → s.Sound c (.cw cwFflags)) :
    s.WroteF (((s.setF c rd v).setFflags c fl).advance c pc) c rd v fl pc := by
  obtain ⟨e1, e2, e3, e4⟩ := setFflags_spec (s.setF c rd v) c fl (fun h0 => sound_setF rd v (h h0))
  have hz : (s.setF c rd v).core c = { s.core c with f := (s.core c).f.set rd v, pf := (s.core c).pf &&& ~~~(1#32 <<< rd.val) } := by
    unfold State.setF; rw [core_armScalar, core_unflip, core_setCore_self]
  have ho : s.CoreOnly (s.setF c rd v) c := coreOnly_arm s c _ _ _ _
  generalize s.setF c rd v = z at *
  generalize z.setFflags c fl = y at *
  have ec : ∀ n, (z.core c).cwGet n = (s.core c).cwGet n := fun n => by rw [hz]; rfl
  refine ⟨?_, ?_, ?_, ?_, ?_, ?_, ?_, by simp, ?_, coreOnly_trans (coreOnly_trans ho e2) (coreOnly_advance y c pc)⟩
  · rw [core_advance]; show (y.core c).f.get 0 rd = v; rw [e1, hz]; simp
  · simp only [State.marked, core_advance]; rw [e1, hz]; simp only [mask_getLsbD]; simp
  · intro r hr
    have : r.val ≠ rd.val := fun e => hr (Fin.ext e)
    rw [core_advance]
    refine ⟨?_, ?_⟩
    · show (y.core c).f.get 0 r = _; rw [e1, hz]; exact get_set_ne _ _ _ this
    · simp only [State.marked, core_advance]; rw [e1, hz]; simp only [mask_getLsbD]; simp [hr]
  · rw [core_advance, e1, hz]
  · rw [core_advance, e1, hz]
  · intro k hk; rw [core_advance]; exact (e3 k hk).trans (by rw [ec])
  · intro n hn; rw [core_advance]; exact (e4 n hn).trans (ec n)
  · rw [core_advance, e1, hz]

end Sys2Proof.Laws
end

