-- ==== Sys2Proof/Tests/Slice0.lean ====
section
/-!
SUPPORT. Tests: ill-formed commands, instruction words, and for every statement with hypotheses a state that meets them.
-/
namespace Sys2Proof.Tests

open Sys2Proof Sys2Proof.Machine

set_option Elab.async false

/-! ### Ill-formed commands -/

theorem test_wf_slotTick : (Instr.moduleSlotTick (List.replicate 17 0)).wf = false ∧ (Instr.moduleSlotTick (List.replicate 16 0)).wf = true := by
  decide
theorem test_wf_sensor : (Instr.sensorSample 0 (List.replicate 33 0) 0 0).wf = false ∧ (Instr.sensorSample 0 (List.replicate 32 0) 0 0).wf = true := by
  decide
theorem test_wf_ring : (Instr.portRingSample 0 0 0 (List.replicate 4097 (0, false))).wf = false := by decide +kernel
theorem test_wf_comb : (Instr.combLineFail 0 0 (List.replicate 1025 (0, 0))).wf = false := by decide +kernel
theorem test_wf_flit : (Instr.ferryFlitRx 0 0 0 [(128, 1)]).wf = false ∧ (Instr.ferryFlitRx 0 0 0 [(127, 1)]).wf = true := by decide
theorem test_wf_segment : (Instr.segmentRx 0 0 0 none none [(6912, 1)]).wf = false ∧
    (Instr.segmentRx 0 63 15 (some 3) (some 4) [(6911, 1)]).wf = true := by decide
theorem test_wf_startup : let p : StartPlan := { raw := List.replicate 17 [] }
    (Instr.coldReset p).wf = false ∧ (Instr.powerValid { raw := List.replicate 16 (List.replicate 33 0) }).wf = false ∧
    (Instr.warmReset { raw := List.replicate 16 (List.replicate 32 0) }).wf = true ∧ (Instr.resetWaitsForStore p).wf = false := by decide
theorem test_wf_arbitration : (Instr.ferryArbitration 0 (List.replicate 17 (0, 0, 0))).wf = false ∧ (Instr.ferryArbitration 0 []).wf = true := by decide
theorem test_wf_notice : (Instr.repairNoticePost 0 16384 0 0).wf = false ∧ (Instr.repairNoticePost 0 0 0 1024).wf = false := by decide
theorem test_wf_plan : (Instr.stTxBufferFill 0 16384).wf = false ∧ (Instr.stRecvComplete 0 4096 0).wf = false ∧
    (Instr.stSendComplete 0 4096 0).wf = false ∧ (Instr.stSendComplete 0 4095 0).wf = true := by decide
theorem test_wf_fetch : (Instr.ifetchLineFill ⟨0, 0⟩ 8388608 none).wf = false ∧ (Instr.ifetchLineFill ⟨0, 0⟩ 8388607 none).wf = true := by decide
theorem test_wf_bar2 : (Instr.bar2Read 0 0 0 0).wf = false ∧ (Instr.bar2Read 0 0 4096 0).wf = true := by decide

/-! ### States -/

def st (l : List (Fld × Nat)) : State := l.foldl (fun s p => s.setFld p.1 p.2) State.reset
def c0 : CoreId := ⟨0, 0⟩

/-! ### Words of R122 to R125, R135, R138, R151, R156 -/

/-- The words of the worked examples of chapters 05 and 06. -/
theorem test_word_vfma : decodeWord c0 0x8020_8110_D28A_0000 =
      some (.vfma c0 ⟨4, 1, 2, 3, 2, 5, 0, true, 1, false, 0⟩) ∧
    decodeWord c0 0x8020_8110_D28A_0001 = none ∧ decodeWord c0 0 = none := by decide
theorem test_word_add : decodeWord c0 0x0404_A6FF_FFFF_FFF8 = some (.add c0 5 6 (.imm (-8))) := by decide
theorem test_word_mac : decodeWord c0 0xC407_FE8F_F805_2D80 =
    some (.maMac c0 ⟨0xFF, 2, true, 3, 127, 0, 10, 11, 12, false, false⟩) := by decide
/-- Words of the other formats, written out from their tables (R125, R135, R138, R151, R156). -/
theorem test_word_forms :
    decodeWord c0 (0x05 * 2 ^ 58 + 1 * 2 ^ 50 + 3 * 2 ^ 45 + 4 * 2 ^ 40 + 16) = some (.beq c0 3 4 16) ∧
    decodeWord c0 (0x05 * 2 ^ 58 + 1 * 2 ^ 50 + 3 * 2 ^ 45 + 4 * 2 ^ 40 + 12) = none ∧
    decodeWord c0 (0x07 * 2 ^ 58 + 2 * 2 ^ 50 + 7 * 2 ^ 40 + 0x050 * 2 ^ 28) = some (.cww c0 7 0x050) ∧
    decodeWord c0 (0x08 * 2 ^ 58 + 3 * 2 ^ 50 + 1 * 2 ^ 45 + 2 * 2 ^ 40 + 3 * 2 ^ 38 + 100 * 2 ^ 31) = some (.getv c0 1 2 3 100) ∧
    decodeWord c0 (0x10 * 2 ^ 58 + 8 * 2 ^ 50 + 1 * 2 ^ 45 + 2 * 2 ^ 40 + 3 * 2 ^ 35 + 4 * 2 ^ 30 + 2 ^ 29) =
      some (.fma c0 ⟨1, 2, 3, 4, true, false, 0⟩) ∧
    decodeWord c0 (0x39 * 2 ^ 58 + 2 * 2 ^ 50 + 6 * 2 ^ 45 + 0xABC * 2 ^ 33 + 5 * 2 ^ 29) = some (.stRecv c0 6 0xABC 5) ∧
    decodeWord c0 (0x3C * 2 ^ 58 + 4 * 2 ^ 50 + 2 ^ 48) = some (.fence c0 false true) ∧
    decodeWord c0 (0x3F * 2 ^ 58 + 1 * 2 ^ 50) = none := by decide


/-- A module that is READY, tenancy 0 RUNNING on islands 0 and 1, a core of island 0 running. -/
def up : State := st [(LH_START_PHASE, 9), (LH_CAP_ISLANDS_AVAIL, 0xFFFF), (TN_STATE_STATE 0, 3), (TN_ISLANDS_ISLANDS 0, 3),
  (TN_BIND_MAP 0, 0x10), (TN_FRAME_CFG_FRAME_SLOTS 0, 8), (BT_MC_EXTENT_USABLE 0, 0x80000000), (BT_MC_EXTENT_USABLE 1, 0x80000000),
  (IS_SC_STATUS_STATE 0 0, 1)]
/-- The same with core 0 of island 0 as given, in a program section of 4 KiB. -/
def on (x : Core) : State := up.setCore c0 { x with sect := 4096 }

/-! ### Witnesses: scalar, vector and matrix instructions -/

def regs1 : Core := { g := [(1, 3), (2, 0xFFFF_FFFF_FFFF_FFFF), (3, 1)], f := [(1, 0x3F80_0000)] }

theorem witness_ScalarAluResult : (on regs1).Issues c0 (.g 1 :: opdSrcs (.reg 2)) ∧ (on regs1).Issues c0 (.g 1 :: opdSrcs (.imm 5)) := by
  unfold State.Issues State.Sound; decide +kernel
theorem witness_ScalarMulDivResult : (on regs1).Issues c0 [.g 1, .g 0] := by
  unfold State.Issues State.Sound; decide +kernel
theorem witness_ScalarShiftResult : (on regs1).Issues c0 (.g 1 :: opdSrcs (.imm 63)) ∧ (63 : BitVec 40).toNat < 64 ∧
    (on regs1).Issues c0 [] ∧ 64 ≤ (64 : BitVec 40).toNat := by
  unfold State.Issues State.Sound; decide +kernel
theorem witness_ScalarCountMoveResult : (on regs1).Issues c0 [.g 1] ∧ (on regs1).Issues c0 [.g 1, .g 2, .g 3] ∧ (on regs1).Issues c0 [] := by
  unfold State.Issues State.Sound; decide +kernel
theorem witness_ScalarBranchResult : (on regs1).Issues c0 [.g 1, .g 2] ∧ (0xFF_FFFF_FFF8 : BitVec 40).toNat % 8 = 0 ∧
    (on regs1).Issues c0 [.g 1] ∧ (4 : BitVec 40).toNat % 8 ≠ 0 := by
  unfold State.Issues State.Sound; decide +kernel
theorem witness_ControlWordResult : (on regs1).Issues c0 (if cwWidth 0x052 ≠ 0 then [.cw 0x052] else []) ∧
    (on regs1).cwRead c0 0x052 = some 0 ∧ (on regs1).Issues c0 (if cwWidth 0x053 ≠ 0 then [.cw 0x053] else []) ∧
    (on regs1).cwRead c0 0x053 = none ∧ (on regs1).Issues c0 [.g 1] ∧ cwWritable 0x052 = true ∧ cwWritable 0x014 = false ∧
    (on regs1).Issues c0 [] ∧ 0x001 ≠ cwFflags ∧ (on regs1).Issues c0 [.cw cwFflags] := by
  unfold State.Issues State.Sound; decide +kernel
theorem witness_RegisterMoveResult : (on regs1).Issues c0 [.g 1] ∧ (on regs1).Issues c0 [.f 1] ∧ (on regs1).Issues c0 [] := by
  unfold State.Issues State.Sound; decide +kernel
/-- In a handler, and outside one with and without cw.tvec. -/
theorem witness_TrapEntryAndReturn : let h := on { cw := [(cwTvec, 0x100), (cwTpc, 0x40), (cwTstat, 1)] }
    (on regs1).Issues c0 [] ∧ (on regs1).Sound c0 (.cw cwTstat) ∧ ((on regs1).core c0).inTrap = false ∧ decodeWord c0 0 = none ∧
    h.Issues c0 [] ∧ h.Sound c0 (.cw cwTstat) ∧ h.Sound c0 (.cw cwTpc) ∧ (h.core c0).inTrap = true := by
  unfold State.Issues State.Sound; decide +kernel
/-- The core's program lies on a retired page of HBM. -/
def retired1 : State := { on {} with retPages := [hbmBase 0] }
theorem witness_IssueGate : State.reset.canIssue c0 = false ∧
    (let s := on { pc := 4096 }; s.canIssue c0 = true ∧ (s.core c0).sect < (s.core c0).pc.toNat + 8) ∧
    (let s := retired1; s.canIssue c0 = true ∧ (s.core c0).pc.toNat + 8 ≤ (s.core c0).sect ∧
      (s.core c0).icache.any (fun e => e.1 == lineOf (s.core c0).pc) = false ∧ s.fetchRefused c0 (lineOf (s.core c0).pc) = true) ∧
    (let s := on { pg := 2 }; s.Issues c0 (opdSrcs (.reg 2)) ∧ s.check (SReg.at c0 (.g 1)) false = .good ∧
      (s.core c0).waitsFor (.g 1) = false ∧ s.marked c0 (.g 1) = true) := by
  unfold State.Issues State.Sound; decide +kernel

def fp1 : FpArgs := { rd := 2, rs1 := 1, rs2 := 0, rs3 := 0, dbl := false, rmEn := false, rm := 0 }
theorem witness_ScalarFpToFResult : fpLegal fp1 2 true = true ∧ fpLegal fp1 2 false = true ∧ fpLegal fp1 1 true = true ∧ fpLegal fp1 1 false = true ∧
    (on regs1).Issues c0 [.f 1, .f 0] ∧ (on regs1).Issues c0 [.f 1, .f 0, .f 0] ∧ (on regs1).Issues c0 [.f 1] ∧
    (on regs1).Issues c0 [.g 1] ∧ (on regs1).Sound c0 (.cw cwFflags) ∧ (fp1.rmEn = false → (on regs1).Sound c0 (.cw cwFrnd)) := by
  unfold State.Issues State.Sound; decide +kernel
theorem witness_ScalarFpToGResult : (on regs1).Sound c0 (.cw cwFflags) ∧ fpLegal fp1 2 false = true ∧ (on regs1).Issues c0 [.f 1, .f 0] ∧ fpLegal fp1 1 false = true ∧
    (on regs1).Issues c0 [.f 1] ∧ fpLegal fp1 1 true = true ∧ (fp1.rmEn = false → (on regs1).Sound c0 (.cw cwFrnd)) := by
  unfold State.Issues State.Sound; decide +kernel
theorem witness_FloatCommutesAndNan : (decodeF (precFmt true) 0x7FF0000000000001).isNan = true ∧
    (decodeF (precFmt false) 0x7FC00000).isNan = true := by decide +kernel

/-- g1 at the last aligned doubleword of the shoal, g4 beyond it. -/
def mem1 : State := on { g := [(1, 0x7FFF_FFF8), (2, 5), (4, 0x8000_0000)] }
theorem witness_LoadResult : let a := ((mem1.core c0).gGet 1 + (0 : BitVec 40).signExtend 64).toNat
    mem1.Issues c0 [.g 1] ∧ mem1.localPhys c0.isl a = some (shoalBase 0 + 0x7FFF_FFF8) ∧
    mem1.CleanLine ((shoalBase 0 + 0x7FFF_FFF8) / 128 * 128) ∧ a % 8 = 0 := by
  unfold State.Issues State.Sound State.CleanLine; decide +kernel
/-- A memory-side cache that holds nothing leaves nothing behind. -/
theorem calm_of_empty (s : State) (h : s.msc = []) : s.CalmCache := fun e he => by simp [h] at he
theorem witness_LoadStore_calm : mem1.CalmCache ∧ (on {}).CalmCache := ⟨calm_of_empty _ rfl, calm_of_empty _ rfl⟩
theorem witness_StoreResult : let a := ((mem1.core c0).gGet 1 + (0 : BitVec 40).signExtend 64).toNat
    mem1.localPhys c0.isl a = some (shoalBase 0 + 0x7FFF_FFF8) ∧ mem1.Issues c0 [.g 1, .g 2] ∧ mem1.Issues c0 [.g 1, .f 2] ∧ a % 8 = 0 ∧
    mem1.CleanLine ((shoalBase 0 + 0x7FFF_FFF8) / 128 * 128) := by
  unfold State.Issues State.Sound State.CleanLine; decide +kernel
theorem witness_LoadStoreTraps : mem1.Issues c0 [.g 4, .g 2, .f 2] ∧
    mem1.localPhys c0.isl ((mem1.core c0).gGet 4 + (0 : BitVec 40).signExtend 64).toNat = none ∧ mem1.Issues c0 [.g 1, .g 2, .f 2] ∧
    mem1.localPhys c0.isl ((mem1.core c0).gGet 1 + (1 : BitVec 40).signExtend 64).toNat ≠ none ∧
    ((mem1.core c0).gGet 1 + (1 : BitVec 40).signExtend 64).toNat % 2 ≠ 0 := by
  unfold State.Issues State.Sound; decide +kernel

def va (fmt : BitVec 3) (imm : BitVec 16) : VArgs :=
  { vd := 1, vs1 := 2, vs2 := 3, vs3 := 0, mask := 0, cores := 15, fmt := fmt, rmEn := false, rm := 0, s2 := false, imm := imm }
theorem witness_VectorIssue : ∀ e ∈ [(VOp.vadd, va 0 0), (.viadd, va 3 0), (.vcmp, va 0 5), (.vld, va 0 1), (.vst, va 1 0), (.vcg, va 4 0),
    (.mand, va 0 0), (.smxStep, { va 0 4 with vs2 := 0 }), (.vcww, { va 0 0x31 with vd := 0, vs2 := 0 })], (on {}).VecReady c0 e.1 e.2 := by
  unfold State.VecReady State.Issues State.Sound; decide +kernel
theorem witness_VectorIssueTraps : (on {}).Issues c0 (vSrcs .vadd (va 0 0)) ∧ vLegal .vadd (va 0 1) = false ∧
    (let s := on { g := [(2, 8)] }; s.Issues c0 (vSrcs .vld (va 0 0)) ∧ vLegal .vld (va 0 0) = true ∧
      vOperandOk .vld (va 0 0) (vCapture .vld (va 0 0) (s.core c0)).1 (vCapture .vld (va 0 0) (s.core c0)).2 = false) := by
  unfold State.Issues State.Sound; decide +kernel

def vq (op : VOp) (a : VArgs) : State :=
  up.setIssue 0 (.vec 31) { queue := [⟨0, 7, 0, .vec op a 0 0 0 0 3 false⟩] }
theorem witness_VectorElementResult : up.avail (0 : Fin 16) = true ∧
    ((vq .vadd (va 0 0)).issue (0 : Fin 16) (.vec 31)).queue = [⟨0, 7, 0, .vec .vadd (va 0 0) 0 0 0 0 3 false⟩] ∧
    (vq .vadd (va 0 0)).avail (0 : Fin 16) = true ∧
    ∀ q ∈ vReads .vadd (va 0 0), ∀ p, p < 64 → (vq .vadd (va 0 0)).check (.vec (0 : Fin 16) (31 : Fin 32) q p) false = .good := by
  decide +kernel
theorem witness_VectorMaskAndSlotResult : ∀ op ∈ [VOp.mand, .mor, .mxor, .mandn, .vcww, .smxInit],
    (vq op (va 0 0x30)).avail (0 : Fin 16) = true ∧
    ((vq op (va 0 0x30)).issue (0 : Fin 16) (.vec 31)).queue = [⟨0, 7, 0, .vec op (va 0 0x30) 0 0 0 0 3 false⟩] := by decide +kernel
theorem witness_VectorReadBackResult : let s := on regs1
    ((s.setIssue 0 (.vec 3) { queue := [⟨0, 7, 0, .vec .vadd (va 0 0) 0 0 0 0 3 false⟩] }).vc 0 3).iss.queue ≠ [] ∧
    (s.vc 0 3).iss.queue = [] ∧ s.Issues c0 [] ∧ (∀ p, p < 64 → s.check (.vec 0 3 2 p) false = .good) ∧
    ((s.vc 0 3).poi 2).getLsbD (127 : Fin 128) = false ∧ s.Issues c0 [.g 1] ∧
    (let a := { va 0 0x31 with vs1 := 0, vs2 := 0, cores := 8 }; a.cores.toNat = 2 ^ (3 : Fin 4).val ∧ vLegal .vcwr a = true ∧ vLegal .vcwrc a = true) := by
  unfold State.Issues State.Sound; decide +kernel

/-- Array 7 holds a filled buffer 0 and an anchored bank 3. -/
def arr1 : State := (on { g := [(1, 0x1000), (2, 64), (3, 4096)] }).setArr 0 7
  { buf0 := some { fmt := 6, sparse := false, ew := 0, tile := 0, badCols := 0, badAt := 0 }, banks := [(3, { anchor := some 0 })] }
theorem witness_ArrayIssue : (∀ l ∈ [[SReg.g 1, .g 2, .g 3], [.g 1, .g 2], [.g 1, .g 2, .g 3, .g 4], [.g 1], []], arr1.Issues c0 l) ∧
    arr1.ArrRoom c0 0x80 ∧ (∀ n ∈ [cwSeed, cwStream, cwBase], arr1.Sound c0 (.cw n)) ∧ (0x80 : BitVec 8) ≠ 0 ∧ inFmtOk 6 = true ∧ sparseOk (fmtCode 0) = true ∧ outFmtOk 6 = true ∧
    ((arr1.core c0).gGet 3).toNat % 64 = 0 ∧ (0 : BitVec 7).toNat + (127 : BitVec 7).toNat + 1 ≤ 128 ∧ outRowBytes 6 ≤ ((arr1.core c0).gGet 3).toNat ∧
    (∀ p ∈ arrPos 0x80, (arrAddr ((arr1.core c0).gGet 1) ((arr1.core c0).gGet 2) p).toNat % 64 = 0) ∧
    (∀ u ∈ arr1.arrsOf c0 0x80, u.bufAhead false = some (6, false) ∧ macK 6 6 false ≠ 0 ∧ rowBytes 6 (macK 6 6 false) ≤ ((arr1.core c0).gGet 3).toNat ∧
      (u.bankAhead 3).anchored = true ∧ (u.bankAhead 3).opened = false ∧ u.bufAhead true = none) := by
  unfold State.ArrRoom State.Issues State.Sound; decide +kernel
theorem witness_ArrayBankResult : arr1.Issues c0 [] ∧ (0x80 : BitVec 8).toNat = 2 ^ (7 : Fin 8).val ∧ (arr1.arr 0 7).iss.queue = [] ∧
    (∀ op ∈ [UnitOp.zero 3, .anchor 3 0x800],
      let s := up.setIssue 0 (.array 7) { queue := [⟨0, 0, 0, op⟩] }
      s.avail (0 : Fin 16) = true ∧ (s.issue (0 : Fin 16) (.array 7)).queue = [⟨0, 0, 0, op⟩]) := by
  unfold State.Issues State.Sound; decide +kernel

/-- One window of 16 cycles and 32 groups for a VLD of vector core 0. -/
def mesh1 : State := (up.setIssue 0 (.vec 0) { queue := [⟨0, 0, 0, .vec .vld (va 0 0) 0 0 0 0 0 false⟩] }).setMesh 0
  { routes := [⟨0, 1, 0xFFFF, 32, false⟩], wins := [⟨0, 16, 0, 5⟩] }
theorem witness_MeshWindowResult : let m := mesh1.mesh (0 : Fin 16)
    let win := winAt m 0
    mesh1.tenOf (0 : Fin 16) = some 0 ∧ mesh1.fld (TN_STATE_STATE 0) = 3 ∧ 0 < m.wins.length ∧ m.done.get false 0 = false ∧
    mesh1.fld (TN_SLOT_PLAN_SLOT 0) = win.start / 800 ∧ (∀ k, k < m.wins.length → win.start ≤ (winAt m k).start ∨ m.done.get false k = true) ∧
    mesh1.winDead (0 : Fin 16) 0 = false ∧ (∀ u ∈ winUnits m win, (mesh1.issue (0 : Fin 16) u).wpos ≤ 0 ∧ mesh1.holds (0 : Fin 16) 0 u = true) ∧
    ∀ σ, σ < 16 → sectorBytes (((winUnits m win).map (fun u => match (mesh1.issue (0 : Fin 16) u).queue.head? with
      | some h => mesh1.rangesOf (0 : Fin 16) u h
      | none => [])).flatten) σ ≤ win.len * (meshRoute m win).groups * 32 := by decide +kernel
theorem witness_FetchAndDeferredTrap : (let s := on {}; 128 * 31 < (s.core c0).sect ∧ s.fetchRefused c0 31 = false ∧
      s.CleanLine ((s.progAddr c0 + 128 * 31) / 128 * 128)) ∧
    (128 * 31 < (retired1.core c0).sect ∧ retired1.fetchRefused c0 31 = true) ∧
    (let s := on { icache := [(31, false)] }; 128 * 31 < (s.core c0).sect ∧ (s.core c0).icache.any (fun e => e.1 == 31) = true ∧
      s.fetchRefused c0 31 = false ∧ s.CleanLine ((s.progAddr c0 + 128 * 31) / 128 * 128) ∧
      Flip.report ⟨1, 0⟩ false = .corrected ∧ Flip.report ⟨3, 0⟩ false = .uncorrectable) ∧
    (let s := (on {}).setIssue 0 (.array 63) { fault := some ⟨0, trAddress, 0⟩ }
     let c : CoreId := ⟨0, Fin.ofNat 8 0⟩
     (s.issue (0 : Fin 16) (.array 63)).fault = some ⟨0, trAddress, 0⟩ ∧ (s.scState c = stRunning ∨ s.scState c = stHandler) ∧
      (s.core c).wait = .none) := by
  unfold State.CleanLine; decide +kernel
/-! ### Witnesses: transfers, fabric and registers -/

/-- Transfer 0 from logical island 0 to 1 on leg 0, transfer 1 back on leg 1, 128 bytes each. -/
def plan1 : Plan := { xfers := [⟨0, 0, 128, 0, 0, 1, 0⟩, ⟨0, 0, 128, 0, 1, 1, 0⟩], legs := [⟨0, 1, 0, 1, 1, 1⟩, ⟨1, 0, 1, 1, 1, 1⟩] }
def xf1 : State := { on { g := [(1, 0x1000), (2, 0x2000), (3, 128), (4, shoalBase 1), (5, 64)] } with plans := [(0, plan1)] }
theorem witness_TransferIssue : (∀ l ∈ [[SReg.g 1, .g 2, .g 3], [.g 1], [.g 1, .g 4, .g 5]], xf1.Issues c0 l) ∧
    xf1.localSpanOk 0 0x2000 128 = true ∧ xf1.localSpanOk 0 0x1000 128 = true ∧ (xf1.core c0).xfers.length < 32 ∧
    (xf1.plan 0).sends 0 (xf1.logicalOf 0 0) = true ∧ ((xf1.plan 0).xfer 0).src ≠ 1 ∧ (xf1.xrun 0 0).send = [] ∧
    0x1000 + ((xf1.plan 0).xfer 0).bytes ≤ shoalSize ∧ (xf1.plan 0).receives 1 (xf1.logicalOf 0 0) = true ∧ (xf1.xrun 0 1).recv = [] ∧
    xf1.localSpanOk 0 0x1000 (xf1.recvBytes 0 1 (xf1.logicalOf 0 0)) = true ∧ xf1.fyCheck c0 0x1000 (shoalBase 1) 64 = 0 ∧ xf1.ferryBusy 0 (islOfLine (shoalBase 1)) 64 = false := by
  unfold State.Issues State.Sound; decide +kernel

def FTry.isSent : FTry → Bool
  | .sent _ => true
  | _ => false
/-- Node 2 is one hop away on logical link 0, which is link 7. -/
def fab1 : State := { (((((xf1.setFld (FB_TN_RT_VALID 0) 1).setFld (LK_STAT_STATE 7) 5).setFld (LK_STAT_OWNED 7) 1).setFld FB_NODE_NODE 1).setFld FB_NODE_VALID 1) with
  cores := [(0, { sect := 4096, g := [(1, 0x1000), (2, 2), (3, 128), (6, 5)] })], rtCache := [(2, 1)], linkMaps := [(0, [⟨7, 2, 0, 7⟩])] }
theorem witness_FabricOpIssue : (∀ l ∈ [[SReg.g 1, .g 2, .g 3], [.g 1, .g 2, .g 3, .g 6, .g (Fin.ofNat 32 7)], [.g 2, .g 3, .g 6, .g 7]], fab1.Issues c0 l) ∧
    2 ≠ fab1.node ∧ fab1.CleanLine (shoalBase 0 + 0x1000) ∧
    (∀ typ ∈ [ftRdReq, ftWrReq, ftAtomReq], FTry.isSent (fab1.originate
      { unit := 0, tbl := 0, node := 2, off := 128, typ := typ, vc := 0, who := .xfer (coreKey c0) 0 0 }) = true) ∧
    (fab1.tenOf 0).getD 0 = 0 := by
  unfold State.CleanLine State.Issues State.Sound; decide +kernel
theorem witness_TransferCompletes : let x : Xfer := { no := 3, pc := 0, kind := .fbAtom 5 2 8 0 1 0, cnt := 0, left := 0, val := 9 }
    let s := on { xfers := [x] }
    (s.core c0).xfers.find? (fun y => y.no == 3) = some x ∧ x.left = 0 ∧ x.status = 0 ∧ s.Sound c0 (.cw (0x040 + 15)) := by
  unfold State.Sound; decide +kernel
theorem witness_MoveCopiesShoal : let x : Xfer := { no := 3, pc := 0, kind := .xfMove 0x7FFF_FF80 0 128, cnt := 15, left := 0 }
    let s := on { xfers := [x] }
    (s.core c0).xfers.find? (fun y => y.no == 3) = some x ∧ 0x7FFF_FF80 + 128 ≤ shoalSize ∧
    (∀ k, k < 128 / 128 → s.CleanLine (shoalBase 0 + 0 + 128 * k)) ∧ s.Sound c0 (.cw (0x040 + 15)) := by
  unfold State.CleanLine State.Sound; decide +kernel
theorem witness_WaitResult_begins : let s := on { g := [(1, flagBase 1), (2, flagBase 0)] }
    (∀ l ∈ [[], [SReg.g 1], [.g 2, .g 1]], s.Issues c0 l) ∧ s.flagCheck c0 ((s.core c0).gGet 1).toNat false = 0 ∧
    s.flagCheck c0 ((s.core c0).gGet 2).toNat true = 0 ∧ (2 : BitVec 2) ≠ 3 ∧ (128 : BitVec 8).toNat ≤ 128 := by
  unfold State.Issues State.Sound; decide +kernel
/-- Each wait with its condition met and not met. -/
theorem witness_WaitResult_retires :
    (let s := on { wait := .sync 255 15 true 4 }; s.unitsClear c0 255 15 4 = true ∧ (s.core c0).xfersClear XKind.inSync 4 = true) ∧
    (let s := (on { wait := .sync 255 15 true 4 }).setIssue 0 (.array 0) { queue := [⟨3, 0, 0, .zero 0⟩] }; s.unitsClear c0 255 15 4 = false) ∧
    (((Core.cwGet {} 0x040).setWidth 32 : BitVec 32) - 0).toNat < 2 ^ 31 ∧ 2 ^ 31 ≤ (((Core.cwGet {} 0x040).setWidth 32 : BitVec 32) - 1).toNat ∧
    (let s := { on { wait := .fence true true 4 0 } with now := 1000000000 }
     (∀ y ∈ (s.core c0).xfers, 4 ≤ y.no) ∧ s.Sound c0 (.cw cwFenceLimit) ∧ 0 + fenceTicks ((s.core c0).cwGet cwFenceLimit) ≤ s.now) ∧
    (let s := on { wait := .fence true true 4 0 }; s.Sound c0 (.cw cwFenceLimit) ∧ s.now < 0 + fenceTicks ((s.core c0).cwGet cwFenceLimit)) ∧
    (on {}).Sound c0 (.cw 0x040) ∧
    (let s := on { wait := .fend 4 }; s.unitsClear c0 255 15 4 = true ∧ (s.core c0).xfersClear XKind.inFend 4 = true) := by
  unfold State.Sound; decide +kernel
/-- All four ferry ports of base tile 0 withdrawn: it has room for nothing (R255, R264). -/
def full1 (s : State) : State := (List.range 4).foldl (fun s p => s.setFld (FY_PORTS_WITHDRAWN p) 1) s
theorem witness_FlagSignals : (let s := on { g := [(1, flagBase 1)] }; s.Issues c0 [.g 1, .g 2] ∧ s.flagCheck c0 ((s.core c0).gGet 1).toNat false = 0) ∧
    (let r : Release := ⟨4, 1, flagBase 1, 7⟩
     let s := on { rels := [r] }
     s.mayRelease c0 4 = true ∧ s.mayRelease c0 5 = false ∧ (s.core c0).rels.find? (fun y => y.no == 4) = some r ∧
     s.ferryBusy 0 (flagTile r.addr) 0 = false ∧ (full1 s).ferryBusy 0 (flagTile r.addr) 0 = true) := by
  unfold State.Issues State.Sound; decide +kernel

/-- A host before READY and a host, the management controller and the upper half: each reads a register that it sees. -/
theorem witness_RegisterReadResult_sees : State.reset.fld LH_START_PHASE ≠ 9 ∧ earlyRead 0x84 = true ∧ earlyRead 0x300000 = false ∧
    (∀ p : Fin 4, ∀ a ∈ [0x180, 0x184], up.mayRead p a = true) ∧ up.windowWord 0x180 = none ∧ up.windowWord 0x20000 ≠ none := by decide +kernel
theorem witness_RegisterReadResult : let s := { up with latch := [(0, (0x180, 7))] }
    up.windowWord 0x180 = none ∧ up.fld LH_START_PHASE = 9 ∧ up.mayRead (0 : Fin 4) 0x180 = true ∧
    up.mayRead (0 : Fin 4) 0x184 = true ∧ s.latch.find? (fun x => x.1 == (0 : Fin 4).val && x.2.1 == 0x180) = some (0, (0x180, 7)) ∧
    up.latch.find? (fun x => x.1 == (0 : Fin 4).val && x.2.1 == 0x180) = none ∧ up.windowWord 0x300000 = none ∧
    up.mayRead (1 : Fin 4) 0x300000 = false := by decide +kernel
theorem witness_RegisterWriteResult : Apart (up.fieldsAt 0x2000900) ∧ up.fieldsAt 0x2000900 ≠ [] ∧ up.mayWrite (0 : Fin 4) 0x2000900 = true ∧
    up.mayWrite (1 : Fin 4) 0x2000900 = false ∧ up.fld LH_START_PHASE = 9 := by
  unfold Apart; decide +kernel
theorem witness_OwnerWriteResult : let s := (up.setFld (LK_STAT_STATE 31) 5).setFld (LK_STAT_OWNED 31) 1
    s.fld LH_START_PHASE = 9 ∧ s.ownsTen (0 : Fin 4) (0 : Fin 16) = true ∧ s.ownsLink (0 : Fin 4) (31 : Fin 32) = true ∧
    s.fld (LK_CTL_TARGET 31) < 4 ∧ s.lkState 31 = lsUp := by decide +kernel
/-- The ferry ports of base tile 5 withdrawn. -/
def fullTile5 (s : State) : State := (List.range 4).foldl (fun s p => s.setFld (FY_PORTS_WITHDRAWN p) (2 ^ 5)) s
theorem witness_HostPortResult : let s := ((up.setFld (HP_WIN_A_VALID 0 15) 1).setFld (HP_WIN_A_KIND 0 15) 1).setFld (HP_WIN_A_SIZE_GIB 0 15) 2
    State.reset.fld LH_START_PHASE ≠ 9 ∧ s.fld LH_START_PHASE = 9 ∧ spanLines 0x7FFF_FF80 (max (128 : Fin 4097).val 1) = 1 ∧
    s.ferryBusy (portTile (0 : Fin 4)) 0 1 = false ∧ s.ferryBusy (portTile (0 : Fin 4)) (portTile (0 : Fin 4)) 1 = false ∧
    (fullTile5 s).ferryBusy (portTile (0 : Fin 4)) 0 1 = true ∧ s.barTarget (0 : Fin 4) 0x8000_0000 = none ∧
    s.barTarget (0 : Fin 4) 0x7FFF_FF80 = some (0, shoalBase 0 + 0x7FFF_FF80) := by decide +kernel
/-! ### Witnesses: the memory fabric, the links, HBM and the walker -/

theorem witness_FabricControlResult : let d := { up.setFld FB_HT_CTL_DRAINING 1 with now := 100 }
    up.fld FB_NODE_VALID ≠ 1 ∧ fab1.fld FB_NODE_VALID = 1 ∧ up.fld FB_HT_CTL_DRAINING ≠ 1 ∧ d.fld FB_HT_CTL_DRAINING = 1 ∧
    us 50 ≤ d.now - d.htSwitchAt ∧ up.fld FB_MBOX_CTL_BUSY ≠ 1 ∧ up.fld FB_MBOX_ADDR_NODE = up.node ∧
    up.ferryBusy 0 0 1 = false := by decide +kernel

def fin1 (p : FPkt) : State := fab1.setLk 7 { inq := [{ pkt := p, at_ := 0 }] }
def taken (r : Option (FIn × State)) (f : FIn → State → Bool) : Bool := match r with | some (e, z) => f e z | none => false
/-- A packet passing on, a response to request 5, and the next request of a stream. -/
theorem witness_FabricTrafficResult_arrive :
    (let s := fin1 { typ := ftRdReq, vc := 0, dstNode := 9, hop := 0, hops := 2, path := 7, life := 1 }
     s.lostPkts.find? (fun e => e.1 == (7 : Fin 32).val) = none ∧
     taken (s.takeIn 7 (fun p => match s.hop p with | .deliver => false | _ => true)) (fun f z => !f.pkt.haldula && decide (f.pkt.hop < f.pkt.hops) &&
       decide (5 * (z.now - f.at_) < f.pkt.life) && z.lkState (pathAt f.pkt.path f.pkt.hop) == lsUp) = true) ∧
    (let r : FReq := { pkt := { typ := ftRdReq, vc := 0, dstNode := 2, eseq := 3 }, unit := 0, dunit := 0, ten := 0, who := .mbox, first := 0, lastTx := 0 }
     (∀ unit ∈ [0, 15, 16], let s := { fin1 { typ := ftRdRsp, vc := 0, srcNode := 1, dstNode := 2, eseq := 3, tag := 5, life := 1 } with
          freqs := [(5, { r with unit := unit })] }
       taken (s.takeIn 7 (fun p => !p.isRequest && (match s.hop p with | .deliver => true | _ => false))) (fun f z =>
         decide (z.freqs.find? (fun e => e.1 == f.pkt.tag && e.2.pkt.eseq == f.pkt.eseq && e.2.pkt.dstNode == f.pkt.dstNode) =
           some (5, { r with unit := unit })) && f.pkt.life != 0 && f.pkt.typ != ftNack) = true)) ∧
    (∀ e ∈ [(0, 0), (0xC0000000000, 16)],
     let p : FPkt := { typ := ftRdReq, vc := if e.2 = 16 then 3 else 0, srcNode := 2, dstNode := 1, srcUnit := if e.2 = 16 then 16 else 0,
                       eseq := 0xFFFFFF, life := 1, offset := e.1, hops := 1, hop := 1 }
     let s := { fin1 p with dctxs := [{ node := 2, unit := p.srcUnit, dunit := e.2, vc := p.vc, incarn := 0, expect := 0xFFFFFF, lastAt := 0 }] }
     taken (s.takeIn 7 (fun p => p.isRequest && (match s.hop p with | .deliver => true | _ => false))) (fun f z =>
       f.pkt.life != 0 && !z.asleep && !f.pkt.malformed && f.pkt.typ != ftAstatReq && f.pkt.typ != ftAtomReq && dunitOf f.pkt.offset == e.2 &&
       (z.dctxs.find? (fun d => d.is f.pkt)).isSome && z.captured f.pkt.offset == none) = true) ∧
    (∀ kind ∈ [CrossKind.out, .request], let p : FPkt := { typ := ftRdReq, vc := 0, srcNode := 2, dstNode := 1, life := 1, hops := 1, hop := 1 }
     let s := fab1.crossBase 0 0 { kind := kind, link := 7, pkt := p, at_ := 0 }
     ∀ q ∈ (s.tile 0).here, s.nextHere (s.tile 0).here [] = some q ∧
       s.crossing.find? (fun e => e.1 == crossKey q) = some (crossKey q, { kind := kind, link := 7, pkt := p, at_ := 0 })) ∧
    (fab1.crossBase 0 0 { kind := .out, link := 7, pkt := { typ := ftRdReq, vc := 0 }, at_ := 0 }).lkState 7 = lsUp := by decide +kernel
def freq1 (typ now : Nat) (r : FReq) : State := { fab1 with now := now, freqs := [(5, { r with pkt := { r.pkt with typ := typ, dstNode := 2 } })] }
theorem witness_FabricTrafficResult_retry :
    let r : FReq := { pkt := { typ := 0, vc := 0 }, unit := 0, dunit := 0, ten := 0, who := .xfer 0 4 0, first := 0, lastTx := 0 }
    (let s := freq1 ftRdReq 2000 r
     ∀ e ∈ s.freqs, e.2.spent s.now = false ∧ e.2.busy = none ∧
       us (if s.fld FB_CFG_TIMEOUT = 0 then 1000 else s.fld FB_CFG_TIMEOUT) ≤ s.now - e.2.lastTx ∧ e.2.retries < 3 ∧
       (((s.bump FB_STAT_RETRIES 1).resend 5 { e.2 with retries := e.2.retries + 1 } false).1).isSome = true) ∧
    (let s := freq1 ftRdReq 20 { r with busy := some 0 }
     us 10 ≤ s.now - 0 ∧ ∀ e ∈ s.freqs, e.2.spent s.now = false ∧ (((s.bump FB_STAT_RESENDS 1).resend 5 e.2 false).1).isSome = true) ∧
    (let s := freq1 ftAtomReq (ms 10) r; ∀ e ∈ s.freqs, e.2.spent s.now = true ∧ e.2.pkt.typ = ftAtomReq) ∧
    (let c : HCmd := { key := 0, op := opAtomic, ten := 0 }
     let s := freq1 ftAtomReq (ms 16 - 1) { r with unknown := true, query := [c], queryAt := some 0 }
     ms 16 ≤ ms 16 - 0 ∧ us 50 ≤ s.now - 0 ∧ ms 1 ≤ s.now - 0 ∧ s.now - 0 < ms 16) := by decide +kernel

def lnk (l : List (Fld × Nat)) (now : Nat) (x : Lk) : State :=
  { (l.foldl (fun s p => s.setFld p.1 p.2) fab1).setLk 7 x with now := now }
theorem witness_LinkStateResult :
    (let s := lnk [(LK_STAT_STATE 7, 0), (LK_CTL_TARGET 7, 2)] 0 {}
     s.lkState 7 = lsDown ∧ s.lkTarget 7 = 2 ∧ (s.lk 7).failedAt = none ∧ 3 ≤ s.fld LH_START_PHASE ∧ s.fld LH_START_PHASE ≤ 9) ∧
    (let s := lnk [(LK_STAT_STATE 7, 3)] (ms 20 + 1) {}
     1 ≤ s.lkState 7 ∧ s.lkState 7 < 4 ∧ (s.lk 7).since + stepLimit (s.lkState 7) (s.flash.calRec 9 7).isNone < s.now) ∧
    (let s := lnk [(LK_STAT_STATE 7, 4)] 0 {}
     s.lkState 7 = 4 ∧ s.fld FB_NODE_VALID ≠ 0 ∧ 4 ≤ (mapLanes (dropLanes (s.fld (LK_MAP_TX_MAP 7)) 0xF0)).length ∧
     dropLanes (s.fld (LK_MAP_TX_MAP 7)) 0xF0 < 2 ^ 32 ∧ 4 ≤ (mapLanes (dropLanes (s.fld (LK_MAP_RX_MAP 7)) 0x0F)).length ∧
     dropLanes (s.fld (LK_MAP_RX_MAP 7)) 0x0F < 2 ^ 32) ∧
    (let s := lnk [(LK_STAT_STATE 7, 0), (LK_CTL_TARGET 7, 3)] (ms 10000) { failedAt := some 0 }
     s.lkState 7 = lsDown ∧ 0 + ms 10000 ≤ s.now ∧ s.lkTarget 7 = 2 ∧ 3 ≤ s.fld LH_START_PHASE ∧ s.fld LH_START_PHASE ≤ 9) ∧
    (let s := lnk [] (ms 1) { quieting := true, quietSent := some 0 }
     s.lkState 7 = lsUp ∧ (s.lk 7).quietSent = some 0 ∧ 0 + ms 1 ≤ s.now ∧ (s.lk 7).lastRx + us 10 ≤ s.now) ∧
    (let s := lnk [(LK_STAT_STATE 7, 6), (LK_CTL_TARGET 7, 2)] 0 {}; s.lkState 7 = lsQuiet ∧ s.lkTarget 7 = 2) ∧
    (let s := lnk [(LK_STAT_STATE 7, 7)] (ms 50 + 1) {}; s.lkState 7 = lsRetrain ∧ (s.lk 7).since + ms 50 < s.now) ∧
    (let s := lnk [] (us 8) { nakFirst := some 0 }; (s.lk 7).nakFirst ≠ none ∧ (s.lk 7).nakLast + us 8 ≤ s.now) := by decide +kernel

/-- The codeword of R328 for an IDLE flit of node 0 and link 0 on line position 0: its FTYPE, its CRC, its parity. -/
def cw1 : Nat := 2 + 2183392368 * 2 ^ 5088 +
  907323155155638416497952138923592916065667148064971918331780743261134893192517376436583210 * 2 ^ 5140
def syms1 : List Nat := 2 :: (List.replicate 508 0 ++ [796, 574, 520, 0, 0, 810, 750, 386, 374, 753, 617, 979, 657, 658, 133, 995, 698,
  984, 430, 76, 27, 782, 966, 974, 456, 85, 161, 327, 749, 977, 524, 6, 839, 105, 456])
def msg1 : Nat := 2 + 2183392368 * 2 ^ 5088
def flit1 : List Byte := 2 :: (List.replicate 635 0 ++ [0x70, 0xEC, 0x23, 0x82])
/-- A left fold over numbers that evaluates its value at every element, so that the kernel's work stays shallow. -/
def strictFold {α : Type} (f : Nat → α → Nat) : Nat → List α → Nat
  | a, [] => a
  | a, x :: l => match f a x with
    | 0 => strictFold f 0 l
    | n + 1 => strictFold f (n + 1) l
theorem strictFold_eq {α : Type} (f : Nat → α → Nat) (l : List α) : ∀ a, strictFold f a l = l.foldl f a := by
  induction l with
  | nil => intro a; rfl
  | cons x l ih =>
    intro a
    show (match f a x with | 0 => strictFold f 0 l | n + 1 => strictFold f (n + 1) l) = l.foldl f (f a x)
    cases f a x <;> exact ih _
def strictBytes : Nat → Nat → List Byte
  | 0, _ => []
  | n + 1, x => BitVec.ofNat 8 x :: (match x / 256 with | 0 => List.replicate n 0 | y + 1 => strictBytes n (y + 1))
theorem leBytes_zero : ∀ n, leBytes n 0 = List.replicate n 0
  | 0 => rfl
  | n + 1 => by show BitVec.ofNat 8 0 :: leBytes n 0 = _; rw [leBytes_zero n]; rfl
theorem strictBytes_eq : ∀ n x, strictBytes n x = leBytes n x
  | 0, _ => rfl
  | n + 1, x => by
    show BitVec.ofNat 8 x :: (match x / 256 with | 0 => List.replicate n 0 | y + 1 => strictBytes n (y + 1)) =
      BitVec.ofNat 8 x :: leBytes n (x / 256)
    cases x / 256 with
    | zero => rw [leBytes_zero]
    | succ y => rw [← strictBytes_eq n (y + 1)]
def synZero (x : Nat) : Bool := match x with
  | 0 => false
  | y + 1 => strictFold (fun a c => gf10.mul a (y + 1) ^^^ c) 0 syms1 == 0
theorem witness_LinkLaneResult_syms : (List.range 544).map (fun j => bits cw1 (10 * j) 10) = syms1 := by decide +kernel
theorem witness_LinkLaneResult_syndromes : (List.range 30).all (fun i => synZero (gf10.alpha i)) = true := by decide +kernel
theorem synZero_horner (x : Nat) (h : synZero x = true) : gf10.horner syms1 x = 0 := by
  cases x with
  | zero => simp [synZero] at h
  | succ y => rw [GF.horner, ← strictFold_eq]; simpa [synZero] using h
theorem decode_codeword (f : GF) (n : Nat) (r : List Nat) (h : ∀ i < n, f.horner r (f.alpha i) = 0) : f.decode n r = some (r, 0) := by
  have e : (f.syndromes n r).all (· == 0) = true := by simpa [GF.syndromes] using h
  unfold GF.decode GF.decodeErase
  simp [e]
theorem witness_LinkLaneResult_decode : gf10.decode 30 syms1 = some (syms1, 0) :=
  decode_codeword _ _ _ fun i hi =>
    synZero_horner _ (List.all_eq_true.1 witness_LinkLaneResult_syndromes i (List.mem_range.2 hi))
theorem witness_LinkLaneResult_message : (List.range 514).foldl (fun n j => n + syms1.getD j 0 * 2 ^ (10 * j)) 0 = msg1 := by
  rw [← strictFold_eq]; decide +kernel
theorem witness_LinkLaneResult_bytes : leBytes 640 msg1 = flit1 := by rw [← strictBytes_eq]; decide +kernel
theorem witness_LinkLaneResult_crc : fieldAt flit1 636 4 = crc32c (0xC3000000 + 0 * 2 ^ 16 + 0 % 256 * 2 ^ 8) (flit1.take 636) := by
  rw [crc32c, crcBytes, ← strictFold_eq]; decide +kernel
theorem witness_LinkLaneResult_flit : bits msg1 5120 4 = (0 : Fin 9).val ∧ flitFieldsOk flit1 = true := by decide +kernel
/-- The state in which that codeword waits for its round, and whether the round is complete: of one lane, and of eight. -/
def held1 (s : State) : State :=
  let z := s.countLane 7 0 0 false
  ((z.setLk 7 { z.lk 7 with relock := (z.lk 7).relock.erase 0 }).setFld (LK_LANE_RING_LOCKED 7 0) 1).rxHold 7 ⟨bits msg1 5128 12, 0, some (msg1 % 2 ^ 5120)⟩
theorem witness_LinkLaneResult_round :
    let ps := fun (y : State) => (mapLanes (y.fld (LK_MAP_RX_MAP 7))).map (fun j => y.fld (LK_MAP_RX_MAP 7) / 16 ^ j % 16)
    let at_ := fun (y : State) (p : Nat) => (y.lk 7).rxWait.find? (fun e => e.count == (y.lk 7).rxAt && e.pos == p)
    (let y := held1 (lnk [(LK_MAP_RX_MAP 7, 0xFFFFFFF0)] 0 {}); ps y = [0] ∧ (y.lk 7).swRx = none ∧ (at_ y 0).isSome = true) ∧
    (let y := held1 fab1; 7 ∈ ps y ∧ (y.lk 7).swRx = none ∧ (at_ y 7).isSome = false) := by decide +kernel
theorem witness_LinkLaneResult :
    (up.lkState 7 < 3) ∧ (4 ≤ fab1.lkState 7 ∧ fab1.lkState 7 ≠ lsQuiet ∧ (fab1.lk 7).swTx = none) ∧
    (let s := lnk [] 0 { swTx := some (0xFFFF3210, 0), swRx := some (0x76543210, 0) }
     4 ≤ (mapLanes 0xFFFF3210).length ∧ (mapLanes 0xFFFFF210).length < 4 ∧ (s.lk 7).swTx = some (0xFFFF3210, 0) ∧ 0 ≤ (s.lk 7).round ∧
     (s.lk 7).waiting = [] ∧ (s.lk 7).swRx = some (0x76543210, 0) ∧ ((s.lk 7).rxAt + 4096 - 0) % 4096 < 2048) ∧
    ((fab1.lk 7).swTx = none ∧ fab1.fld (LK_MAP_TX_MAP 7) / 16 ^ (7 : Fin 8).val % 16 ≠ 15) ∧
    (let s := lnk [] (ms 1) { relock := [(0, 0)] }
     (s.lk 7).relock.find? (fun e => e.1 == (0 : Fin 9).val) = some ((0 : Fin 9).val, 0) ∧
     (List.range 8).find? (fun j => s.fld (LK_MAP_RX_MAP 7) / 16 ^ j % 16 == (0 : Fin 9).val) = some 0 ∧ 0 + ms 1 ≤ s.now) := by decide +kernel

def hb1 : State := ((up.setFld (BT_MC_REGION_DETECT_ONLY 0 0) 0).setFld (BT_MC_LAYOUT_STACK_PAGES 0) 2).setFld (BT_MC_SCRUB_CFG_ENABLE 0) 1
/-- The last line of the region, sound, poisoned, and with a stored CRC that has changed. -/
def hbCheck (s : State) (e : PageErr) : LineRes := (s.strike 0 0x7FFF_FF80 e).lineCheck (hbmBase 0 + 0x7FFF_FF80)
theorem witness_HbmResult_check :
    hbCheck hb1 ⟨[], [], 0⟩ = .good ∧ hbCheck (hb1.poisonLine (hbmBase 0 + 0x7FFF_FF80)) ⟨[], [], 0⟩ = .poisoned ∧
    hbCheck hb1 ⟨[], [(31, 1)], 0⟩ = .uncorrectable :=
  ⟨Laws.lineCheck_good _ _ (by decide +kernel) (by decide +kernel), Laws.lineCheck_poisoned _ _ (by decide +kernel) (by decide +kernel),
    Laws.lineCheck_crc _ _ (by decide +kernel) (by decide +kernel) (by decide +kernel)⟩
/-- The page decoder of a page that is all zero, of which only a stored CRC has changed: it corrects nothing. -/
theorem mul_zero_left (f : GF) (x : Nat) : f.mul 0 x = 0 := by
  have go : ∀ n b, f.mulGo n 0 b 0 = 0 := by
    intro n
    induction n with
    | zero => intro b; rfl
    | succ n ih =>
      intro b
      have d : f.double 0 = 0 := by simp [GF.double]
      simp [GF.mulGo, d, ih]
  exact go _ _
theorem foldl_replicate {α β : Type} (f : α → β → α) (a : α) (b : β) (h : f a b = a) : ∀ n, (List.replicate n b).foldl f a = a
  | 0 => rfl
  | n + 1 => by simp only [List.replicate_succ, List.foldl_cons, h, foldl_replicate f a b h n]
theorem horner_zeros (f : GF) (n x : Nat) : f.horner (List.replicate n 0) x = 0 :=
  foldl_replicate _ _ _ (by simp [mul_zero_left]) n
theorem parity_zeros : gf16.parity 16 (List.replicate 2048 0) = List.replicate 16 0 :=
  foldl_replicate _ _ _ (by decide +kernel) 2048
theorem peek_empty (s : State) (h : s.mem = []) : ∀ n a, s.peek a n = 0
  | 0, _ => rfl
  | n + 1, a => by
    have b : s.byte a = 0 := by simp [State.byte, h, readByte, unlisted]
    simp [State.peek, b, peek_empty s h n (a + 1)]
def hb2 : State := (hb1.setFld (BT_MC_REGION_LEVEL 0 0) 1).strike 0 0x7FFF_FF80 ⟨[], [(31, 1)], 0⟩
theorem hb2_raw (l : Nat) (h : l ∈ pageLines (hbmBase 0 + 0x7FFF_FF80)) : hb2.lineRaw l = 0 := by
  have e : ∀ l ∈ pageLines (hbmBase 0 + 0x7FFF_FF80), (hb2.pageDamage l).line (lineIx l) = 0 := by decide +kernel
  simp [State.lineRaw, peek_empty hb2 rfl, e l h]
theorem hb2_word : hb2.pageWord (hbmBase 0 + 0x7FFF_FF80) 16 = List.replicate 2064 0 := by
  have z : (pageLines (hbmBase 0 + 0x7FFF_FF80)).flatMap (fun _ => lineSyms 0) = List.replicate 2048 0 := by decide +kernel
  have d : (pageLines (hbmBase 0 + 0x7FFF_FF80)).flatMap (fun l => lineSyms (hb2.lineRaw l)) = List.replicate 2048 0 := by
    rw [← z, List.flatMap_def, List.flatMap_def]
    exact congrArg List.flatten (List.map_congr_left fun l h => by rw [hb2_raw l h])
  have c : hb2.pageCode (hbmBase 0 + 0x7FFF_FF80) 16 = List.replicate 16 0 := by
    unfold State.pageCode
    simp only [peek_empty hb2 rfl, z, parity_zeros]
  have y : (hb2.pageDamage (hbmBase 0 + 0x7FFF_FF80)).syms = [] := by decide +kernel
  unfold State.pageWord
  rw [d]
  simp only [State.pageRecord, c, y]
  decide +kernel
/-- A page word that is a codeword, with nothing erased, is decoded as it stands (R288). -/
theorem pageDecode_codeword (s : State) (i o par : Nat) (w : List Nat) (p : paritySyms (s.fld (BT_MC_REGION_LEVEL i (s.regionOf i o))) = par)
    (l : s.lostSyms i o par = []) (hw : s.pageWord (hbmBase i + o) par = w) (e : gf16.decodeErase par w [] = some (w, 0)) :
    s.pageDecode i o = .ok w 0 0 := by
  unfold State.pageDecode
  simp only [p, l, hw, e]
  simp
theorem witness_HbmResult_decode : hb2.pageDecode 0 0x7FFF_FF80 = .ok (List.replicate 2064 0) 0 0 := by
  have p : paritySyms (hb2.fld (BT_MC_REGION_LEVEL 0 (hb2.regionOf 0 0x7FFF_FF80))) = 16 := by decide +kernel
  have l : hb2.lostSyms 0 0x7FFF_FF80 16 = [] := by decide +kernel
  have e : gf16.decodeErase 16 (List.replicate 2064 0) [] = some (List.replicate 2064 0, 0) :=
    decode_codeword _ _ _ fun i _ => horner_zeros _ _ _
  exact pageDecode_codeword _ _ _ 16 _ p l hb2_word e
/-- With more symbols lost than there is parity no try is made (R288). -/
theorem pageDecode_lost (s : State) (i o par : Nat) (p : paritySyms (s.fld (BT_MC_REGION_LEVEL i (s.regionOf i o))) = par)
    (h : par < (s.lostSyms i o par).length) : s.pageDecode i o = .failed := by
  have n (r : List Nat) : gf16.decodeErase par r (s.lostSyms i o par) = none := by simp [GF.decodeErase, h]
  have m (q : Nat → Bool) : par < ((List.range (2048 + par)).filter (fun y => (s.lostSyms i o par).contains y || q y)).length := by
    refine Nat.lt_of_lt_of_le h ?_
    obtain ⟨f, e⟩ : ∃ f, s.lostSyms i o par = (List.range (2048 + par)).filter f := ⟨_, rfl⟩
    rw [e, ← List.countP_eq_length_filter, ← List.countP_eq_length_filter]
    refine List.countP_mono_left fun y hy hq => ?_
    simp only [Bool.or_eq_true, List.contains_iff_mem]
    exact .inl (List.mem_filter.2 ⟨hy, hq⟩)
  unfold State.pageDecode
  simp only [p, n, m, if_true]
/-- Every symbol is lost with its channel. -/
theorem witness_HbmResult_failed :
    (hb2.setFld (BT_MC_STK_ERASE_CHANNELS 0 (stackOf 0x7FFF_FF80)) 0xFFFFFFFF).pageDecode 0 0x7FFF_FF80 = .failed :=
  pageDecode_lost _ _ _ 16 (by decide +kernel) (by decide +kernel)
theorem witness_HbmResult_detect : let s := hb1.setFld (BT_MC_REGION_DETECT_ONLY 0 0) 1
    s.detectOnly 0 0x7FFF_FF80 = true ∧ s.lineCheck (hbmBase 0 + 0x7FFF_FF80) = .good ∧ hbCheck s ⟨[], [(31, 1)], 1⟩ = .uncorrectable :=
  ⟨by decide +kernel, Laws.lineCheck_good _ _ (by decide +kernel) (by decide +kernel),
    Laws.lineCheck_crc _ _ (by decide +kernel) (by decide +kernel) (by decide +kernel)⟩
theorem witness_HbmResult :
    hb1.hbmReach 0 (0x7FFF_FFFF / 128 * 128) 9 true = true ∧ hb1.hbmReach 0 (0x7FFF_FFFF / 128 * 128) 1 false = true ∧
    hb1.retired 0 0x7FFF_FF80 = false ∧ hb1.msc = [] ∧ hb1.detectOnly 0 0x7FFF_FF80 = false ∧
    (hb1.setFld (BT_MC_REGION_DETECT_ONLY 0 0) 1).detectOnly 0 0x7FFF_FF80 = true ∧
    (hb1.setFld (BT_MC_STK_STAT_RECOVERY 0 7) 1).fld (BT_MC_STK_STAT_RECOVERY 0 7) ≠ 0 ∧
    hb1.scrubs 0 7 = true ∧ 0 + 1 < hb1.stackPages 0 ∧ hb1.retired 0 (pageOff 7 0) = false ∧
    { hb1 with retPages := [hbmBase 0 + pageOff 7 0] }.retired 0 (pageOff 7 0) = true ∧
    (∃ y ∈ ((hb1.strike 0 (pageOff 7 0) ⟨[(2048, 1)], [], 0⟩).pageDamage (hbmBase 0 + pageOff 7 0)).syms, 2048 ≤ y.1) ∧
    (let s := { (hb1.setFld (BT_MC_SCRUB_CFG_SLOW_THRESHOLD 0) 1) with now := second, laps := [(7, { part := false })] }
     s.fld (BT_MC_SCRUB_CFG_SLOW_THRESHOLD 0) ≠ 0 ∧ (s.lap 0 7).part = false ∧ (s.lap 0 7).slow = false ∧
     s.fld (BT_MC_SCRUB_CFG_SLOW_THRESHOLD 0) ≤ s.lapElapsed 0 7) ∧
    ({ up with flips := [((FlipAt.mem (shoalBase 0 + 8 * 268435455)).key, ⟨1, 0⟩)] } : State).check
      (.mem (shoalBase (0 : Fin 16) + 8 * (268435455 : Fin 268435456).val)) true = .corrected := by decide +kernel

/-- A walker with one descriptor: 128 positions of 128 bytes from position 0, to shoal 0x1000, page table at the first HBM byte. -/
def kv1 : State := ((((up.setFld (BT_DM_KV_CFG_ENABLE 0) 1).setFld (BT_DM_KV_CFG_PROD_WORD 0) 1).poke (flagBase 0 + 8) 8 1).poke (shoalBase 0) 32
  (0x10000000000 + 1 * 2 ^ 96 + 7 * 2 ^ 112 + 0x1000 * 2 ^ 128))
theorem witness_WalkerResult : kv1.tenOf (0 : Fin 16) = some 0 ∧ kv1.tn 0 = tnRunning ∧ kv1.tenOf (2 : Fin 16) = none ∧ (kv1.kv 2).done = none ∧
    kv1.fld (BT_DM_KV_CFG_ENABLE 0) ≠ 0 ∧ kv1.fld (BT_DM_KV_STAT_BUSY 0) ≠ 1 ∧ kv1.fld (BT_DM_KV_STAT_FAULTED 0) ≠ 1 ∧ (kv1.kv 0).flight = [] ∧
    (kv1.kv 0).quiet = false ∧ (kv1.kvProd 0 + 2 ^ 64 - (kv1.kv 0).consumed) % 2 ^ 64 = 1 ∧ 1 ≤ kv1.kvRing 0 ∧
    (let r := (kv1.setConsumed 0 1).shoalRead 0 0 32
     r.2.1 = [] ∧ (KvDesc.of r.1).check = 0) ∧ (KvDesc.of 0).check ≠ 0 ∧
    (let s := up.setFld (BT_DM_KV_STAT_BUSY 0) 1
     s.fld (BT_DM_KV_STAT_BUSY 0) ≠ 0 ∧ (s.kv 0).todo = [] ∧ (s.kv 0).flight = [] ∧ (s.kv 0).ends = none) := by decide +kernel
/-! ### Witnesses: DMA, power, start-up -/

/-- Channel 512 runs a program of 16 instructions in shoal of logical island 0. -/
def dm1 (c : DCh) : State := ((((((up.setFld (dmState 512) dsRunning).setFld (HP_DM_CH_PROGLEN_COUNT 0 0) 16).setFld (HP_DM_CH_PROG_TGT 0 0) 36)).setCh 512 c))
theorem witness_DmaBegins_fetch : let s := dm1 { fetch := 15 }
    s.dmaReady (512 : Fin 544) = true ∧ (s.ch (512 : Fin 544)).fetch < s.chLength (512 : Fin 544) ∧ (s.dmaFetch (512 : Fin 544) true).1 = 0 := by
  decide +kernel
theorem witness_DmaStreamBegins : (let v := 1 + 36 * 2 ^ 10 + 0xFF_FFFF * 2 ^ 96
     v % 16 = 1 ∧ bits v 120 8 = 0 ∧ bits v 96 24 ≠ 0 ∧ tgtOk 512 (bits v 4 6) = true ∧ tgtOk 512 (bits v 10 6) = true) ∧
    (let v := 2 + 31 * 2 ^ 4 + 36 * 2 ^ 10 + 1 * 2 ^ 96
     v % 16 = 2 ∧ bits v 112 16 = 0 ∧ listOk 512 (bits v 4 6) (strided [] (bits v 16 40) (·.sstride)) (bits v 96 16) = true ∧ tgtOk 512 (bits v 10 6) = true) ∧
    (let v := 3 + 36 * 2 ^ 4 + 31 * 2 ^ 10 + 0xFFFF * 2 ^ 96
     v % 16 = 3 ∧ bits v 112 16 = 0 ∧ listOk 512 (bits v 4 6) (strided [] (bits v 16 40) (·.dstride)) (bits v 96 16) = true ∧
       tgtOk 512 (bits v 10 6) = true) := by decide +kernel
theorem witness_DmaControlBegins : let f : DLoop := ⟨1, 4, 3, 0, 0⟩
    (let v := 4 + 0 * 2 ^ 4; v % 16 = 4 ∧ bits v 108 20 = 0 ∧ ([f, f, f] : List DLoop).length < 4) ∧
    (bits 5 4 124 = 0 ∧ [f].getLast? = some f ∧ f.count ≠ 0 ∧ f.count ≤ f.iter + 1 ∧ (⟨1, 4, 2, 0, 0⟩ : DLoop).iter + 1 < 4) ∧
    (let v := 6 + 2 * 2 ^ 6 + 1 * 2 ^ 8 + 0x1FFFF * 2 ^ 12
     v % 16 = 6 ∧ bits v 29 35 = 0 ∧ bits v 6 2 ≠ 3 ∧ bits v 4 2 = 0 ∧ (dm1 {}).dmaFlag 512 (bits v 8 4) (bits v 12 17) = some (flagBase 1 + 8 * 0x1FFFF) ∧
     hostCh 512 = true) ∧
    (let v := 6 + 1 * 2 ^ 4 + 7 * 2 ^ 64; bits v 4 2 = 1 ∧ bits v 6 2 ≠ 3 ∧ bits v 64 64 < (dm1 {}).fld (TN_FRAME_CFG_FRAME_SLOTS ((dm1 {}).chTen 512))) ∧
    (let v := 6 + 2 * 2 ^ 4 + 0xFFFF * 2 ^ 64; v % 16 = 6 ∧ bits v 4 2 = 2 ∧ 1 ≤ bits v 64 64 ∧ bits v 64 64 ≤ 65535) ∧
    (let v := 7 + 2 * 2 ^ 4 + 0xFFFF * 2 ^ 64; v % 16 = 7 ∧ bits v 4 2 = 2 ∧ bits v 80 48 = 0) ∧
    (let v := 7 + 1 * 2 ^ 4; v % 16 = 7 ∧ bits v 6 2 = 0 ∧ bits v 29 35 = 0 ∧ bits v 4 2 < 2 ∧ (dm1 {}).dmaFlag 512 (bits v 8 4) (bits v 12 17) = some (flagBase 0)) ∧
    bits 8 4 124 = 0 ∧ bits 9 4 124 = 0 := by decide +kernel
theorem witness_DmaChannelResult :
    (let c : DCh := { reqs := [(0, ⟨0, 0, 0, 16, 0, 0, 0, false, false⟩), (1, ⟨0, 1, 0, 16, 0, 0, 0, false, false⟩)], back := [⟨1, 0, 0⟩, ⟨0, 0, 5⟩] }
     c.back.find? (fun x => c.reqs.any (fun e => e.1 == x.no && e.2.kind != 1)) = some ⟨0, 0, 5⟩ ∧
     c.back.find? (fun x => c.reqs.any (fun e => e.1 == x.no && e.2.kind == 1)) = some ⟨1, 0, 0⟩) ∧
    (let a : DAct := ⟨0, 0, 1, .wait 0 0 0 0 0 true⟩
     let s := (dm1 { acts := [a] }).setFld (dmState 512) dsWaiting
     (s.ch 512).acts.find? (fun a => match a.op with | .wait _ _ _ _ _ true => true | _ => false) = some a ∧ s.fld (dmState 512) = dsWaiting ∧
     (s.ch 512).stop = 0 ∧ (s.ch 512).quiet = false) ∧
    (let s := (dm1 { stop := 8 }).setFld (dmState 512) dsDraining
     s.fld (dmState 512) = dsDraining ∧ (s.ch 512).reqs = [] ∧ (s.ch 512).back = []) ∧
    (let s := (up.setFld (HP_DM_CH_PROGLEN_COUNT 0 0) 65536)
     s.fld (dmState (hostKey 0 0)) = dsIdle ∧ s.fld (TN_STATE_STATE (s.fld (HP_DM_CH_PROG_TENANCY 0 0))) ≠ tnFree ∧
     s.fld (TN_STATE_PORT (s.fld (HP_DM_CH_PROG_TENANCY 0 0))) = (0 : Fin 4).val ∧ s.fld (HP_DM_CH_PROGLEN_COUNT 0 0) ≠ 0 ∧
     s.fld (HP_DM_CH_PROGLEN_COUNT 0 0) ≤ 65536) ∧
    ((up.setFld (dmState (hostKey 3 7)) dsHalted).fld (dmState (hostKey 3 7)) = dsHalted) ∧ (dm1 {}).fld (dmState (hostKey 0 0)) = dsRunning := by
  decide +kernel

def sup (now : Nat) (p : Supply) : State := { up with now := now, supply := p }
theorem witness_SupplyResult : (∃ b : BitVec 16, ({ meas := [b.toNat] } : Supply).mean < 4900) ∧ ({ meas := [5801] } : Supply).mean > 5800 ∧
    (up.setFld LH_PWR_STAT_MARGIN 1).fld LH_PWR_STAT_MARGIN = 1 ∧ 4900 ≤ ({ meas := [4900] } : Supply).mean ∧
    (let s := (sup (ms 10) { good := some 0 }).setFld LH_PWR_STAT_LOW_SUPPLY 1
     s.supply.good = some 0 ∧ s.fld LH_PWR_STAT_LOW_SUPPLY = 1 ∧ ms 10 ≤ s.now - 0) ∧
    (let s := sup (us 100) { under := some 0 }; s.supply.under = some 0 ∧ us 100 ≤ s.now - 0 ∧ s.fld LH_PWR_STAT_STATE ≠ 4) ∧
    (let s := sup (us 10) { above := some 0 }; s.supply.above = some 0 ∧ us 10 ≤ s.now - 0) ∧
    (let s := sup 0 { meas := [4399] }; s.supply.meas ≠ [] ∧ s.supply.mean < 4400) ∧
    bitOf up.convDown (15 : Fin 16) = false ∧ bitOf ({ up with convDown := 0x8000 } : State).convDown (15 : Fin 16) = true ∧
    bitOf 15 (15 : Fin 16) = false ∧ 4 < popc 16 (15 ||| 2 ^ (15 : Fin 16).val) ∧ popc 16 (0 ||| 2 ^ (15 : Fin 16).val) ≤ 4 ∧
    up.capNow < (21501 : BitVec 32).toNat ∧ (21500 : BitVec 32).toNat ≤ up.capNow := by
  refine ⟨⟨4899, ?_⟩, ?_⟩ <;> decide +kernel
def pw (n : Nat) : State := ((up.setFld LH_PWR_STAT_STATE n).setFld (TN_STATE_STATE 0) 4)
theorem witness_PowerStateResult : (up.fld LH_PWR_STAT_STATE = 0 ∧ up.fld LH_START_PHASE = 9 ∧ up.running (0 : Fin 16) = true) ∧
    (let s := pw 1
     s.fld LH_PWR_STAT_STATE = 1 ∧ s.runningTens = [] ∧ s.noneOutstanding = true ∧
     (∀ n, n < 32 → s.fld (dmState (512 + n)) ≠ dsRunning ∧ s.fld (dmState (512 + n)) ≠ dsWaiting ∧ s.fld (dmState (512 + n)) ≠ dsDraining) ∧
     (∀ i : Fin 16, (s.kv i).todo = [] ∧ (s.kv i).flight = []) ∧ ∀ k : Fin 32, s.lkState k ≠ lsUp ∧ s.lkState k ≠ lsRetrain) ∧
    (pw 2).fld LH_PWR_STAT_STATE = 2 ∧
    (let s := { (pw 3).setFld (LK_STAT_STATE 0) 6 with now := 60000 }
     s.fld LH_PWR_STAT_STATE = 3 ∧ s.wakeAt + 60000 ≤ s.now ∧ s.avail (15 : Fin 16) = true ∧ s.lkState 0 = lsQuiet) ∧
    (let s := pw 4; s.fld LH_PWR_STAT_STATE = 4 ∧ s.runningTens = [] ∧ s.storing = false ∧ s.noneOutstanding = true) := by decide +kernel
theorem witness_ThermalResult :
    (let s := { up.setFld (BT_TH_TEMP_FAST 15) 1 with now := ms 1 }; s.fld (BT_TH_TEMP_FAST 15) = 1 ∧ ms 1 ≤ s.now - (s.therm 15).fastAt) ∧
    (1180 ≤ (1180 : BitVec 16).toInt ∧ up.fldBit LH_RESET_STAT_DOWN (0 : Fin 16) = false) ∧
    (let s := { up with now := ms 5, therms := [(0, { offSince := [(3, 0)] })] }
     (s.therm 0).offSince.find? (fun e => e.1 == (3 : Fin 4).val) = some ((3 : Fin 4).val, 0) ∧ ms 5 ≤ s.now - 0 ∧
     s.fldBit (BT_TH_STAT_DISTRUSTED 0) (3 : Fin 4) = false) ∧
    (let s := { up.setFld (BT_TH_ILIM_LIMIT 0) 1249 with now := ms 1 }
     s.sourceActive 0 = false ∧ ms 1 ≤ s.now - (s.therm 0).calmAt ∧ s.fld (BT_TH_ILIM_LIMIT 0) < s.limitTop 0) ∧
    (98 ≤ (105 : BitVec 8).toNat ∧ 105 ≤ (105 : BitVec 8).toNat ∧ up.fld (BT_MC_STK_STAT_THROTTLE 0 7) ≤ 4 ∧ up.avail (0 : Fin 16) = true ∧
     85 < (86 : BitVec 8).toNat ∧ (82 : BitVec 8).toNat < 83) := by decide +kernel

theorem witness_StartUpResult : (State.reset.start = none ∧ State.reset.fld LH_START_PHASE = 0 ∧ 2 ≤ popc 3 (3 : BitVec 3).toNat) ∧
    (up.storing = false ∧ up.fld LH_RESET_STAT_WARM_RESETS < 2 ^ 32 ∧ up.fld FB_NODE_NODE < 65536) ∧
    (let s := { up with resetHeld := some true }; s.resetHeld = some true ∧ s.storing = false) ∧
    (let s := { State.reset.setFld LH_START_PHASE 8 with now := ms 12500 + ms 100000, start := some {} }
     s.start = some {} ∧ s.fld LH_START_PHASE = 8 ∧ ms (phaseEnd s.coldStart 8) ≤ s.now ∧ 0xFFFF - (s.selfTest {}).leftOut % 65536 ≠ 0) ∧
    (let s := { State.reset.setFld LH_START_PHASE 2 with start := some {} }; s.start = some {} ∧ s.fld LH_START_PHASE = 2) ∧
    (let s := { up with now := 600 * second, storedAt := some 0 }
     s.storing = false ∧ s.fld LH_PWR_STAT_STATE ≠ 4 ∧ s.lowSupply = false ∧ (∀ a, s.storedAt = some a → a + 600 * second ≤ s.now) ∧
     (s.setFld LH_PWR_STAT_LOW_SUPPLY 1).lowSupply = true) ∧
    (let s := { up with now := 600 * second - 1, storedAt := some 0 }; s.storedAt = some 0 ∧ s.now < 0 + 600 * second) ∧
    (let s := { up with storing := true }; s.storing = true) ∧
    (let s := { up.setFld LH_CAL_STAT_STORE_PENDING 1 with now := 600 * second }
     s.storing = false ∧ s.fld LH_PWR_STAT_STATE ≠ 4 ∧ s.lowSupply = false ∧ s.fld LH_CAL_STAT_STORE_PENDING ≠ 0 ∧ 600 * second ≤ s.now - s.storeTried) := by
  decide +kernel
def rj (now : Nat) (r : Rejoin) : State := { (up.setFld (TN_STATE_STATE 0) 4) with now := now, rejoins := [(15, r)] }
theorem witness_ClockAndRejoinResult :
    (let s := up.setFld LH_CLK_STAT_REF_OK 1; s.fld LH_CLK_STAT_HOLDOVER ≠ 1 ∧ s.fld LH_CLK_STAT_REF_OK ≠ 0) ∧
    (up.setFld LH_CLK_STAT_HOLDOVER 1).fld LH_CLK_STAT_HOLDOVER ≠ 0 ∧ (up.setFld LH_CLK_STAT_CALREF_OK 1).fld LH_CLK_STAT_CALREF_OK ≠ 0 ∧
    ((0x8000 : BitVec 16).getLsbD (15 : Fin 16) = true ∧ up.fldBit LH_FENCE_FENCED (15 : Fin 16) = false ∧ up.fldBit LH_RESET_STAT_DOWN (15 : Fin 16) = false) ∧
    (12 < (13 : BitVec 8).toInt ∧ (12 : BitVec 8).toInt ≤ 12 ∧ -12 ≤ (244 : BitVec 8).toInt ∧ (244 : BitVec 8).toInt ≤ 12) ∧
    (up.fld (IS_CLK_REGION_VSTEPS 0 15) + (up.repairs.filter (fun x => x.kind == .vstep 0 15)).length < 6) ∧
    (let s := rj (ms 300) { since := 0 }
     s.rejoins.find? (fun e => e.1 == (15 : Fin 16).val) = some ((15 : Fin 16).val, { since := 0 }) ∧ ms 300 ≤ s.now - 0 ∧
     s.tenOf (15 : Fin 16) = none ∧ (5 : Fin 6) ≠ 0) ∧
    (ms 1000 ≤ (rj (ms 1000) { since := 0, retry := true }).now - 0) ∧
    (let r : Rejoin := { since := 0, thermal := true, cool := some 0 }; r.thermal = true ∧ r.cool = some 0 ∧ ms 1000 ≤ (rj (ms 1000) r).now - 0) := by
  decide +kernel
/-! ### Witnesses: the host interface -/

/-- A management command, and the states in which it is taken and begun. -/
def hc (op : Nat) (ten : Fin 16) (ops : BitVec 384) : HCmd :=
  { key := mgmtKey op ten, mgmt := true, cnt := 0, op := op, flags := 0, ten := ten, seq := 1, ops := ops.toNat }
def wOf (s : State) (c : HCmd) : State := ({ s with mgmtCnt := s.mgmtCnt + 1 } : State).accept c
def zOf (s : State) (c : HCmd) : State :=
  (wOf s c).setRing c.key { (wOf s c).ring c.key with q := [], cur := some c }
/-- Tenancy 0 in state n, its CLEAN bit set, every island present. -/
def tenIn (n : Nat) : State := (((up.setFld (TN_STATE_STATE 0) n).setFld (TN_CKPT_STAT_CLEAN 0) 1).setFld (TN_RING_LOG2 0) 4).setFld (FY_PORTS_PRESENT 0) 0xFFFF
/-- TENANCY_CREATE of tenancy 5 on island 15, one region of level 1. -/
def createOps : BitVec 384 := BitVec.ofNat 384 (0x8000 + (hbmBase 15 + 4 * 2 ^ 48) * 2 ^ 64 + (0x8000 + 512) * 2 ^ 128)
def reshapeOps : BitVec 384 := BitVec.ofNat 384 (3 + (hbmBase 0 + 4 * 2 ^ 48) * 2 ^ 64)
def loadOps : BitVec 384 := BitVec.ofNat 384 (672 * 2 ^ 128)
def begins1 : List (Nat × Fin 16 × BitVec 384 × State) := [(opCreate, 5, createOps, tenIn 3), (opReshape, 0, reshapeOps, tenIn 1), (opRelease, 0, 0, tenIn 4),
  (opLoad, 0, loadOps, tenIn 1), (opStart, 0, 0, tenIn 4), (opHalt, 0, 0, tenIn 3), (opHalt, 0, 0, tenIn 2), (opCheckpoint, 0, 0, tenIn 3),
  (opCheckpoint, 0, 0, tenIn 4), (opRestore, 0, 0, tenIn 2)]
def begins2 : List (Nat × Fin 16 × BitVec 384 × State) := [(opSetOp, 0, 4, tenIn 3), (opSetOp, 0, 0, tenIn 2), (opQuery, 0, 0, tenIn 3),
  (opRetirePage, 0, 0x7FFF_F000, tenIn 3), (opRetirePage, 0, 0, tenIn 2), (opRetireBank, 0, 0x3F_01_1F_07_01, tenIn 3), (opRetireBank, 0, 0, tenIn 2),
  (opAtomic, 0, 0x50001, tenIn 3), (opAttest, 0, 0, tenIn 3), (opStage, 0, 0, tenIn 3), (opActivate, 0, 0, tenIn 3), (opLock, 0, 1, tenIn 3)]
def Begun (e : Nat × Fin 16 × BitVec 384 × State) : Prop :=
  let c := hc e.1 e.2.1 e.2.2.1
  e.2.2.2.Begins e.1 .mgmt 1 e.2.1 0 e.2.2.1 (wOf e.2.2.2 c) (zOf e.2.2.2 c) c
theorem witness_Begins_1 : ∀ e ∈ begins1, Begun e := by unfold Begun State.Begins; decide +kernel
theorem witness_Begins_2 : ∀ e ∈ begins2, Begun e := by unfold Begun State.Begins; decide +kernel
/-- From a port's ring and from a tenancy's. -/
theorem witness_Begins_rings :
    (let s := (tenIn 3).setFld (HP_PORT_RING_ENABLE 3) 1
     let c : HCmd := { key := 19, op := opCreate, ten := 5, seq := 1, ops := createOps.toNat }
     let w := ((s.setRing 19 { s.ring 19 with cons := 1 }).accept c).ringPut 19 0x10 8 1
     s.Begins opCreate (.port 3) 1 5 0 createOps w (w.setRing 19 { w.ring 19 with q := [], cur := some c }) c) ∧
    (let s := tenIn 3
     let c : HCmd := { key := 0, op := opHalt, ten := 0, seq := 1 }
     let w := ((s.setRing 0 { s.ring 0 with cons := 1 }).accept c).ringPut 0 0x10 8 1
     s.Begins opHalt (.ten 0) 1 0 0 0 w (w.setRing 0 { w.ring 0 with q := [], cur := some c }) c) := by unfold State.Begins; decide +kernel

/-- What each command asks beyond having begun. -/
theorem witness_HostCommandResult_tenancy :
    (let c := hc opCreate 5 createOps; let z := zOf (tenIn 3) c
     z.tn 5 = tnFree ∧ (bitList 16 (c.at 0x10 2)).all z.freeIsle = true ∧ z.freeLinks (5 : Fin 16) (c.at 0x14 4) = true ∧ c.at 0x12 1 < 4 ∧
     c.at 0x10 2 ≠ 0 ∧ c.regionsTidy = true ∧ layoutOkFor c.regions = true ∧
     ringOk (c.at 0x18 8 % 2 ^ 48) (c.at 0x18 8 / 2 ^ 48 % 16) (c.at 0x10 2) (fun _ => layoutExtent c.regions) = true) ∧
    (let c := hc opReshape 0 reshapeOps; let z := zOf ((tenIn 1).setFld (BT_MC_REGION_LEVEL 0 0) 1) c
     ((bitList 16 (c.at 0x10 2)).filter (fun i => !bitOf (z.fld (TN_ISLANDS_ISLANDS 0)) i)).all z.freeIsle = true ∧
     z.freeLinks (0 : Fin 16) (c.at 0x14 4) = true ∧ c.at 0x10 2 ≠ 0 ∧
     ringOk (c.at 0x18 8 % 2 ^ 48) (c.at 0x18 8 / 2 ^ 48 % 16) (c.at 0x10 2) (fun _ => layoutExtent (z.layoutOf ((z.tnIslands 0).headD 0))) = true ∧
     (z.dmaHostHalt 0).outstanding 0 true = false) ∧
    ((zOf (tenIn 4) (hc opRelease 0 0)).dmaHostHalt 0).outstanding 0 true = false ∧ (zOf (tenIn 4) (hc opStart 0 0)).startBar 0 = 0 ∧
    (zOf (tenIn 3) (hc opHalt 0 0)).running 0 = true ∧ (zOf (tenIn 2) (hc opHalt 0 0)).running 0 = false := by decide +kernel
theorem witness_HostCommandResult_boundary :
    (let s : State := { tenIn 3 with images := [(0, { regions := [⟨rgCheckpoint, 0, 0, 0, 0, 0⟩] })] }
     ((zOf s (hc opCheckpoint 0 0)).image 0).ofKind rgCheckpoint ≠ []) ∧
    (hc opSetOp 0 4).at 0x10 1 ≤ 4 ∧ (hc opSetOp 0 0).at 0x10 1 < (zOf ((tenIn 2).setFld (TN_FRAME_CFG_OP_NOW 0) 1) (hc opSetOp 0 0)).fld (TN_FRAME_CFG_OP_NOW 0) ∧ (zOf (tenIn 3) (hc opRetirePage 0 0x7FFF_F000)).boundOk (hc opRetirePage 0 0x7FFF_F000) = true ∧
    (zOf (tenIn 3) (hc opRetireBank 0 0x3F_01_1F_07_01)).boundOk (hc opRetireBank 0 0x3F_01_1F_07_01) = true ∧
    (let c := hc opAtomic 0 0x50001
     let r : FReq := { pkt := { typ := ftAtomReq, vc := 0 }, unit := 1, dunit := 0, ten := 0, who := .mbox, first := 0, lastTx := 0, unknown := true }
     let z := zOf { tenIn 3 with freqs := [(5, r)] } c
     c.at 0x10 1 < z.tnN 0 ∧ z.freqs.find? (fun e => e.1 == c.at 0x12 2) = some (c.at 0x12 2, r) ∧
     r.unit = (z.islandOf 0 (c.at 0x10 1)).getD 16 ∧ z.now - r.first < ms 15) ∧
    (zOf (tenIn 3) (hc opStage 0 0)).updateBar (hc opStage 0 0) = 0 ∧
    (let c := hc opLock 0 1; let z := zOf (tenIn 3) c
     z.updateSource c = true ∧ c.at 0x10 1 = 1 ∧ z.secRec.lock = false ∧ z.lowSupply = false) := by decide +kernel
/-- RESTORE passes its checks: on a tenancy of no island, whose checks are none (no run reaches it). -/
theorem witness_HostCommandResult_restore :
    let s : State := { (tenIn 2).setFld (TN_ISLANDS_ISLANDS 0) 0 with images := [(0, { regions := [⟨rgCheckpoint, 0, 0, 0, 0, 0⟩] })] }
    let z := zOf s (hc opRestore 0 0)
    (z.tnIslands 0).all (fun i => z.avail i && z.present i) = true ∧ (z.image 0).ofKind rgCheckpoint ≠ [] ∧
    (z.dmaHostHalt 0).outstanding 0 true = false ∧ ((z.dmaHostHalt 0).restoreChecks 0).1 = none := by decide +kernel

/-- A frame image of one island: a program of one word, a mesh schedule of one window, an empty plan, no region. Its digests are
SHA-384 as FIPS 180-4 has it, computed outside the model. -/
def img1 : List Byte := leBytes 672 0x5000000010000000000010001000000010000000000000000000000000000000000000000000000000000003000000020000000010000000100000000000000000000000000000000000000000000000000000000000000000000000000000000000000000000000000000000000000000000000000000000404a0ae50e1ba7e25ff787315c4d3ad07bab9e7292f1c84694de5f5447fd8090c83a10038cde9cace4156ca24bff8fa30000000000000000000000000000002000000000000002800000000000ff0070404a0ae50e1ba7e25ff787315c4d3ad07bab9e7292f1c84694de5f5447fd8090c83a10038cde9cace4156ca24bff8fa30000000000000000000000000000002000000000000002400000000000ff003037e84ede3a081ceaa165fbae5a3782331f380e37fb01fc651a2daba9a65315b4bbda59288114f6a8421110edea72b9540000000000000000000000000000004000000000000002000000000000000020194b3603b109a1d05ff8c196d3ff5acdc3fb6c1ad90e0d2b2603fcd68c94841664e6c3e4860cd5360bce0e319db02d7c0000000000000000000000000000000800000000000001c000000000000000100000000000000000000000000000000000000000000000000000000000000000f0b364a6d99d416a039479ac25826f4d77ff8c076eed3003b5c73c42cc3ef30d7640b9ec10d7328e091f754cdc61c310000000000000000000000000000000000000000000204001005000040000008000000000000002a0008000014946514c
set_option maxRecDepth 100000 in
theorem witness_HostCommandResult_load :
    (tenIn 1).imageCheck 0 img1 true (fun _ => 0) = 7 ∧ ((tenIn 1).setFld (TN_ISLANDS_ISLANDS 0) 1).imageCheck 0 img1 true (fun _ => 0) = 0 := by
  decide +kernel
theorem witness_HostCommandResult_loadOk : let c := hc opLoad 0 loadOps
    let z := zOf ((tenIn 1).setFld (TN_ISLANDS_ISLANDS 0) 1) c
    z.loadOk c = true ∧ c.at 0x10 1 = 0 ∧ 672 = min (c.at 0x20 8) 0x40000000 ∧ z.loadMap c 0 = 0 := by decide +kernel
/-! ### Witnesses: what ends a command, ticks, degradation, ferry, straits, the whole -/

/-- An update package of seven empty parts and test firmware (R523 to R525). -/
def pkg1 : List Byte := leBytes 833 0x5bb99848f1d21ad5fb656fe7bfde4e27dae1f663bfc70c4c4307be1411b7fd216ae3b1b17e32d94c3896ac51a760b0380000000000000000000000000000000000000000000000000000ffff000000075bb99848f1d21ad5fb656fe7bfde4e27dae1f663bfc70c4c4307be1411b7fd216ae3b1b17e32d94c3896ac51a760b038000000000000000000000000000000000000000000000000ffffffff000000065bb99848f1d21ad5fb656fe7bfde4e27dae1f663bfc70c4c4307be1411b7fd216ae3b1b17e32d94c3896ac51a760b0380000000000000000000000000000000000000000000000000000ffff000000055bb99848f1d21ad5fb656fe7bfde4e27dae1f663bfc70c4c4307be1411b7fd216ae3b1b17e32d94c3896ac51a760b0380000000000000000000000000000000000000000000000000000ffff000000045bb99848f1d21ad5fb656fe7bfde4e27dae1f663bfc70c4c4307be1411b7fd216ae3b1b17e32d94c3896ac51a760b03800000000000000000000000000000000000000000000000000000001000000035bb99848f1d21ad5fb656fe7bfde4e27dae1f663bfc70c4c4307be1411b7fd216ae3b1b17e32d94c3896ac51a760b03800000000000000000000000000000000000000000000000000000007000000025bb99848f1d21ad5fb656fe7bfde4e27dae1f663bfc70c4c4307be1411b7fd216ae3b1b17e32d94c3896ac51a760b038000000000000000000000000000000000000000000000000000000010000000100000000000000000000000000000000000000000000000000000000000000000000000000000000000000000000000000000000000000000000000000000000000000000000000000000000000000000000000000000000000000000000000000000000000000000000000000000000000000000000000000000000000000000000000000000000000000000000034100000000000000000000000101b01652000000000000000000000701464d514c
/-- A MANUFACTURING module, whose test root vouches for the package, finds nothing wrong with it. -/
theorem witness_HostDoneResult_package (h : Config.testFirmware (pkgDigest pkg1) = true) : manifestCheck pkg1 0 0 0 = 0 := by
  have a : pkgFormat pkg1 = true := by decide +kernel
  have b : ¬ (fieldAt pkg1 0x10 2 ≠ 0x1652 ∨ fieldAt pkg1 0x12 1 ≠ 0xB0 ∨ bitOf (fieldAt pkg1 0x13 1) 0 = false ∨
      (fieldAt pkg1 0x18 8 ≠ 0 ∧ fieldAt pkg1 0x18 8 ≠ Config.serial.toNat)) := by
    have : fieldAt pkg1 0x18 8 = 0 := by decide +kernel
    rw [this]; simp only [ne_eq, not_true_eq_false, false_and, or_false]; decide +kernel
  have c : ¬ (pkgSvn pkg1 < 0 ∨ pkgSvn pkg1 < pkgFloor pkg1 ∨ bitOf (pkgRevoke pkg1) (pkgRoot pkg1) = true) := by decide +kernel
  have d : (pkgParts pkg1).all (fun e => sha384 ((pkg1.drop (partOff e)).take (partSize e)) == (e.drop 0x20).take 48) = true := by decide +kernel
  unfold manifestCheck
  rw [if_neg (by simp [a]), if_neg b]
  simp only [h]
  rw [if_neg (by simp), if_neg c, if_neg (by simp [d])]
theorem witness_HostDoneResult :
    (let s := { up with filling := 0x8000, zeroing := 0x8000, rings := [(20, { wait := 0x8000 })] }
     bitOf s.filling (15 : Fin 16) = true ∧ bitOf s.zeroing (15 : Fin 16) = true ∧
     ∀ e ∈ s.rings, (s.ring e.1).cur = none ∨ bitOf (s.ring e.1).wait (15 : Fin 16) = false) ∧
    (let c : HCmd := { key := 15, op := opStart, ten := 15 }
     let s := { up with rings := [(15, { cur := some c })] }
     (s.ring (15 : Fin 16)).cur = some c ∧ (s.ring (15 : Fin 16)).q = []) ∧
    (let k : Cap := { cmd := { key := 0, op := opCheckpoint, ten := 0 }, hold := false }
     let s := { up with caps := [(0, k)] }
     s.caps.find? (fun e => e.1 == (0 : Fin 16).val) = some ((0 : Fin 16).val, k) ∧ s.quiesced (0 : Fin 16) = true ∧ (s.ring 0).q = [] ∧ (s.ring 0).cur = none) ∧
    (let c : HCmd := { key := 20, op := opStage, ten := 0, ops := 833 * 2 ^ 64 }
     let s := { up.setFld SEC_STAT_ACTIVITY 1 with upd := { cmd := some c } }
     s.upd.cmd = some c ∧ s.fld SEC_STAT_ACTIVITY = 1 ∧ pkg1.length = c.at 0x18 8 ∧ s.slotCheck s.inactive ≠ 0) ∧
    (up.updateBar { key := 20, mgmt := true, op := opStage, ten := 0 } = 0 ∧
     (up.setFld SEC_STAT_ACTIVITY 1).updateBar { key := 20, mgmt := true, op := opStage, ten := 0 } ≠ 0) ∧
    (let s := (up.setFld SEC_STAT_ACTIVITY 2).setRun 0 { await := true, pause := 8 }
     s.fld SEC_STAT_ACTIVITY = 2 ∧ s.fld LH_PWR_STAT_STATE ≠ 4 ∧
     ∀ u : Fin 16, s.running u = true → (s.run u).await = true ∧ bitOf (s.run u).pause 3 = true) ∧
    (let c : HCmd := { key := 20, op := opActivate, ten := 0 }
     let s := { up.setFld SEC_STAT_ACTIVITY 3 with now := 800000, upd := { cmd := some c, switched := true } }
     s.fld SEC_STAT_ACTIVITY = 3 ∧ s.upd.since + 600000 ≤ s.now ∧ s.upd.fail = 0 ∧ s.upd.committed = false ∧ s.upd.since + 740000 ≤ s.now ∧
     s.upd.switched = true ∧ s.lowSupply = false ∧ s.upd.cmd = some c ∧ s.upd.since + 800000 ≤ s.now) := by decide +kernel

/-- Tenancy 0 in slot 3 of 8, with one leg that is not ready in slot 4 when `b`. -/
def tick1 (b : Bool) : State := { ((up.setFld (TN_SLOT_PLAN_SLOT 0) 3).setFld (FY_PORTS_PRESENT 0) 3).setFld (TN_FRAME_CFG_OVERRUN_ALLOW 0) 1 with
  plans := if b then [(0, { xfers := [⟨0, 0, 128, 0, 0, 1, 0⟩], legs := [⟨0, 1, 0, 1, 4, 1⟩] })] else [] }
def asks (s : State) : Bool :=
  let x := (s.bump (TN_SLOT_ELAPSED 0) 1).endStraitSlot 0 3
  let y := (x.2.setRun 0 { x.2.run 0 with slots := (x.2.run 0).slots + 1 }).meshTest 0 3
  x.1 || y.1 || (y.2.readyTest 0 4).1
theorem witness_TickResult :
    (2 ≤ up.fld LH_START_PHASE ∧ up.fld LH_START_PHASE ≠ 15) ∧
    (∀ b, (tick1 b).running (0 : Fin 16) = true ∧ ((tick1 b).run 0).fresh = false ∧ ((tick1 b).run 0).await = false ∧ ((tick1 b).run 0).pend0 = false ∧
      ((tick1 b).run 0).halts = [] ∧ (tick1 b).stallNow.get false 0 = false ∧ 3 + 1 < (tick1 b).fld (TN_FRAME_CFG_FRAME_SLOTS 0) ∧ asks (tick1 b) = b ∧
      ((tick1 b).run 0).counted < (tick1 b).fld (TN_FRAME_CFG_OVERRUN_ALLOW 0) ∧
      ((tick1 b).setFld (TN_FRAME_CFG_OVERRUN_ALLOW 0) 0).fld (TN_FRAME_CFG_OVERRUN_ALLOW 0) ≤ ((tick1 b).run 0).counted) ∧
    (let s := up.setRun 0 { fresh := true, halts := [⟨hkClean, 0⟩] }
     s.running (0 : Fin 16) = true ∧ (s.run 0).fresh = true ∧ (s.run 0).await = false ∧ (s.run 0).halts ≠ [] ∧ (s.slotTick (0 : Fin 16) true).2 = true) ∧
    (haltsClean ((up.setRun 0 { halts := [⟨hkBoundary, 5⟩] }).run 0).halts = false) ∧
    (let s := up.setRun 0 { await := true, pause := 1 }
     s.running (0 : Fin 16) = true ∧ (s.run 0).await = true ∧ bitOf (s.run 0).pause 0 = true ∧ (s.run 0).halts = []) ∧
    (clearBits 3 1 ≠ 0 ∧ bitOf 3 0 = true) ∧
    (let s := { (up.setFld (HP_PORT_RING_ENABLE 3) 1) with now := 1 }
     s.takes = true ∧ s.ringTick (1 : Fin 16) = true ∧ s.running (1 : Fin 16) = false ∧ s.ringTick 20 = true ∧ s.fld (HP_PORT_RING_ENABLE 3) ≠ 0 ∧
     s.ringTick (16 + (3 : Fin 4).val) = true ∧ (s.ring 19).cur = none ∧ (s.ring 19).q = [] ∧ (s.ring 19).fault = false ∧
     s.ringSlots 19 < ((4097 : BitVec 64).toNat + 2 ^ 64 - (s.ring 19).cons) % 2 ^ 64 ∧ 1 ≤ s.ringSlots 19) ∧
    (let s := { up with images := [(0, { regions := [⟨rgInput, 0, 1, 0, 128, 128⟩] })] }
     (s.recs.get [] 0).find? (fun x => x.digest.isNone) = none ∧ s.running 0 = true ∧ (s.run 0).input = none ∧ s.digestItems 0 rgInput 0 ≠ []) := by
  decide +kernel

theorem witness_KeeperResult : (up.fld LH_SLOT_COUNT_COUNT % 256 = 0 ∧ 3 ≤ up.keepers.length ∧ up.fldBit LH_KEEPER_PRESENT (2 : Fin 3) = true) ∧
    (up.setFld LH_KEEPER_PRESENT 5).keepers.length = 2 := by decide +kernel
def flit0 : BondFlit := ⟨0, 1, 5, 8⟩
theorem witness_DegradationResult : (up.bondSend 0 78 (.data 5 8)).map (·.1) = some flit0 ∧ bondCrc flit0.wire = bits flit0.wire 304 16 ∧
    bondCrc (flit0.wire ^^^ 1) ≠ bits (flit0.wire ^^^ 1) 304 16 ∧ shoalSends 78 = false ∧
    ((({ up with bonds := [(78, { run := 3, sent := [flit0], again := some 0 })] } : State).bondSend 0 78 .idle).map (·.2.run) = some 3 ∧
      up.bondDead.get 0 0 < 4 ∧ up.repairs = []) ∧
    up.singles.contains ((0 : Fin 16).val, (0 : Fin 3).val, (0xFFFF : BitVec 16).toNat) = false ∧
    ({ up with singles := [(0, 0, 0)] } : State).singles.contains ((0 : Fin 16).val, (0 : Fin 3).val, (0 : BitVec 16).toNat) = true ∧
    (let s := { up with laneCnt := [(laneKey 0 63 15, { unc := 5 })], causes := [.lane 0 1 63 15] }
     s.fld (BT_ST_SPARE_CFG_SPARE_UNC 0) ≠ 0 ∧ s.fld (BT_ST_SPARE_CFG_SPARE_UNC 0) < (s.laneCnt.get {} (laneKey 0 63 15)).unc ∧
     ¬ up.fld (BT_ST_SPARE_CFG_SPARE_UNC 0) < (up.laneCnt.get {} 0).unc ∧ ¬ up.fld (BT_ST_SPARE_CFG_SPARE_SYM 0) < (up.laneCnt.get {} 0).sym ∧
     s.physPlane 63 = 63 ∧ s.spareUse.get 0 (63 * 2) = 0 ∧ s.mending 63 15 = false) ∧
    (let k := laneKey (0 : Fin 16) (63 : Fin 68) (15 : Fin 16)
     let s := { up with mislocked := [(k, true)], sweeps := [(k, 2)] }
     s.mislocked.get false k = true ∧ 2 ≤ s.sweeps.get 0 k ∧ up.sweeps.get 0 k < 2 ∧ up.mislocked.get false k = false ∧
     s.trials.contains k = false ∧ ({ s with trials := [k] } : State).trials.contains k = true) ∧
    (let s := { up with causes := [.element 63], repairs := [⟨.vstep 0 0, 1, 0⟩] }
     s.physPlane (63 : Fin 72) = 63 ∧ s.freeSpare = some 0 ∧ ∀ r ∈ s.repairs, r.kind.onPlane 63 = false ∧ r.isls ≠ 0) ∧
    ((List.range 4).foldl (fun (s : State) n => s.setFld (subInUse n) 1) up).freeSpare = none ∧
    (up.fldBit (BT_ST_COMB_FAILED 0) (8 : Fin 10) = false ∧ up.fldBit (BT_ST_COMB_FAILED 0) 9 = false ∧ up.fld (BT_ST_COMB_SPARE_FOR 0) = 15) := by
  decide +kernel

theorem witness_FerryResult : (up.arb 3).arbDone ≠ up.fwin + 1 ∧ up.fwin ≤ 2 * up.now ∧ 2 * up.now < ({ up with fwin := 1 } : State).fwin ∧
    (let s := { up with arbiters := [(3, { frames := [(15, [.parked 0])] })] }
     let fr := (s.arb 3).frames.get [] 15
     let body := frameBody (fr.flatMap GrantEntry.words) 0
     fr ≠ [] ∧ frameTake body 1 2 = (none, 2) ∧ frameTake body 0 1 = (some body, 1) ∧ frameTake body 0 0 = (some body, 0) ∧
     grantEntries 15 (frameWords body) = fr) ∧
    (let w : Wire := ⟨2, true, [], [], 0, none, false⟩
     let s := { up with wires := [(3 * 16 + 15, w)] }
     s.wires.find? (fun e => e.1 == (3 : Fin 4).val * 16 + (15 : Fin 16).val) = some ((3 : Fin 4).val * 16 + (15 : Fin 16).val, w) ∧
     w.next < flitsOf (s.fyWidth (3 : Fin 4) w.src (15 : Fin 16)).length w.guarded) ∧
    (let p : Pkt := { typ := ptFlagSet, vc := 2, src := 0, dst := 1, tile := false, addr := flagBase 1, data := 7 }
     let s := { up with tiles := [(1, { hold := [⟨3, p⟩], here := [p] })] }
     (s.tile (1 : Fin 16)).hold.find? (fun h => streamKey h.pkt == streamKey { typ := 0, vc := (2 : Fin 4), src := (0 : Fin 16), dst := (1 : Fin 16), tile := false } &&
       h.pkt.pseq == (s.tile (1 : Fin 16)).expect.get 0 (streamKey p)) = some ⟨3, p⟩ ∧ s.waits p = false ∧ p.typ = ptFlagSet ∧
     s.nextHere (s.tile (1 : Fin 16)).here [] = some p ∧ s.crossing.find? (fun e => e.1 == crossKey p) = none) := by decide +kernel

/-- Leg 0 of plan1 in its slot, its source posted, its plane connected. -/
def strait1 (r : LegRun) : State := { ((xf1.setFld (TN_SLOT_PLAN_SLOT 0) 1).setFld (FY_PORTS_PRESENT 0) 0xFFFF) with
  plans := [(0, { plan1 with changes := [⟨0, 0, 0xFEDCBA9876543201⟩] })], legs := [(0, r)], runs := [(0, { slots := 3 })],
  xruns := [(0, { send := [(0, ⟨0, 0, 0x1000⟩)], recv := [(1, ⟨8, 0, 0x2000⟩)] })] }
theorem witness_StraitResult_send : (let s := strait1 {}
    let e := (s.plan 0).leg 0
    s.legSource (0 : Fin 16) 0 = some 0x1000 ∧ 0 < (s.plan 0).legs.length ∧ s.fld (TN_STATE_STATE 0) = 3 ∧ 0 < e.slots ∧
    s.present (s.physOf 0 e.snd) = true ∧ s.earlierLeg 0 0 = false ∧
    s.txHeld 0 (s.physOf 0 e.snd) + ((s.plan 0).slotBytes e ((s.plan 0).xfer ((s.plan 0).xferOf 0)).bytes 0).2 ≤ txBuffer) := by decide +kernel
theorem witness_StraitResult_segment :
    (let s := strait1 {}
     s.tenOf (1 : Fin 16) = some (0 : Fin 16).val ∧ s.senderTo (1 : Fin 16) (0 : Fin 64) = some 0 ∧
     (s.plan 0).legAt (s.logicalOf 0 0) (s.logicalOf 0 1) 0 (s.fld (TN_SLOT_PLAN_SLOT 0)) = some 0 ∧
     (s.runs.get {} (0 : Fin 16)).fresh = false ∧ (s.runs.get {} (0 : Fin 16)).await = false ∧ s.segRx.contains (laneKey 1 0 15) = false ∧
     s.lanePresent 0 (0 : Fin 64) (15 : Fin 16) = true ∧ s.lanePresent 1 (0 : Fin 64) (15 : Fin 16) = true ∧ s.stallNow.get false 0 = false ∧
     s.segOf ⟨0, 0, 1, 0, 15, some 0, none⟩ 0 15 = (0, 15) ∧ 0 + 1 < (s.width 0 1 0).length) ∧
    (let s := (strait1 {}).setFld (TN_SLOT_PLAN_SLOT 0) 2
     s.senderTo (1 : Fin 16) (0 : Fin 64) = some 0 ∧ (s.plan 0).legAt (s.logicalOf 0 0) (s.logicalOf 0 1) 0 (s.fld (TN_SLOT_PLAN_SLOT 0)) = none) ∧
    (let s := { strait1 { deferred := [segKey 0 15] } with extNow := [(0, true)] }
     s.segOf ⟨0, 0, 1, 0, 3, some 0, some (15 : Fin 16).val⟩ 0 (15 : Fin 16) = (0, 15) ∧ s.extNow.get false (0 : Fin 16) = true ∧
     (s.leg 0 0).deferred.contains (segKey 0 15) = true) := by decide +kernel
theorem witness_StraitResult_repair :
    (let s := strait1 { failed := [(segKey 0 15, 2)] }
     (s.leg 0 0).failed.find? (fun f => f.1 == segKey 0 15) = some (segKey 0 15, 2) ∧ 2 < (s.runs.get {} (0 : Fin 16)).slots ∧
     (s.leg 0 0).repairing.any (fun f => f.1 == segKey 0 15) = false ∧ (s.leg 0 0).dark = false ∧ s.present 0 = true ∧
     (s.setFld (FY_PORTS_PRESENT 0) 0xFFFE).present 0 = false) ∧
    (let q : Resend := ⟨1, ⟨0, 0, 0, 15, 0, 0⟩⟩
     let s := { strait1 {} with tiles := [(0, { repairs := [q] })] }
     (s.tile (0 : Fin 16)).repairs = [q] ∧ s.noticeLeg (0 : Fin 16) q.n = some (0, (s.plan 0).leg 0, 15) ∧ s.noticeLeg (0 : Fin 16) { q.n with xfer := 1 } = none ∧
     s.present (0 : Fin 16) = true ∧ (s.setFld (FY_PORTS_PRESENT 0) 0xFFFE).present (0 : Fin 16) = false ∧
     s.legSource 0 q.n.leg = some 0x1000 ∧ ({ s with xruns := [] } : State).legSource 0 q.n.leg = none ∧
     (s.xrun 0 q.n.xfer).recv.find? (fun y => y.1 == ((s.plan 0).leg 0).rcv) = some (((s.plan 0).leg 0).rcv, ⟨8, 0, 0x2000⟩) ∧
     s.ferryBusy (0 : Fin 16) q.recv (2 * ((s.plan 0).segPieces ((s.plan 0).leg 0) ((s.plan 0).xfer q.n.xfer).bytes q.n.seg 15).length) = false) := by
  decide +kernel
theorem witness_StraitResult_complete :
    (let s := strait1 { landed := [(segKey 0 0, true), (segKey 0 1, true)], lastTick := some 2 }
     (s.xrun 0 0).recv.find? (fun q => q.1 == (1 : Fin 16).val) = some ((1 : Fin 16).val, ⟨8, 0, 0x2000⟩) ∧ 0 < (s.plan 0).xfers.length ∧
     (s.xrun 0 0).recvDone.get false (1 : Fin 16) = false ∧
     ((s.plan 0).xfer 0).legs.all (fun l => s.legLanded 0 l || (s.leg 0 l).dark) = true ∧
     (s.xrun 0 0).sendDone.get false (0 : Fin 16) = false ∧ ((s.plan 0).xfer 0).legs.filter (fun l => ((s.plan 0).leg l).snd == (0 : Fin 16).val) ≠ [] ∧
     (s.xrun 0 0).send.find? (fun q => q.1 == (0 : Fin 16).val) = some ((0 : Fin 16).val, ⟨0, 0, 0x1000⟩) ∧
     ∀ m ∈ ((s.plan 0).xfer 0).legs, (s.leg 0 m).lastTick = some 2 ∧ 2 + 1 ≤ (s.runs.get {} (0 : Fin 16)).slots ∧ (s.leg 0 m).failed = [] ∧
       (s.leg 0 m).repairing = []) ∧
    (let s := strait1 { dark := true }
     (((s.plan 0).xfer 0).legs.filter (fun l => ((s.plan 0).leg l).rcv == (1 : Fin 16).val)).any (fun l => (s.leg 0 l).dark) = true) := by decide +kernel
theorem witness_TickResult_trim : (let s := up
     s.running (0 : Fin 16) = true ∧ s.fldBit (TN_ISLANDS_ISLANDS 0) (0 : Fin 16) = true ∧ s.ringIdle (0 : Fin 16) (0 : Fin 16) (0 : Fin 64) (35 : Fin 36) = true) ∧
    (strait1 {}).ringIdle (0 : Fin 16) (0 : Fin 16) (0 : Fin 64) (15 : Fin 36) = false ∧ up.fld (TN_FRAME_CFG_OP_NOW 0) = 0 := by decide +kernel

theorem witness_StepTakesFront : ({ up with pending := [.wake, .shutdown] } : State).pending = [.wake, .shutdown] ∧ up.pending = [] := by decide +kernel
theorem witness_StepLimitHalts : let s := (up.setFld (TN_STEP_STEP 0) (2 ^ 48 - 1)).setRun 0 { halts := [⟨hkClean, 0⟩] }
    (s.run (0 : Fin 16)).fresh = false ∧ haltsClean (s.run (0 : Fin 16)).halts = true ∧ s.fld (TN_STEP_STEP 0) = 2 ^ 48 - 1 := by decide +kernel
theorem witness_EventRepeatsMerge : 0x3001 < 2 ^ 16 ∧
    ∀ e ∈ ({ up with arisen := [{ code := 0x3001, isl := 1, src := 0, detail := 0 }] } : State).arisen, ¬ (e.code = 0x3001 ∧ e.isl = 0 ∧ e.src = 0) := by
  decide +kernel
theorem witness_MemoryStaysTidy : Memory.wf (up.setByte 5 7).mem = true ∧ (up.setByte 5 7).mem = [(5, 7)] := by decide +kernel
theorem test_step_empty_queue : step ({ up with pending := [] } : State) = .next { up with pending := [] } := rfl
/-- The worked example of R455: the footprint of island I10, and region 5 of I0. -/
theorem test_footprint_I10 : State.reset.regionAt 10 15 = (0, 0) ∧ State.reset.sectorAt 10 5 = (2, 2) ∧ State.reset.regionAt 0 5 = (1, 1) := by decide +kernel
end Sys2Proof.Tests
end

section
/-!
PROOFS. What keeps the mark of a halt: the words of a tenancy's registers that record it, and the events that have arisen. Every operation that
a halting frame tick runs is one that does.
-/
namespace Sys2Proof.Proofs

open Sys2Proof Sys2Proof.Machine Sys2Proof.Laws

/-- The words of tenancy t's registers that a halt leaves its mark in: TN_STATE, TN_STEP and TN_CKPT_STAT. -/
def HaltWord (t : Fin 16) (off : Nat) : Prop :=
  off = 0x300000 + t * 0x10000 ∨ off = 0x300000 + t * 0x10000 + 0x100 ∨ off = 0x300000 + t * 0x10000 + 0x180

/-- A field outside those words. -/
def Beside (t : Fin 16) (f : Fld) : Prop := f.lo < 64 ∧ ¬ HaltWord t f.off

/-- From s to u the words of t's halt stand, and what has arisen is still there. -/
def KeepsHalt (t : Fin 16) (s u : State) : Prop :=
  (∀ f : Fld, f.lo < 64 → HaltWord t f.off → u.fld f = s.fld f) ∧
  ∀ code isl : Nat, s.arisen.any (fun e => e.code == code && e.isl == isl) = true →
    u.arisen.any (fun e => e.code == code && e.isl == isl) = true

section
variable (t : Fin 16)

/-! The fields that operations within a halt write lie beside its words: read off their addresses, block by block. -/

@[simp] theorem beside_bt (i : Nat) :
    Beside t (BT_DM_KV_CFG_ENABLE i) ∧ Beside t (BT_DM_KV_CFG_PROD_WORD i) ∧ Beside t (BT_DM_KV_CFG_RING i) ∧
    Beside t (BT_DM_KV_CFG_RING_LOG2 i) ∧ Beside t (BT_DM_KV_DONE_DONE_WORD i) ∧ Beside t (BT_DM_KV_STAT_BUSY i) ∧
    Beside t (BT_DM_KV_STAT_CONSUMED i) ∧ Beside t (BT_MC_ELOG_HEAD i) ∧ Beside t (BT_MC_ELOG_LOST i) ∧ Beside t (BT_MC_RETIRED_BANK_ENTRIES i) ∧
    Beside t (BT_MC_RETIRED_PAGES_OUT i) ∧ Beside t (BT_MC_RETIRED_PAGE_ENTRIES i) ∧ Beside t (BT_MSC_ECC_CORRECTED i) ∧
    Beside t (BT_MSC_ECC_POISON_READS i) ∧ Beside t (BT_MSC_ECC_UNCORRECTABLE i) ∧ Beside t (BT_MSC_FLIP_CTL_ARM i) ∧
    Beside t (BT_MSC_FLIP_CTL_DONE i) ∧ Beside t (BT_MSC_STAT_HITS i) ∧ Beside t (BT_MSC_STAT_MISSES i) ∧ Beside t (BT_ST_COMB_IN_USE i) ∧
    Beside t (BT_ST_COMB_SPARE_FOR i) := by
  simp only [Beside, HaltWord, BT_DM_KV_CFG_ENABLE, BT_DM_KV_CFG_PROD_WORD, BT_DM_KV_CFG_RING, BT_DM_KV_CFG_RING_LOG2,
    BT_DM_KV_DONE_DONE_WORD, BT_DM_KV_STAT_BUSY, BT_DM_KV_STAT_CONSUMED, BT_MC_ELOG_HEAD, BT_MC_ELOG_LOST, BT_MC_RETIRED_BANK_ENTRIES,
    BT_MC_RETIRED_PAGES_OUT, BT_MC_RETIRED_PAGE_ENTRIES, BT_MSC_ECC_CORRECTED, BT_MSC_ECC_POISON_READS, BT_MSC_ECC_UNCORRECTABLE,
    BT_MSC_FLIP_CTL_ARM, BT_MSC_FLIP_CTL_DONE, BT_MSC_STAT_HITS, BT_MSC_STAT_MISSES, BT_ST_COMB_IN_USE, BT_ST_COMB_SPARE_FOR]
  omega

@[simp] theorem beside_bt_part (i n : Nat) :
    Beside t (BT_MC_STK_ECC_CORRECTED i n) ∧ Beside t (BT_MC_STK_ECC_POISON_READS i n) ∧ Beside t (BT_MC_STK_ECC_UNCORRECTABLE i n) ∧
    Beside t (BT_ST_PORT_MISLOCKED i n) ∧ Beside t (BT_ST_PORT_ON_L16 i n) ∧ Beside t (BT_ST_PORT_ON_L17 i n) ∧ Beside t (BT_ST_PORT_PHYS i n) ∧
    Beside t (BT_ST_PORT_PRESENT i n) ∧ Beside t (BT_ST_PORT_WIDTH i n) ∧ Beside t (BT_ST_PORT_WITHDRAWN i n) := by
  simp only [Beside, HaltWord, BT_MC_STK_ECC_CORRECTED, BT_MC_STK_ECC_POISON_READS, BT_MC_STK_ECC_UNCORRECTABLE, BT_ST_PORT_MISLOCKED,
    BT_ST_PORT_ON_L16, BT_ST_PORT_ON_L17, BT_ST_PORT_PHYS, BT_ST_PORT_PRESENT, BT_ST_PORT_WIDTH, BT_ST_PORT_WITHDRAWN]
  omega

@[simp] theorem beside_fy (i : Nat) : Beside t (FY_PORTS_PRESENT i) := by
  simp only [Beside, HaltWord, FY_PORTS_PRESENT]
  omega

@[simp] theorem beside_is_part (i n : Nat) :
    Beside t (IS_BOND_GROUP_HALF i n) ∧ Beside t (IS_BOND_GROUP_HEALTH i n) ∧ Beside t (IS_BOND_GROUP_INTERIM i n) ∧
    Beside t (IS_BOND_GROUP_SPARES i n) ∧ Beside t (IS_CLK_REGION_PLL_LOCKED i n) ∧ Beside t (IS_CLK_REGION_VSTEPS i n) := by
  simp only [Beside, HaltWord, IS_BOND_GROUP_HALF, IS_BOND_GROUP_HEALTH, IS_BOND_GROUP_INTERIM, IS_BOND_GROUP_SPARES,
    IS_CLK_REGION_PLL_LOCKED, IS_CLK_REGION_VSTEPS]
  omega

@[simp] theorem beside_is (i : Nat) :
    Beside t (IS_BOND_STAT_HALF_GROUPS i) ∧ Beside t (IS_BOND_STAT_REPLAYS i) ∧ Beside t (IS_BOND_STAT_SPARES_USED i) ∧
    Beside t (IS_CLK_STAT_VSTEP_RAISES i) ∧ Beside t (IS_FENCE_LASTING_HALF i) ∧ Beside t (IS_FLIP_CTL_ARM i) ∧ Beside t (IS_FLIP_CTL_DONE i) ∧
    Beside t (IS_SHOAL_ECC_CORRECTED i) ∧ Beside t (IS_SHOAL_ECC_POISON_READS i) ∧ Beside t (IS_SHOAL_ECC_UNCORRECTABLE i) ∧
    Beside t (IS_SHOAL_ERRADDR_OFFSET i) ∧ Beside t (IS_SHOAL_ERRADDR_POISONED i) ∧ Beside t (IS_SHOAL_ERRADDR_VALID i) := by
  simp only [Beside, HaltWord, IS_BOND_STAT_HALF_GROUPS, IS_BOND_STAT_REPLAYS, IS_BOND_STAT_SPARES_USED, IS_CLK_STAT_VSTEP_RAISES,
    IS_FENCE_LASTING_HALF, IS_FLIP_CTL_ARM, IS_FLIP_CTL_DONE, IS_SHOAL_ECC_CORRECTED, IS_SHOAL_ECC_POISON_READS, IS_SHOAL_ECC_UNCORRECTABLE,
    IS_SHOAL_ERRADDR_OFFSET, IS_SHOAL_ERRADDR_POISONED, IS_SHOAL_ERRADDR_VALID]
  omega

@[simp] theorem beside_lh :
    Beside t LH_CAL_STAT_COPY ∧ Beside t LH_CAL_STAT_GENERATION ∧ Beside t LH_CAL_STAT_STORE_PENDING ∧ Beside t LH_RESET_STAT_DOWN := by
  simp only [Beside, HaltWord, LH_CAL_STAT_COPY, LH_CAL_STAT_GENERATION, LH_CAL_STAT_STORE_PENDING, LH_RESET_STAT_DOWN]
  omega

@[simp] theorem beside_tn (i : Nat) :
    Beside t (TN_CMD_STAT_REFUSED i) ∧ Beside t (TN_DET_DEGRADED i) ∧ Beside t (TN_DET_STRETCHED i) ∧ Beside t (TN_DET_THROTTLED i) ∧
    Beside t (TN_FRAME_CFG_OP_NOW i) ∧ Beside t (TN_FRAME_CFG_OP_REQ i) ∧ Beside t (TN_FRAME_CFG_THROTTLED i) ∧
    Beside t (TN_FRAME_STAT_LAST_STRETCH i) ∧ Beside t (TN_FRAME_STAT_MAX_STRETCH i) ∧ Beside t (TN_FRAME_STAT_STRETCHED_FRAMES i) := by
  simp only [Beside, HaltWord, TN_CMD_STAT_REFUSED, TN_DET_DEGRADED, TN_DET_STRETCHED, TN_DET_THROTTLED, TN_FRAME_CFG_OP_NOW,
    TN_FRAME_CFG_OP_REQ, TN_FRAME_CFG_THROTTLED, TN_FRAME_STAT_LAST_STRETCH, TN_FRAME_STAT_MAX_STRETCH, TN_FRAME_STAT_STRETCHED_FRAMES]
  omega

end

theorem any_addEv_of_any (p : Ev → Bool) (hp : ∀ (x : Ev) (n : Nat) (l : List Nat), p { x with count := n, tens := l } = p x) (e : Ev) (l : List Ev)
    (h : l.any p = true) : (addEv e l).any p = true := by
  induction l with
  | nil => simp at h
  | cons x r ih =>
    simp only [List.any_cons, Bool.or_eq_true] at h
    simp only [addEv]
    split
    · simpa only [List.any_cons, hp, Bool.or_eq_true] using h
    · simpa only [List.any_cons, Bool.or_eq_true] using h.imp_right ih

namespace KeepsHalt

variable {t : Fin 16} {s u w : State}

theorem refl (s : State) : KeepsHalt t s s := ⟨fun _ _ _ => rfl, fun _ _ h => h⟩

theorem trans (h : KeepsHalt t s u) (g : KeepsHalt t u w) : KeepsHalt t s w :=
  ⟨fun f hl hw => (g.1 f hl hw).trans (h.1 f hl hw), fun c i hc => g.2 c i (h.2 c i hc)⟩

/-- An update that touches neither the registers nor what has arisen. -/
theorem of_eq (hr : u.regs = s.regs) (ha : u.arisen = s.arisen) : KeepsHalt t s u :=
  ⟨fun f _ _ => congrArg (fun r => Tbl.get r f.rst f.key) hr, fun _ _ h => ha ▸ h⟩

/-- Such an update after others. -/
theorem also (h : KeepsHalt t s u) (hr : w.regs = u.regs) (ha : w.arisen = u.arisen) : KeepsHalt t s w :=
  h.trans (of_eq hr ha)

theorem ite {c : Prop} [Decidable c] (h : KeepsHalt t s u) (g : KeepsHalt t s w) : KeepsHalt t s (if c then u else w) := by
  split
  · exact h
  · exact g

/-- A loop whose every step keeps the halt; `π`: the state in what the loop carries. -/
theorem foldl_proj {σ α : Type} (π : σ → State) {g : σ → α → σ} {l : List α}
    (hg : ∀ a ∈ l, ∀ r, KeepsHalt t (π r) (π (g r a))) (r : σ) : KeepsHalt t (π r) (π (l.foldl g r)) := by
  induction l generalizing r with
  | nil => exact refl _
  | cons a l ih => exact (hg a List.mem_cons_self r).trans (ih (fun b hb => hg b (List.mem_cons_of_mem a hb)) (g r a))

theorem foldl {α : Type} {g : State → α → State} {l : List α} (hg : ∀ a ∈ l, ∀ z, KeepsHalt t z (g z a)) (s : State) :
    KeepsHalt t s (l.foldl g s) := foldl_proj id hg s

/-- What an operation that answers a pair leaves, by the state it answers. -/
theorem of_fst {β : Type} {p : State × β} {b : β} (h : KeepsHalt t s p.1) (e : p = (u, b)) : KeepsHalt t s u := by
  subst e
  exact h

theorem of_snd {β : Type} {p : β × State} {b : β} (h : KeepsHalt t s p.2) (e : p = (b, u)) : KeepsHalt t s u := by
  subst e
  exact h

/-- A write beside the halt's words. -/
theorem setFld {f : Fld} (h : KeepsHalt t s u) (v : Nat) (hf : Beside t f) : KeepsHalt t s (u.setFld f v) := by
  refine ⟨fun g hl hw => ?_, h.2⟩
  have hne : g.key ≠ f.key := by
    intro e
    have he : g.off = f.off := by unfold Fld.key at e; have := hf.1; omega
    exact hf.2 (he ▸ hw)
  exact (get_set_ne _ _ _ hne).trans (h.1 g hl hw)

theorem raise (h : KeepsHalt t s u) (code isl src d : Nat) (l : List Nat) : KeepsHalt t s (u.raise code isl src d l) :=
  h.trans ⟨fun _ _ _ => rfl, fun _ _ hc => any_addEv_of_any _ (fun _ _ _ => rfl) _ _ hc⟩

end KeepsHalt

end Sys2Proof.Proofs
end
section
/-!
PROOFS. Memory and the completion of a command keep the mark of a halt.
-/
namespace Sys2Proof.Proofs

open Sys2Proof Sys2Proof.Machine Sys2Proof.Laws

section
variable {t : Fin 16}

/-! ### Memory -/

theorem regs_pokes (s : State) (a : Nat) (bs : List Byte) : (s.pokes a bs).regs = s.regs := by
  induction bs generalizing s a with
  | nil => rfl
  | cons b r ih => exact ih (s.setByte a b) (a + 1)

theorem arisen_pokes (s : State) (a : Nat) (bs : List Byte) : (s.pokes a bs).arisen = s.arisen := by
  induction bs generalizing s a with
  | nil => rfl
  | cons b r ih => exact ih (s.setByte a b) (a + 1)

theorem keepsHalt_pokes (s : State) (a : Nat) (bs : List Byte) : KeepsHalt t s (s.pokes a bs) := .of_eq (regs_pokes s a bs) (arisen_pokes s a bs)

theorem keepsHalt_setByte (s : State) (a : Nat) (b : Byte) : KeepsHalt t s (s.setByte a b) := .of_eq rfl rfl
theorem keepsHalt_setPoison (s : State) (w : Nat) (b : Bool) : KeepsHalt t s (s.setPoison w b) := .of_eq rfl rfl
theorem keepsHalt_unflip (s : State) (p : FlipAt) : KeepsHalt t s (s.unflip p) := .of_eq rfl rfl

theorem keepsHalt_setMasked (s : State) (a v m : Nat) : KeepsHalt t s (s.setMasked a v m) :=
  .foldl (fun _ _ z => .ite (keepsHalt_setByte z _ _) (.refl z)) s

theorem keepsHalt_poisonLine (s : State) (a : Nat) : KeepsHalt t s (s.poisonLine a) := .foldl (fun w _ z => keepsHalt_setPoison z w true) s
theorem keepsHalt_cleanLine (s : State) (a : Nat) : KeepsHalt t s (s.cleanLine a) := .foldl (fun w _ z => keepsHalt_setPoison z w false) s
theorem keepsHalt_dropFlips (s : State) (a : Nat) : KeepsHalt t s (s.dropFlips a) := .foldl (fun w _ z => keepsHalt_unflip z (.mem w)) s

theorem keepsHalt_plant (s : State) (p : FlipAt) (f : Flip) : KeepsHalt t s (s.plant p f) := by
  unfold State.plant
  split
  · exact .ite (.of_eq rfl rfl) (.ite (.of_eq rfl rfl) (.of_eq rfl rfl))
  · exact .of_eq rfl rfl

theorem keepsHalt_armIs (s : State) (i m n : Nat) (p : FlipAt) : KeepsHalt t s (s.armIs i m n p) :=
  .ite (((keepsHalt_plant s p _).setFld _ (by simp)).setFld _ (by simp)) (.refl s)
theorem keepsHalt_armMsc (s : State) (i a : Nat) : KeepsHalt t s (s.armMsc i a) :=
  .ite (((keepsHalt_plant s _ _).setFld _ (by simp)).setFld _ (by simp)) (.refl s)

theorem keepsHalt_recordErr (s : State) (i o : Nat) (b : Bool) : KeepsHalt t s (s.recordErr i o b) :=
  .ite (.refl s) ((((KeepsHalt.refl s).setFld _ (by simp)).setFld _ (by simp)).setFld _ (by simp))

theorem keepsHalt_shoalFixed (s : State) (i : Nat) : KeepsHalt t s (s.shoalFixed i) := (KeepsHalt.of_eq rfl rfl).setFld _ (by simp)

theorem keepsHalt_shoalWord (s : State) (i o : Nat) : KeepsHalt t s (s.shoalWord i o).2.2 := by
  have poison : KeepsHalt t s ((s.bump (IS_SHOAL_ECC_POISON_READS i) 1).recordErr i o true) :=
    ((KeepsHalt.refl s).setFld _ (by simp)).trans (keepsHalt_recordErr _ i o true)
  unfold State.shoalWord
  dsimp only
  split
  · exact poison
  · exact ((KeepsHalt.refl s).setFld _ (by simp)).trans (keepsHalt_recordErr _ i o false)
  · exact keepsHalt_shoalFixed s i
  · exact keepsHalt_shoalFixed s i
  · split
    · exact poison
    · exact .refl s

theorem keepsHalt_shoalOpen (s : State) (i : Nat) (l : List Nat) : KeepsHalt t s (s.shoalOpen i l).2 := by
  induction l generalizing s with
  | nil => exact .refl s
  | cons o r ih => exact ((keepsHalt_shoalWord s i o).trans (keepsHalt_pokes _ _ _)).trans (ih _)

theorem keepsHalt_shoalMark (s : State) (i o : Nat) (b : Bool) : KeepsHalt t s (s.shoalMark i o b) :=
  ((keepsHalt_setPoison s _ b).trans (keepsHalt_unflip _ _)).trans (keepsHalt_armIs _ i 1 _ _)

theorem keepsHalt_shoalWrite (s : State) (i o : Nat) (bs : List Byte) (bad : Nat → Bool) : KeepsHalt t s (s.shoalWrite i o bs bad) :=
  ((keepsHalt_shoalOpen s i _).trans (keepsHalt_pokes _ _ _)).trans (.foldl (fun w _ z => keepsHalt_shoalMark z i w _) _)

theorem keepsHalt_logMem (s : State) (i : Nat) (r : Rec4) : KeepsHalt t s (s.logMem i r) := by
  have lost : KeepsHalt t s (s.bump (BT_MC_ELOG_LOST i) 1) := (KeepsHalt.refl s).setFld _ (by simp)
  unfold State.logMem
  extract_lets head tail last old n s'
  split
  · exact .of_eq rfl rfl
  · split
    · split
      · exact lost
      · exact (lost.raise 0x7005 i (srcIx 0 0) 0 []).also rfl rfl
    · exact (KeepsHalt.of_eq (u := { s with elog := s.elog.set (i * 1024 + head) r }) rfl rfl).setFld _ (by simp)

theorem keepsHalt_settle (s : State) (i o : Nat) (cw : List Nat) (b : Bool) : KeepsHalt t s (s.settle i o cw b) :=
  ((KeepsHalt.foldl (fun _ _ z => keepsHalt_pokes z _ _) s).trans (.foldl (fun _ _ z => keepsHalt_cleanLine z _) _)).also rfl rfl

theorem keepsHalt_lineFix (s : State) (i a req : Nat) : KeepsHalt t s (s.lineFix i a req).2 := by
  unfold State.lineFix
  dsimp only
  split
  · exact .refl s
  · exact (keepsHalt_logMem s i _).setFld _ (by simp)
  · split
    · exact ((keepsHalt_logMem s i _).setFld _ (by simp)).raise _ _ _ _ _
    · split
      · exact (((keepsHalt_settle s i _ _ _).trans (keepsHalt_logMem _ i _)).setFld _ (by simp)).raise _ _ _ _ _
      · exact ((keepsHalt_logMem s i _).setFld _ (by simp)).raise _ _ _ _ _

theorem keepsHalt_landLine (s : State) (a v : Nat) (b : Bool) : KeepsHalt t s (s.landLine a v b) :=
  ((keepsHalt_pokes s a _).trans (.ite (keepsHalt_poisonLine _ a) (keepsHalt_cleanLine _ a))).also rfl rfl

theorem keepsHalt_rewriteLine (s : State) (i a v req : Nat) (b : Bool) : KeepsHalt t s (s.rewriteLine i a v req b) :=
  (KeepsHalt.ite (keepsHalt_lineFix s i a req) (.refl s)).trans (keepsHalt_landLine _ a v b)

theorem keepsHalt_mscCheck (s : State) (i : Nat) (l : List Nat) : KeepsHalt t s (s.mscCheck i l).2 := by
  refine KeepsHalt.foldl_proj Prod.snd (fun w _ r => ?_) (false, s)
  split
  · exact (KeepsHalt.refl r.2).setFld _ (by simp)
  · exact ((keepsHalt_pokes r.2 w _).also rfl rfl).setFld _ (by simp)
  · exact (KeepsHalt.refl r.2).setFld _ (by simp)
  · exact (KeepsHalt.of_eq (s := r.2) rfl rfl).setFld _ (by simp)
  · split
    · exact (KeepsHalt.refl r.2).setFld _ (by simp)
    · exact .refl r.2

theorem keepsHalt_mscPoison (s : State) (i a req : Nat) : KeepsHalt t s (s.mscPoison i a req) :=
  (((keepsHalt_poisonLine s a).trans (keepsHalt_dropFlips _ a)).trans (keepsHalt_logMem _ i _)).raise _ _ _ _ _

theorem keepsHalt_setMsc (s : State) (m : Tbl MscLine) : KeepsHalt t s { s with msc := m } := .of_eq rfl rfl

theorem keepsHalt_evict (s : State) (i a : Nat) : KeepsHalt t s (s.evict i a) := by
  unfold State.evict
  extract_lets s1 s2
  have written : KeepsHalt t s s1 := by
    refine .ite ?_ (.refl s)
    rcases hc : s.mscCheck i (lineWords a) with ⟨bad, z⟩
    have checked : KeepsHalt t s z := .of_snd (keepsHalt_mscCheck s i _) hc
    exact (checked.trans (.ite (keepsHalt_mscPoison z i a reqCache) (.refl z))).trans (keepsHalt_rewriteLine _ i a _ _ _)
  have dropped : KeepsHalt t s s2 := written.trans (keepsHalt_dropFlips s1 a)
  exact dropped.trans (keepsHalt_setMsc s2 _)

theorem keepsHalt_mscTouch (s : State) (i a w : Nat) : KeepsHalt t s (s.mscTouch i a w) := .of_eq rfl rfl

theorem keepsHalt_mscAlloc (s : State) (i a : Nat) (d : Bool) : KeepsHalt t s (s.mscAlloc i a d) := by
  unfold State.mscAlloc
  extract_lets x ways at_ w s'
  split
  · exact .of_eq rfl rfl
  · split
    · exact .of_eq rfl rfl
    · have evicted : KeepsHalt t s s' := keepsHalt_evict s i _
      exact (evicted.trans (keepsHalt_setMsc s' _)).trans (keepsHalt_mscTouch _ i a _)

theorem keepsHalt_lineFetch (s : State) (i a req : Nat) : KeepsHalt t s (s.lineFetch i a req).2 :=
  (keepsHalt_lineFix s i a req).trans (.ite (.refl _) (keepsHalt_mscAlloc _ i a false))

theorem keepsHalt_lineRead (s : State) (i a req : Nat) (l : List Nat) : KeepsHalt t s (s.lineRead i a req l).2 := by
  have hit : KeepsHalt t s ((s.bump (BT_MSC_STAT_HITS i) 1).mscAlloc i a false) :=
    ((KeepsHalt.refl s).setFld _ (by simp)).trans (keepsHalt_mscAlloc _ i a false)
  unfold State.lineRead
  split
  · rcases hc : ((s.bump (BT_MSC_STAT_HITS i) 1).mscAlloc i a false).mscCheck i l with ⟨bad, z⟩
    have checked : KeepsHalt t s z := .of_snd (hit.trans (keepsHalt_mscCheck _ i l)) hc
    dsimp only
    split
    · split
      · exact checked.trans (keepsHalt_mscPoison z i a req)
      · have dropped : KeepsHalt t s { z.dropFlips a with msc := z.msc.erase a } :=
          (checked.trans (keepsHalt_dropFlips z a)).trans (keepsHalt_setMsc _ _)
        exact dropped.trans (keepsHalt_lineFetch _ i a req)
    · exact checked
  · exact ((KeepsHalt.refl s).setFld _ (by simp)).trans (keepsHalt_lineFetch _ i a req)

theorem keepsHalt_lineWrite (s : State) (i a v m req : Nat) (bad : Nat → Bool) : KeepsHalt t s (s.lineWrite i a v m req bad) := by
  unfold State.lineWrite
  extract_lets full s1 s2 s3
  have opened : KeepsHalt t s s1 := by
    refine .ite ((KeepsHalt.ite ((KeepsHalt.refl s).setFld _ (by simp)) ((KeepsHalt.refl s).setFld _ (by simp))).trans (keepsHalt_cleanLine _ a)) ?_
    rcases hr : s.lineRead i a req (maskParts a m) with ⟨r, z⟩
    have read : KeepsHalt t s z := .of_snd (keepsHalt_lineRead s i a req _) hr
    exact .ite ((read.trans (keepsHalt_pokes z a _)).trans (keepsHalt_poisonLine _ a)) read
  have unflipped : KeepsHalt t s s2 := (opened.trans (keepsHalt_setMasked s1 a v m)).trans (.foldl (fun w _ z => keepsHalt_unflip z (.mem w)) _)
  have marked : KeepsHalt t s s3 := unflipped.trans (.foldl (fun w _ z => .ite (keepsHalt_setPoison z w true) (.refl z)) s2)
  exact (marked.trans (keepsHalt_mscAlloc s3 i a true)).trans (keepsHalt_armMsc _ i _)

theorem keepsHalt_physWrite (s : State) (a n v req : Nat) (b : Bool) : KeepsHalt t s (s.physWrite a n v req b) := by
  unfold State.physWrite
  split
  · exact keepsHalt_shoalWrite s _ _ _ _
  · exact keepsHalt_lineWrite s _ _ _ _ _ _
  · exact keepsHalt_pokes s a _

/-! ### A completion (R430) -/

theorem keepsHalt_ringPut (s : State) (k o n v : Nat) : KeepsHalt t s (s.ringPut k o n v) :=
  .ite (keepsHalt_physWrite s _ n v reqHost false) (.ite (.refl s) (.of_eq rfl rfl))

theorem keepsHalt_msix (s : State) (p v : Nat) : KeepsHalt t s (s.msix p v) :=
  .ite (.refl s) (.ite (.of_eq rfl rfl) (.ite (.ite (.refl s) (.of_eq rfl rfl)) (.of_eq rfl rfl)))

theorem keepsHalt_complete (s : State) (c : HCmd) (status result extra : Nat) : KeepsHalt t s (s.complete c status result extra) := by
  unfold State.complete
  extract_lets rec_ r0 r n s1 s2 s3 s4
  refine .ite (.of_eq rfl rfl) ?_
  have recorded : KeepsHalt t s s3 := ((keepsHalt_ringPut s c.key _ 64 rec_).also rfl rfl (w := s2)).trans (keepsHalt_ringPut s2 c.key 0x18 8 _)
  have counted : KeepsHalt t s s4 := .ite recorded (recorded.setFld _ (by simp))
  exact .ite (counted.trans (keepsHalt_msix s4 _ _)) (recorded.trans (keepsHalt_msix s3 _ _))

end

end Sys2Proof.Proofs
end
section
/-!
PROOFS. What else a halting frame tick runs keeps it: the halt itself, repairs and operating points.
-/
namespace Sys2Proof.Proofs

open Sys2Proof Sys2Proof.Machine Sys2Proof.Laws

section
variable {t : Fin 16}

/-! ### A tenancy halts (R44, R178, R319, R479) -/

theorem get_filter_of_keep {α : Type} (l : Tbl α) (d : α) (keep : Nat → Bool) {k : Nat} (hk : keep k = true) :
    Tbl.get (l.filter (fun e => keep e.1)) d k = l.get d k := by
  induction l with
  | nil => rfl
  | cons p r ih =>
    obtain ⟨j, w⟩ := p
    by_cases h : j = k
    · subst h; simp [Tbl.get, hk]
    · by_cases g : keep j = true <;> simp [Tbl.get, h, g, ih]

theorem keepsHalt_setPresent (s : State) (i : Nat) (v : Bool) : KeepsHalt t s (s.setPresent i v) :=
  .foldl (fun p _ z => (KeepsHalt.refl z).setFld (f := FY_PORTS_PRESENT p) _ (by simp)) s

theorem keepsHalt_postPkts (s : State) (b : Nat) (l : List Pkt) : KeepsHalt t s (s.postPkts b l) := by
  unfold State.postPkts
  split
  · exact .refl s
  · exact .ite (.of_eq rfl rfl) (.of_eq rfl rfl)

theorem keepsHalt_setTile (s : State) (b : Nat) (x : Tile) : KeepsHalt t s (s.setTile b x) := .of_eq rfl rfl

theorem keepsHalt_sendSkips (s : State) (b : Nat) (l : List Nat) : KeepsHalt t s (s.sendSkips b l) := by
  refine .foldl (fun k _ z => ?_) s
  extract_lets b0
  split
  · exact .refl z
  · exact (keepsHalt_setTile z b _).trans (keepsHalt_postPkts _ b _)

theorem keepsHalt_maskIsland (s : State) (i : Nat) : KeepsHalt t s (s.maskIsland i) := by
  unfold State.maskIsland State.loseWork
  extract_lets s1 t1 ofTile lost s2 t2
  have down : KeepsHalt t s s2 := (keepsHalt_setPresent s i false).trans (keepsHalt_setTile s1 i _)
  exact (down.trans (keepsHalt_setTile s2 i _)).trans (keepsHalt_sendSkips _ i _)

theorem keepsHalt_clearIsRegs (s : State) (i : Nat) : KeepsHalt t s (s.clearIsRegs i) := by
  unfold State.clearIsRegs
  extract_lets lo keep
  have cleared : KeepsHalt t s { s with regs := s.regs.filter (fun e => keep e.1) } := by
    refine ⟨fun f hl hw => get_filter_of_keep s.regs f.rst keep ?_, fun _ _ h => h⟩
    have below : f.key < lo := by
      have := t.isLt
      simp only [Fld.key, lo]
      rcases hw with h | h | h <;> omega
    simp [keep, below]
  exact cleared.setFld _ (by simp)

theorem keepsHalt_clearDie (s : State) (i : Nat) : KeepsHalt t s (s.clearDie i) := (keepsHalt_clearIsRegs s i).also rfl rfl

theorem keepsHalt_setRejoin (s : State) (i : Nat) (r : Rejoin) : KeepsHalt t s (s.setRejoin i r) := .of_eq rfl rfl

theorem keepsHalt_powerDownIsland (s : State) (i : Nat) : KeepsHalt t s (s.powerDownIsland i) := by
  have locks (z : State) : KeepsHalt t z (z.pllLocked i 0) := .foldl (fun r _ y => (KeepsHalt.refl y).setFld _ (by simp)) z
  unfold State.powerDownIsland State.islandDown
  extract_lets z
  have masked : KeepsHalt t s (z.maskIsland i) := (KeepsHalt.of_eq (u := z) rfl rfl).trans (keepsHalt_maskIsland z i)
  have downed : KeepsHalt t s ((((z.maskIsland i).clearDie i).pllLocked i 0).setFldBit LH_RESET_STAT_DOWN i true) :=
    ((masked.trans (keepsHalt_clearDie _ i)).trans (locks _)).setFld _ (by simp)
  exact .ite (.refl s) (downed.trans (keepsHalt_setRejoin _ i _))

theorem keepsHalt_kvHalt (s : State) (i : Nat) : KeepsHalt t s (s.kvHalt i) := (KeepsHalt.of_eq (u := s.setKv i _) rfl rfl).setFld _ (by simp)

theorem keepsHalt_abandonCore (s : State) (c : CoreId) : KeepsHalt t s (s.abandonCore c) := .of_eq rfl rfl

theorem mem_tnIslands_lt {s : State} {n i : Nat} (h : i ∈ s.tnIslands n) : i < 16 :=
  List.mem_range.1 (List.mem_filter.1 h).1

theorem keepsHalt_dmaTenancyHalt (s : State) (n : Nat) : KeepsHalt t s (s.dmaTenancyHalt n) := by
  refine .foldl (fun i hi y => .foldl (fun c hc z => ?_) y) s
  have hi := mem_tnIslands_lt hi
  have hc := List.mem_range.1 hc
  refine .ite ((KeepsHalt.of_eq (u := z.setCh _ _) rfl rfl).setFld _ ?_) (.refl z)
  have base : hostCh (i * 32 + c) = false := by simp only [hostCh]; exact decide_eq_false (by omega)
  simp only [dmState, chFld, base, Beside, HaltWord, BT_DM_CH_STAT_STATE, Bool.false_eq_true, if_false]
  omega

theorem keepsHalt_setRun (s : State) (n : Nat) (r : TenRun) : KeepsHalt t s (s.setRun n r) := .of_eq rfl rfl

/-- A tenancy halts: three fields say so, and the rest of it leaves them. -/
theorem keepsHalt_haltCore (s : State) (n : Nat) (clean : Bool) (code : Nat) :
    KeepsHalt t (((s.setFld (TN_STATE_STATE n) tnHalted).setFld (TN_CKPT_STAT_CLEAN n) (if clean then 1 else 0)).setFld (TN_STATE_HALT_EVENT n) code)
      (s.haltCore n clean code) := by
  unfold State.haltCore
  extract_lets z a b down b' c d
  have quiet : KeepsHalt t z a := .foldl (fun i _ y =>
    (KeepsHalt.foldl (fun k _ x => keepsHalt_abandonCore x _) y).trans (keepsHalt_kvHalt _ i)) z
  have stopped : KeepsHalt t z b := quiet.trans (keepsHalt_dmaTenancyHalt a n)
  have idle : KeepsHalt t z d := (stopped.trans (keepsHalt_setRun b n _)).trans (.of_eq rfl rfl (s := c) (u := d))
  exact idle.trans (.foldl (fun i _ y => keepsHalt_powerDownIsland y i) d)

theorem keepsHalt_setOp (s : State) (v : Nat) : KeepsHalt t s (s.setOp t v) := by
  unfold State.setOp
  extract_lets z' z
  have asked : KeepsHalt t s z := ((KeepsHalt.refl s).setFld _ (by simp)).trans (keepsHalt_setRun _ t _)
  exact .ite ((asked.setFld _ (by simp)).setFld _ (by simp)) asked

theorem keepsHalt_dropRetired (s : State) (i : Nat) : KeepsHalt t s (s.dropRetired i) := .of_eq rfl rfl

theorem keepsHalt_retirePage (s : State) (i o : Nat) : KeepsHalt t s (s.retirePage i o).2 := by
  unfold State.retirePage
  extract_lets a new z
  split
  · exact .refl s
  · split
    · exact .refl s
    · have entered : KeepsHalt t s z := (KeepsHalt.of_eq (u := { s with retPages := s.retPages ++ [a] }) rfl rfl).setFld _ (by simp)
      exact (KeepsHalt.ite (entered.setFld _ (by simp)) entered).trans (keepsHalt_dropRetired _ i)

theorem keepsHalt_retireBank (s : State) (i a b c d : Nat) : KeepsHalt t s (s.retireBank i a b c d).2 := by
  unfold State.retireBank
  extract_lets l n z
  split
  · exact .refl s
  · split
    · exact .refl s
    · have entered : KeepsHalt t s z := (KeepsHalt.of_eq (u := { s with retBanks := s.retBanks ++ [l] }) rfl rfl).setFld _ (by simp)
      exact (entered.setFld _ (by simp)).trans (keepsHalt_dropRetired _ i)

theorem keepsHalt_calBegin (s : State) : KeepsHalt t s s.calBegin := .of_eq rfl rfl

theorem keepsHalt_calEnd (s : State) (fresh : Nat → Bool) : KeepsHalt t s (s.calEnd fresh) := by
  unfold State.calEnd
  extract_lets k gen flash z
  have ended : KeepsHalt t s z := .of_eq rfl rfl
  exact ((ended.setFld _ (by simp)).setFld _ (by simp)).setFld _ (by simp)

theorem keepsHalt_boundIdle (s : State) (c : HCmd) : KeepsHalt t s (s.boundIdle t c) := by
  unfold State.boundIdle
  refine .ite (keepsHalt_complete s c _ _ _) (.ite ((keepsHalt_setOp s _).trans (keepsHalt_complete _ c _ _ _)) (.ite (keepsHalt_complete s c _ _ _) ?_))
  split
  rename_i ok z hz
  have retired : KeepsHalt t s z := by
    split at hz
    · exact .of_snd (keepsHalt_retirePage s _ _) hz
    · exact .of_snd (keepsHalt_retireBank s _ _ _ _ _) hz
  exact .ite (((retired.trans (keepsHalt_calBegin z)).trans (keepsHalt_calEnd _ _)).trans (keepsHalt_complete _ c _ _ _))
    (retired.trans (keepsHalt_complete z c _ _ _))

/-- What a halt writes stands while the commands that waited for a boundary act. -/
theorem keepsHalt_haltNow (s : State) (clean : Bool) (code : Nat) :
    KeepsHalt t (((s.setFld (TN_STATE_STATE t) tnHalted).setFld (TN_CKPT_STAT_CLEAN t) (if clean then 1 else 0)).setFld (TN_STATE_HALT_EVENT t) code)
      (s.haltNow t clean code) := by
  have freed : KeepsHalt t (s.haltCore t clean code) { s.haltCore t clean code with bounds := s.bounds.erase t } := .of_eq rfl rfl
  exact ((keepsHalt_haltCore s t clean code).trans freed).trans
    (.foldl (fun c _ z => .ite (keepsHalt_complete z c _ _ _) (keepsHalt_boundIdle z c)) _)

/-! ### Step 5 of a frame tick (R36) -/

theorem keepsHalt_showMislock (s : State) (i p : Nat) : KeepsHalt t s (s.showMislock i p) := .ite (.refl s) ((KeepsHalt.refl s).setFld _ (by simp))

theorem keepsHalt_ringLocked (s : State) (i p j : Nat) : KeepsHalt t s (s.ringLocked i p j) :=
  (KeepsHalt.of_eq (s := s) rfl rfl).trans (keepsHalt_showMislock _ i p)

/-- A lane that a repair puts in use starts anew: its counts are gone and its ring is locked. -/
theorem keepsHalt_renewLane (s : State) (i p l : Nat) :
    KeepsHalt t s ({ s with laneCnt := s.laneCnt.erase (laneKey i p l) }.ringLocked i p l) :=
  (KeepsHalt.of_eq (s := s) rfl rfl).trans (keepsHalt_ringLocked _ i p l)

theorem keepsHalt_setLaneCnt (s : State) (x : Tbl LaneCnt) : KeepsHalt t s { s with laneCnt := x } := .of_eq rfl rfl

theorem keepsHalt_applyRep (s : State) (i : Nat) (k : RepKind) : KeepsHalt t s (s.applyRep i k) := by
  have same : KeepsHalt t s s := .refl s
  cases k with
  | bond a g =>
    exact ((((KeepsHalt.ite ((same.setFld _ (by simp)).setFld _ (by simp)) same).setFld _ (by simp)).setFld _ (by simp)).setFld _ (by simp)).setFld _ (by simp)
  | half a g =>
    have halved : KeepsHalt t s (if s.fld (IS_BOND_GROUP_HALF i g) = 1 then s else
        (s.setFld (IS_BOND_GROUP_HALF i g) 1).incFld (IS_BOND_STAT_HALF_GROUPS i) 1) := .ite same ((same.setFld _ (by simp)).setFld _ (by simp))
    exact ((KeepsHalt.ite halved (halved.setFld _ (by simp))).setFld _ (by simp)).setFld _ (by simp)
  | lane p l sp =>
    have renewed := keepsHalt_renewLane (t := t) s i p l
    exact .ite (renewed.setFld _ (by simp)) (.ite ((renewed.setFld _ (by simp)).setFld _ (by simp)) (renewed.setFld _ (by simp)))
  | plane p n =>
    have renewed := KeepsHalt.foldl (t := t) (l := List.range 16) (fun l _ z => keepsHalt_renewLane z i p l) s
    exact ((((renewed.setFld _ (by simp)).setFld _ (by simp)).setFld _ (by simp)).setFld _ (by simp)).setFld _ (by simp)
  | absent p l a => exact ((same.setFld (f := BT_ST_PORT_PRESENT i p) _ (by simp)).trans (keepsHalt_setLaneCnt _ _)).setFld _ (by simp)
  | withdraw p a => exact ((same.setFld _ (by simp)).setFld _ (by simp)).setFld _ (by simp)
  | comb a c => exact ((same.setFld _ (by simp)).setFld _ (by simp)).setFld _ (by simp)
  | vstep a r => exact (same.setFld _ (by simp)).setFld _ (by simp)

theorem keepsHalt_forceRepairs (s : State) (mask due : Nat) : KeepsHalt t s (s.forceRepairs mask due) := by
  unfold State.forceRepairs
  extract_lets z
  split
  rename_i y left hy
  have applied : KeepsHalt t z y := by
    refine .of_fst (KeepsHalt.foldl_proj Prod.fst (fun x _ r => ?_) (z, [])) hy
    exact .foldl (fun i _ w => keepsHalt_applyRep w i x.kind) r.1
  exact ((KeepsHalt.of_eq (u := z) rfl rfl).trans applied).trans (.of_eq rfl rfl)

theorem keepsHalt_storeSelected (s : State) : KeepsHalt t s s.storeSelected := by
  have stored : KeepsHalt t s (s.calBegin.calEnd (fun k => k == 2 || k == 3 || k == 5)) := (keepsHalt_calBegin s).trans (keepsHalt_calEnd _ _)
  have deferred : KeepsHalt t s ({ s with selNew := false, storeTried := s.now }.setFld LH_CAL_STAT_STORE_PENDING 1) :=
    (KeepsHalt.of_eq (s := s) rfl rfl).setFld _ (by simp)
  exact .ite (.refl s) (.ite (.of_eq rfl rfl) (.ite (.refl s) (.ite deferred (stored.trans (.of_eq rfl rfl)))))

theorem keepsHalt_forceTrims (s : State) (n : Nat) : KeepsHalt t s (s.forceTrims n) := by
  refine (KeepsHalt.of_eq (u := { s with mzPend := [] }) rfl rfl).trans (.foldl (fun _ _ _ => ?_) _)
  exact .ite (.of_eq rfl rfl) (.of_eq rfl rfl)

theorem keepsHalt_noteDegraded (s : State) : KeepsHalt t s (s.noteDegraded t) := by
  unfold State.noteDegraded
  extract_lets now was z' z y j i
  have noted : KeepsHalt t s z := .of_eq rfl rfl
  have told : KeepsHalt t s y := .ite (noted.setFld _ (by simp)) noted
  exact .ite told (told.raise 0x5003 i (srcIx 0 0) 0 [])

theorem keepsHalt_setKv (s : State) (i : Nat) (k : Kv) : KeepsHalt t s (s.setKv i k) := .of_eq rfl rfl

theorem keepsHalt_kvForce (s : State) (i : Nat) : KeepsHalt t s (s.kvForce i) := by
  unfold State.kvForce
  extract_lets k x y z' z
  have configured : KeepsHalt t s x := by
    dsimp only [x]
    split
    · exact ((((KeepsHalt.refl s).setFld _ (by simp)).setFld _ (by simp)).setFld _ (by simp)).setFld _ (by simp)
    · exact .refl s
  have done : KeepsHalt t s y := by
    dsimp only [y]
    split
    · exact configured.setFld _ (by simp)
    · exact configured
  have cleared : KeepsHalt t s z := done.trans (keepsHalt_setKv y i _)
  exact .ite (.refl s) ((cleared.trans (keepsHalt_setKv z i _)).setFld _ (by simp))

theorem keepsHalt_raiseOp (s : State) (lowered aligned : Bool) : KeepsHalt t s (s.raiseOp t lowered aligned) := by
  unfold State.raiseOp
  extract_lets op req z y
  have raised : KeepsHalt t s z := (KeepsHalt.refl s).setFld _ (by simp)
  have freed : KeepsHalt t s y := .ite (raised.setFld _ (by simp)) raised
  exact .ite (.refl s) (.ite (freed.trans (keepsHalt_setRun y t _)) freed)

theorem keepsHalt_forceStep (s : State) (lowered aligned : Bool) : KeepsHalt t s (s.forceStep t lowered aligned) := by
  unfold State.forceStep
  extract_lets z y
  have repaired : KeepsHalt t s z := (((keepsHalt_forceRepairs s _ _).trans (keepsHalt_storeSelected _)).trans (keepsHalt_forceTrims _ t)).trans
    (keepsHalt_noteDegraded _)
  have forced : KeepsHalt t s y := repaired.trans (.foldl (fun i _ w => keepsHalt_kvForce w i) z)
  exact forced.trans (keepsHalt_raiseOp y lowered aligned)

/-! ### Before the commit decision: a lowering, and the frame's stretch (R43, R46) -/

theorem keepsHalt_noteThrottle (s : State) : KeepsHalt t s (s.noteThrottle t) :=
  .ite (((KeepsHalt.refl s).setFld _ (by simp)).trans (keepsHalt_setRun _ t _)) (.refl s)

theorem keepsHalt_lowerNow (s : State) : KeepsHalt t s (s.lowerNow t).2 := by
  unfold State.lowerNow
  extract_lets r op z y
  have called : KeepsHalt t s z := .of_eq rfl rfl
  have lowered : KeepsHalt t s y := called.setFld _ (by simp)
  split
  · exact keepsHalt_noteThrottle s
  · split
    · exact (KeepsHalt.ite (lowered.setFld _ (by simp)) lowered).trans (keepsHalt_noteThrottle _)
    · exact called.trans (keepsHalt_noteThrottle z)

theorem keepsHalt_stretchStats (s : State) : KeepsHalt t s (s.stretchStats t) := by
  unfold State.stretchStats
  extract_lets n z
  have noted : KeepsHalt t s z := ((KeepsHalt.refl s).setFld _ (by simp)).setFld _ (by simp)
  exact .ite noted ((noted.setFld _ (by simp)).setFld _ (by simp))

end

end Sys2Proof.Proofs
end
section
/-!
PROOFS. The frame that would carry the step counter past its last value (R32).
-/
namespace Sys2Proof.Proofs

open Sys2Proof Sys2Proof.Machine Sys2Proof.Laws

/-- The fields of a tenancy's halt, among all that is kept. -/
theorem KeepsHalt.fields {t : Fin 16} {s u : State} (h : KeepsHalt t s u) :
    u.fld (TN_STATE_STATE t) = s.fld (TN_STATE_STATE t) ∧ u.fld (TN_CKPT_STAT_CLEAN t) = s.fld (TN_CKPT_STAT_CLEAN t) ∧
    u.fld (TN_STATE_HALT_EVENT t) = s.fld (TN_STATE_HALT_EVENT t) ∧ u.fld (TN_STEP_STEP t) = s.fld (TN_STEP_STEP t) :=
  ⟨h.1 _ (by decide : 0 < 64) (.inl rfl), h.1 _ (by decide : 1 < 64) (.inr (.inr rfl)), h.1 _ (by decide : 16 < 64) (.inl rfl),
    h.1 _ (by decide : 0 < 64) (.inr (.inl rfl))⟩

/-- What TN_STATE and TN_CKPT_STAT say once a tenancy has halted (R35, R545); its step counter stands. -/
theorem haltNow_fields (s : State) (t : Fin 16) (code : Nat) :
    (s.haltNow t false code).fld (TN_STATE_STATE t) = tnHalted ∧ (s.haltNow t false code).fld (TN_CKPT_STAT_CLEAN t) = 0 ∧
    (s.haltNow t false code).fld (TN_STATE_HALT_EVENT t) = code % 2 ^ 16 ∧ (s.haltNow t false code).fld (TN_STEP_STEP t) = s.fld (TN_STEP_STEP t) := by
  obtain ⟨hstate, hclean, hevent, hstep⟩ := (keepsHalt_haltNow (t := t) s false code).fields
  have kce : (TN_CKPT_STAT_CLEAN t).key ≠ (TN_STATE_HALT_EVENT t).key := by simp only [Fld.key, TN_CKPT_STAT_CLEAN, TN_STATE_HALT_EVENT]; omega
  have kse : (TN_STATE_STATE t).key ≠ (TN_STATE_HALT_EVENT t).key := by simp only [Fld.key, TN_STATE_STATE, TN_STATE_HALT_EVENT]; omega
  have ksc : (TN_STATE_STATE t).key ≠ (TN_CKPT_STAT_CLEAN t).key := by simp only [Fld.key, TN_STATE_STATE, TN_CKPT_STAT_CLEAN]; omega
  have kte : (TN_STEP_STEP t).key ≠ (TN_STATE_HALT_EVENT t).key := by simp only [Fld.key, TN_STEP_STEP, TN_STATE_HALT_EVENT]; omega
  have ktc : (TN_STEP_STEP t).key ≠ (TN_CKPT_STAT_CLEAN t).key := by simp only [Fld.key, TN_STEP_STEP, TN_CKPT_STAT_CLEAN]; omega
  have kts : (TN_STEP_STEP t).key ≠ (TN_STATE_STATE t).key := by simp only [Fld.key, TN_STEP_STEP, TN_STATE_STATE]; omega
  refine ⟨hstate.trans ?_, hclean.trans ?_, hevent.trans ?_, hstep.trans ?_⟩
  · rw [fld_setFld_ne _ _ kse, fld_setFld_ne _ _ ksc, fld_setFld_self]; rfl
  · rw [fld_setFld_ne _ _ kce, fld_setFld_self]; rfl
  · rw [fld_setFld_self]; rfl
  · rw [fld_setFld_ne _ _ kte, fld_setFld_ne _ _ ktc, fld_setFld_ne _ _ kts]

/-- A halt leaves the events that have arisen. -/
theorem any_arisen_haltNow {s : State} (t : Fin 16) (clean : Bool) (halt : Nat) {code isl : Nat}
    (h : s.arisen.any (fun e => e.code == code && e.isl == isl) = true) :
    (s.haltNow t clean halt).arisen.any (fun e => e.code == code && e.isl == isl) = true := (keepsHalt_haltNow s clean halt).2 code isl h

/-- An event just raised is there, by its code and island. -/
theorem any_arisen_raise (s : State) (code isl src d : Nat) (l : List Nat) :
    (s.raise code isl src d l).arisen.any (fun e => e.code == code && e.isl == isl) = true := by
  have raised := arisen_raise s code isl src d l
  rw [List.any_eq_true] at raised ⊢
  obtain ⟨e, hmem, he⟩ := raised
  rw [Bool.and_eq_true] at he
  exact ⟨e, hmem, he.1⟩

/-- The frame tick at the last step: no commit; the event is raised and the tenancy halts, not clean. -/
theorem frameTick_at_last_step {s : State} {t : Nat} (aligned : Bool) (hf : (s.run t).fresh = false) (hc : haltsClean (s.run t).halts = true)
    (hs : s.fld (TN_STEP_STEP t) = 2 ^ 48 - 1) :
    s.frameTick t aligned =
      (((s.lowerNow t).2.stretchStats t).raise 0x5007 16 (srcIx 0 0) 0 [t]).haltTick t 0x5007 false aligned (s.lowerNow t).1 := by
  unfold State.frameTick
  simp [hf, hc, hs]

/-- What is left of steps 5 to 7 of R36 for a tenancy that does not run. -/
theorem frameTail_not_running {s : State} {t : Nat} {lowered aligned : Bool} (h : (s.forceStep t lowered aligned).running t = false)
    (committed : Bool) : s.frameTail t committed aligned lowered =
      if (s.forceStep t lowered aligned).takes then (s.forceStep t lowered aligned).sampleTen t else s.forceStep t lowered aligned := by
  unfold State.frameTail
  simp [h]

theorem running_of_halted {s : State} {t : Nat} (h : s.fld (TN_STATE_STATE t) = tnHalted) : s.running t = false := by
  simp [State.running, State.tn, h, tnHalted, tnRunning]

/-- Settles O58: the state before step 7 is that of the halt, which the boundary commands and step 5 leave as it is. -/
theorem stepLimitHalts : Obligations.StepLimitHalts := by
  unfold Obligations.StepLimitHalts
  intro t aligned s hfresh hclean hlast
  have before : KeepsHalt t s ((s.lowerNow t).2.stretchStats t) := (keepsHalt_lowerNow s).trans (keepsHalt_stretchStats _)
  obtain ⟨-, -, -, hstep⟩ := (before.raise 0x5007 16 (srcIx 0 0) 0 [t.val]).fields
  have arose := any_arisen_raise ((s.lowerNow t).2.stretchStats t) 0x5007 16 (srcIx 0 0) 0 [t.val]
  rw [frameTick_at_last_step aligned hfresh hclean hlast, State.haltTick]
  generalize ((s.lowerNow t).2.stretchStats t).raise 0x5007 16 (srcIx 0 0) 0 [t.val] = z at hstep arose ⊢
  obtain ⟨zState, zClean, zEvent, zStep⟩ := haltNow_fields z t 0x5007
  have forced := keepsHalt_forceStep (t := t) (z.haltNow t false 0x5007) (s.lowerNow t).1 aligned
  obtain ⟨uState, uClean, uEvent, uStep⟩ := forced.fields
  have halted := uState.trans zState
  exact ⟨_, frameTail_not_running (running_of_halted halted) false, halted, uClean.trans zClean,
    uStep.trans (zStep.trans (hstep.trans hlast)), uEvent.trans zEvent, forced.2 0x5007 16 (any_arisen_haltNow t false 0x5007 arose)⟩

end Sys2Proof.Proofs
end
section
/-!
PROOFS. Repeated events merge (R52), and what their record shows (R541).
-/
namespace Sys2Proof.Proofs

open Sys2Proof Sys2Proof.Machine Sys2Proof.Laws

theorem same_eq_false {x e : Ev} (h : ¬ (x.code = e.code ∧ x.isl = e.isl ∧ x.src = e.src)) : x.same e = false := by
  refine Bool.eq_false_iff.2 (fun hs => h ?_)
  simp only [Ev.same, Bool.and_eq_true, beq_iff_eq] at hs
  obtain ⟨⟨hcode, hisl⟩, hsrc⟩ := hs
  exact ⟨hcode, hisl, hsrc⟩

/-- An event with none of its kind before it is put at the end. -/
theorem addEv_new (e : Ev) (l : List Ev) (h : ∀ x ∈ l, x.same e = false) : addEv e l = l ++ [e] := by
  induction l with
  | nil => rfl
  | cons x r ih =>
    rw [addEv, h x List.mem_cons_self, ih (fun y hy => h y (List.mem_cons_of_mem x hy))]
    rfl

/-- A repeat counts in the one event of its kind, and leaves those before it. -/
theorem addEv_repeat (e x : Ev) (l : List Ev) (h : ∀ y ∈ l, y.same e = false) (hx : x.same e = true) (ht : e.tens = []) :
    addEv e (l ++ [x]) = l ++ [{ x with count := min (x.count + 1) 255 }] := by
  induction l with
  | nil => simp [addEv, hx, ht]
  | cons y r ih =>
    rw [List.cons_append, addEv, h y List.mem_cons_self, ih (fun z hz => h z (List.mem_cons_of_mem y hz))]
    rfl

/-- The one event that repeated occurrences leave, with their number and the DETAIL of the first. -/
def merged (code isl src d n : Nat) : Ev := { code := code, isl := isl, src := src, detail := d, count := min n 255 }

/-- Further occurrences, with any DETAILs, of an event that stands last. -/
theorem arisen_raises (code isl src d : Nat) (l : List Nat) (older : List Ev) (n : Nat) (s : State)
    (hnone : ∀ x ∈ older, ¬ (x.code = code ∧ x.isl = isl ∧ x.src = src)) (hs : s.arisen = older ++ [merged code isl src d n]) :
    (l.foldl (fun t x => t.raise code isl src x) s).arisen = older ++ [merged code isl src d (l.length + n)] := by
  induction l generalizing s n with
  | nil => simpa using hs
  | cons x r ih =>
    have other : ∀ y ∈ older, y.same { code := code, isl := isl, src := src, detail := x } = false :=
      fun y hy => same_eq_false (hnone y hy)
    have counted : min (min n 255 + 1) 255 = min (n + 1) 255 := by omega
    have next : (s.raise code isl src x).arisen = older ++ [merged code isl src d (n + 1)] := by
      simp only [State.raise]
      rw [hs, addEv_repeat _ _ _ other (by simp [merged, Ev.same]) rfl]
      simp only [merged, counted]
    rw [List.foldl_cons, ih (n + 1) _ next, List.length_cons, Nat.add_right_comm, Nat.add_assoc]

/-- The count field of a record (R541). -/
theorem bits_record_count (e : Ev) (hc : e.code < 2 ^ 16) (ten tick step : Nat) (super : Bool) :
    bits (e.record ten tick step super).w0.toNat 24 8 = e.count % 256 := by
  have cls : e.cls < 8 := Nat.mod_lt _ (by decide)
  have mark : (if super then 2 ^ 19 else 0) ≤ 2 ^ 19 := by split <;> omega
  simp only [Ev.record, bits, BitVec.toNat_ofNat]
  generalize (if super then 2 ^ 19 else 0) = m at mark ⊢
  omega

theorem fld_msix (s : State) (p v : Nat) (f : Fld) : (s.msix p v).fld f = s.fld f := by
  unfold State.msix
  split
  · rfl
  · split
    · rfl
    · split
      · split <;> rfl
      · rfl

theorem fld_evAlert (s : State) (e : Ev) (r : Rec4) (f : Fld) : (s.evAlert e r).fld f = s.fld f := by
  unfold State.evAlert
  split
  · rfl
  · extract_lets z
    split <;> rfl

theorem fld_foldl {α : Type} {g : State → α → State} {f : Fld} (h : ∀ z a, (g z a).fld f = z.fld f) (l : List α) (s : State) :
    (l.foldl g s).fld f = s.fld f := by
  induction l generalizing s with
  | nil => rfl
  | cons a r ih => exact (ih (g s a)).trans (h s a)

/-- A record moves the module ring's head by one. -/
theorem head_logModule (s : State) (e : Ev) (super : Bool) :
    (s.logModule e super).fld LH_EVLOG_HEAD = (s.fld LH_EVLOG_HEAD + 1) % 2 ^ 32 := by
  unfold State.logModule
  extract_lets h r z y x
  rw [fld_foldl, fld_evAlert]
  · exact fld_setFld_self y LH_EVLOG_HEAD (h + 1)
  · intro u p
    split
    · exact fld_msix u p 1 _
    · rfl

/-- Settles O59: the first occurrence is put at the end, each repeat counts in it, and the record shows the count. -/
theorem eventRepeatsMerge : Obligations.EventRepeatsMerge := by
  unfold Obligations.EventRepeatsMerge
  intro code isl src d l s hcode hnone t e
  have first : (s.raise code isl src d).arisen = s.arisen ++ [merged code isl src d 1] := addEv_new _ _ (fun x hx => same_eq_false (hnone x hx))
  refine ⟨arisen_raises code isl src d l s.arisen 1 _ hnone first, fun ten tick step super => ⟨?_, rfl, head_logModule t e super⟩⟩
  rw [bits_record_count e hcode]
  exact Nat.mod_eq_of_lt (by simp only [e]; omega)

end Sys2Proof.Proofs
end
section
/-!
PROOFS. The waits of a scalar core (R166 to R174): how one begins at issue, and when it retires.
-/
namespace Sys2Proof.Proofs

open Sys2Proof Sys2Proof.Machine Sys2Proof.Laws

/-- From s to t core c has issued a wait: it stands at its pc, waiting for `w`. -/
def WaitsAt (s t : State) (c : CoreId) (w : Wait) : Prop :=
  s.CoreStep t c { s.core c with wait := w, issueNo := (s.core c).issueNo + 1 }

/-- From s to t the wait of core c has retired: it goes on at the next instruction. -/
def GoesOn (s t : State) (c : CoreId) : Prop :=
  s.CoreStep t c { s.core c with wait := .none, pc := (s.core c).pc + 8 }

section
variable {s : State} {c : CoreId}

theorem coreStep_setCore (s : State) (c : CoreId) (x : Core) : s.CoreStep (s.setCore c x) c x :=
  ⟨core_setCore_self s c x, fun _ hd => core_setCore_ne s x hd, rfl⟩

theorem retire_goesOn (s : State) (c : CoreId) : GoesOn s (s.retire c) c := coreStep_setCore s c _

/-! ### A wait begins -/

/-- A core that issues an instruction whose body only waits stands at that instruction. -/
theorem issueWith_waitOn {srcs : List SReg} {body : State → Act} {f : Nat → Wait} {w : Wait} (h : s.Issues c srcs)
    (hb : body s = s.waitOn c f) (hw : f (s.core c).issueNo = w) : WaitsAt s (issueWith c srcs body s) c w := by
  rw [issueWith_issues h, hb, ← hw]
  refine ⟨?_, fun d hd => ?_, rfl⟩
  · simp only [State.waitOn, core_advance, core_setCore_self]
  · simp only [State.waitOn, State.advance, core_setCore_ne _ _ hd]

theorem sync_waits (h : s.Issues c []) {m : BitVec 8} {v : BitVec 4} {xf : Bool} (hop : m ≠ 0 ∨ v ≠ 0 ∨ xf = true) :
    Gives (exec (.sync c m v xf) s) (WaitsAt s · c (.sync m v xf (s.core c).issueNo)) := by
  have allowed : ¬ (m = 0 ∧ v = 0 ∧ (!xf) = true) := by
    rintro ⟨hm, hv, hx⟩
    simp only [hm, hv, ne_eq, not_true_eq_false, false_or] at hop
    simp [hop] at hx
  exact ⟨_, rfl, issueWith_waitOn h (if_neg allowed) rfl⟩

theorem fence_waits (h : s.Issues c []) {fab fy : Bool} (hop : fab = true ∨ fy = true) :
    Gives (exec (.fence c fab fy) s) (WaitsAt s · c (.fence fab fy (s.core c).issueNo s.now)) := by
  have allowed : ¬ (!fab && !fy) = true := by simpa [Decidable.imp_iff_not_or] using hop
  exact ⟨_, rfl, issueWith_waitOn h (if_neg allowed) rfl⟩

theorem fend_waits (h : s.Issues c []) : Gives (exec (.fend c) s) (WaitsAt s · c (.fend (s.core c).issueNo)) :=
  ⟨_, rfl, issueWith_waitOn h rfl rfl⟩

theorem waitc_waits {rs1 : Reg} (h : s.Issues c [.g rs1]) (k : Fin 16) :
    Gives (exec (.waitc c k rs1) s) (WaitsAt s · c (.waitc k (((s.core c).gGet rs1).setWidth 32))) :=
  ⟨_, rfl, issueWith_waitOn h rfl rfl⟩

theorem barrier_waits {rs1 : Reg} {n : BitVec 8} (h : s.Issues c [.g rs1])
    (ha : s.flagCheck c ((s.core c).gGet rs1).toNat false = 0) (hn : n ≠ 0) (hle : n.toNat ≤ 128) :
    Gives (exec (.barrier c rs1 n) s) (WaitsAt s · c (.barrier ((s.core c).gGet rs1).toNat n.toNat (s.core c).issueNo false)) := by
  have count : ¬ (n = 0 ∨ 128 < n.toNat) := not_or.2 ⟨hn, Nat.not_lt.2 hle⟩
  exact ⟨_, rfl, issueWith_waitOn h ((if_neg count).trans (if_neg (fun e => e ha))) rfl⟩

/-- The relations of FLAG.WAIT (R171): equal, at least, not equal. -/
theorem flagHolds_eq {rel : BitVec 2} (hr : rel ≠ 3) (x v : Nat) :
    flagHolds rel.toNat x v = if rel = 0 then x == v else if rel = 1 then decide (v ≤ x) else x != v := by
  obtain rfl | rfl | rfl : rel = 0 ∨ rel = 1 ∨ rel = 2 := by
    revert rel
    decide
  all_goals rfl

theorem flagWait_waits {rs1 rs2 : Reg} {rel : BitVec 2} (h : s.Issues c [.g rs1, .g rs2])
    (ha : s.flagCheck c ((s.core c).gGet rs1).toNat true = 0) (hr : rel ≠ 3) :
    Gives (exec (.flagWait c rs1 rs2 rel) s) (WaitsAt s · c (.flagWait ((s.core c).gGet rs1).toNat ((s.core c).gGet rs2) rel.toNat
      (flagHolds rel.toNat (s.peek ((s.core c).gGet rs1).toNat 8) ((s.core c).gGet rs2).toNat))) :=
  ⟨_, rfl, issueWith_waitOn h ((if_neg hr).trans (if_neg (fun e => e ha))) rfl⟩

/-! ### A wait retires, or stays: one equation per command -/

theorem exec_syncRetire {m : BitVec 8} {v : BitVec 4} {xf : Bool} {b : Nat} (hw : (s.core c).wait = .sync m v xf b) :
    exec (.syncRetire c) s =
      if s.unitsClear c m.toNat v.toNat b && (!xf || (s.core c).xfersClear XKind.inSync b) then .next (s.retire c) else .next s := by
  show execSyncRetire c s = _
  simp only [execSyncRetire, hw]

/-- The counter word is sound, so its read through the checker is without effect (R110). -/
theorem exec_waitcRetire {k : Nat} {v : BitVec 32} (hw : (s.core c).wait = .waitc k v) (hs : s.Sound c (.cw (0x040 + k))) :
    exec (.waitcRetire c) s =
      if ((((s.core c).cwGet (0x040 + k)).setWidth 32 : BitVec 32) - v).toNat < 2 ^ 31 then .next (s.retire c) else .next s := by
  show execWaitcRetire c s = _
  simp only [execWaitcRetire, hw, hwRead_sound hs]

theorem exec_fenceComplete {fab fy : Bool} {b since : Nat} (hw : (s.core c).wait = .fence fab fy b since) :
    exec (.fenceComplete c) s =
      if (s.core c).xfers.all (fun y => decide (b ≤ y.no) || !((fy && y.kind.onFerry s.node) || (fab && y.kind.onFabric s.node)) || y.left == 0)
      then .next (s.retire c) else .next s := by
  show execFenceComplete c s = _
  simp only [execFenceComplete, hw]

theorem exec_fenceTimeout {fab fy : Bool} {b since : Nat} (hw : (s.core c).wait = .fence fab fy b since) (hs : s.Sound c (.cw cwFenceLimit)) :
    exec (.fenceTimeout c) s =
      if since + fenceTicks ((s.core c).cwGet cwFenceLimit) ≤ s.now then .next (s.preciseTrap c trFence) else .next s := by
  show execFenceTimeout c s = _
  simp only [execFenceTimeout, hw, hwRead_sound hs]

theorem exec_flagWaitRetire {a rel : Nat} {v : Word} {ok : Bool} (hw : (s.core c).wait = .flagWait a v rel ok) :
    exec (.flagWaitRetire c) s = if ok then .next (s.retire c) else .next s := by
  show execFlagWaitRetire c s = _
  cases ok
  · simp [execFlagWaitRetire, hw]
  · simp [execFlagWaitRetire, hw]

theorem exec_fendRetire {b : Nat} (hw : (s.core c).wait = .fend b) :
    exec (.fendRetire c) s =
      if s.unitsClear c 255 15 b && (s.core c).xfersClear XKind.inFend b then .next (((s.retire c).setScState c stFend).skipWindows c.isl)
      else .next s := by
  show execFendRetire c s = _
  simp only [execFendRetire, hw]

/-- A command that retires the wait where its condition holds, and else leaves the state. -/
theorem gives_retire {o : Out} {p : Bool} (ho : o = if p then .next (s.retire c) else .next s) :
    (p = true → Gives o (GoesOn s · c)) ∧ (p = false → o = .next s) := by
  subst ho
  refine ⟨fun hp => ⟨s.retire c, if_pos hp, retire_goesOn s c⟩, fun hp => by simp [hp]⟩

/-! ### FEND: the windows that can no longer be taken (R202) -/

/-- Scalar cores, their states and memory stand from s to t. -/
def CoresStand (s t : State) : Prop := t.cores = s.cores ∧ t.mem = s.mem ∧ ∀ d, t.scState d = s.scState d

theorem CoresStand.trans {s t u : State} (h : CoresStand s t) (g : CoresStand t u) : CoresStand s u :=
  ⟨g.1.trans h.1, g.2.1.trans h.2.1, fun d => (g.2.2 d).trans (h.2.2 d)⟩

/-- A skipped window counts in IS_MESH_STAT, a register apart from the states of the scalar cores. -/
theorem coresStand_skipWin (s : State) (i w : Nat) : CoresStand s (s.skipWin i w) := by
  refine ⟨rfl, rfl, fun d => fld_bump_ne _ _ (key_ne ?_ (by simp [IS_SC_STATUS_STATE]) (by simp [IS_MESH_STAT_SKIPPED]))⟩
  have := d.sc.isLt
  simp only [IS_SC_STATUS_STATE, IS_MESH_STAT_SKIPPED]
  omega

theorem coresStand_skipWindows (s : State) (i : Nat) : CoresStand s (s.skipWindows i) := by
  refine List.foldlRecOn (motive := CoresStand s) _ _ ⟨rfl, rfl, fun _ => rfl⟩ (fun t ht w _ => ?_)
  split
  · exact ht
  · exact ht.trans (coresStand_skipWin t i w)

theorem fendRetire_goesOn {b : Nat} (hw : (s.core c).wait = .fend b) (hu : s.unitsClear c 255 15 b = true)
    (hx : (s.core c).xfersClear XKind.inFend b = true) :
    Gives (exec (.fendRetire c) s) (fun t => t.scState c = stFend ∧
      t.core c = { s.core c with wait := .none, pc := (s.core c).pc + 8 } ∧ (∀ d, d ≠ c → t.core d = s.core d) ∧ t.mem = s.mem) := by
  obtain ⟨hcores, hmem, hst⟩ := coresStand_skipWindows ((s.retire c).setScState c stFend) c.isl
  obtain ⟨hself, hother, -⟩ := retire_goesOn s c
  have hcore : ∀ d, (((s.retire c).setScState c stFend).skipWindows c.isl).core d = (s.retire c).core d :=
    fun d => congrArg (fun l : Tbl Core => l.get {} (coreKey d)) hcores
  refine ⟨_, by rw [exec_fendRetire hw, hu, hx]; rfl, ?_, (hcore c).trans hself, fun d hd => (hcore d).trans (hother d hd), hmem⟩
  rw [hst c]
  exact fld_setFld_self _ _ _

/-! ### The conditions as the rules state them -/

/-- What a SYNC waits for (R166). -/
theorem sync_condition_iff {u xf xc : Bool} : (u && (!xf || xc)) = true ↔ u = true ∧ (xf = true → xc = true) := by
  cases u <;> cases xf <;> simp

/-- A FENCE is done where each transfer issued before it has no line outstanding or is none of those covered (R168). -/
theorem fence_condition {l : List Xfer} {fab fy : Bool} {b node : Nat}
    (h : ∀ y ∈ l, b ≤ y.no ∨ y.left = 0 ∨ ¬ ((fy = true ∧ y.kind.onFerry node = true) ∨ (fab = true ∧ y.kind.onFabric node = true))) :
    l.all (fun y => decide (b ≤ y.no) || !((fy && y.kind.onFerry node) || (fab && y.kind.onFabric node)) || y.left == 0) = true := by
  refine List.all_eq_true.2 fun y hy => ?_
  obtain hb | hl | hc := h y hy
  · simp [hb]
  · simp [hl]
  · have : (fy && y.kind.onFerry node || fab && y.kind.onFabric node) = false := by simpa using hc
    simp [this]

end

/-- Settles O29: a wait begins by `issueWith_waitOn`; it retires by the equation of its command. -/
theorem waitResult : Obligations.WaitResult := by
  unfold Obligations.WaitResult
  refine ⟨fun c s => ⟨fun h m v xf fab fy => ⟨sync_waits h, fence_waits h, fend_waits h⟩,
    fun rs1 k n h => ⟨waitc_waits h k, barrier_waits h⟩, fun rs1 rs2 rel h ha hr => ?_⟩,
    fun c s => ⟨fun m v xf b hw => ?_, fun k v hw hs => ?_, fun fab fy b since hw => ⟨fun h => ?_, fun hs => ⟨fun h => ?_, fun h => ?_⟩⟩,
      fun a v rel => ⟨fun hw => ?_, fun hw => ?_⟩, fun b hw => fendRetire_goesOn hw⟩⟩
  · have waits := flagWait_waits h ha hr
    rw [flagHolds_eq hr] at waits
    exact waits
  · obtain ⟨goes, stays⟩ := gives_retire (exec_syncRetire hw)
    rw [sync_condition_iff] at goes
    exact ⟨goes, fun h => stays (Bool.eq_false_iff.2 fun e => h (sync_condition_iff.1 e))⟩
  · rw [exec_waitcRetire hw hs]
    exact ⟨fun h => ⟨_, if_pos h, retire_goesOn s c⟩, fun h => if_neg (Nat.not_lt.2 h)⟩
  · exact (gives_retire (exec_fenceComplete hw)).1 (fence_condition h)
  · rw [exec_fenceTimeout hw hs]
    exact ⟨_, if_pos h, trapped_precise s c trFence 0⟩
  · rw [exec_fenceTimeout hw hs]
    exact if_neg (Nat.not_le.2 h)
  · exact (gives_retire (exec_flagWaitRetire hw)).1 rfl
  · exact (gives_retire (exec_flagWaitRetire hw)).2 rfl

end Sys2Proof.Proofs
end
